-- ==== Sys2Proof/Word.lean ====
section
/-! DEFINITION. The bit-vector types of the machine: registers and elements the spec treats as bits (R3, R87). -/
namespace Sys2Proof

/-- A 64-bit value: s- and e-registers, addresses, control registers (R87). -/
abbrev Word := BitVec 64
/-- One byte of any memory (R3). -/
abbrev Byte := BitVec 8
/-- A 32-bit lane of a vector register, a stride, an FP32 pattern (R116). -/
abbrev Lane := BitVec 32
/-- A vector register or a queue entry: 32 lanes of 32 bits (R87, R171). -/
abbrev Vec := BitVec 1024
/-- A set of engines of a gang, bit e for engine e (R130). -/
abbrev Mask := BitVec 16
/-- A bundle (R81). -/
abbrev BundleBits := BitVec 384
/-- A code word (R75). -/
abbrev CodeWord := BitVec 16

end Sys2Proof
end

