-- ==== Sys2Proof/Config.lean ====
section
/-! DEFINITION. What the manual leaves open: free values (opaque constants without a body, applied to plain counters of the
state or to operands) and the fixed sizes of the package. -/
namespace Sys2Proof.Config

/-- A 64-bit value that the manual leaves undefined: the epoch of the step that reads it and a tag of the place read.
(DESIGN CHOICE, log 9) -/
opaque freeWord : Nat → Nat → Word
/-- A 1024-bit value that the manual leaves undefined, by epoch and tag. (DESIGN CHOICE, log 9) -/
opaque freeVec : Nat → Nat → Vec
/-- A number that the manual leaves undefined, by epoch and tag. (DESIGN CHOICE, log 9) -/
opaque freeNat : Nat → Nat → Nat
/-- Cycles that contention adds to one memory access beyond the scratchpad (R111), by epoch and tag. (DESIGN CHOICE, log 10) -/
opaque contention : Nat → Nat → Nat

/-- Element i of the contribution that rank r of another package makes to a collective, by the cycle of its commit (R337, R339): it
comes from outside the package. (DESIGN CHOICE, log 30) -/
opaque remote : Nat → Nat → Nat → Nat

/-- Where a special function steps from one of the values that its error bound allows to the next (R227, R228), by opcode, monotonic
piece and FP32 magnitude. (DESIGN CHOICE, log 11) -/
opaque sfPick : Nat → Nat → Nat → Nat

/-- The device's public key (R402), 1,793 bytes. (DESIGN CHOICE, log 60) -/
opaque deviceKey : Nat
/-- The certificate of the device (R402). (DESIGN CHOICE, log 60) -/
opaque certificate : List Byte
/-- What the measurements of a report cover (R403): the boot ROM, the parts of an image that are the Primer firmware and the resident
agent, and a table of the package in bytes. (DESIGN CHOICE, log 60) -/
opaque bootRom : List Byte
opaque primerPart : List Byte → List Byte
opaque agentPart : List Byte → List Byte
opaque tableBytes : Nat → List Nat → List Byte
/-- What the device's signer makes of a message with its private key, which never leaves it, and a draw of its random numbers (R401,
R402): a report carries it where it is a Falcon-1024 signature. (DESIGN CHOICE, log 60) -/
opaque falconSign : List Byte → Nat → List Byte

/-- The SVN in an image's header (R404), whose fields have no offsets in the manual. (DESIGN CHOICE, log 41) -/
opaque imageSvn : List Byte → Nat
/-- The length of the body in an image's header. (DESIGN CHOICE, log 41) -/
opaque imageBodyLen : List Byte → Nat
/-- The SHAKE256 of the body in an image's header. (DESIGN CHOICE, log 41) -/
opaque imageBodyHash : List Byte → Nat
/-- Ferjor's public key in an image's header. (DESIGN CHOICE, log 41) -/
opaque imageKey : List Byte → Nat
/-- The signature in an image's header. (DESIGN CHOICE, log 41) -/
opaque imageSignature : List Byte → List Byte
/-- The SHAKE256 of Ferjor's key in the boot ROM (R404). (DESIGN CHOICE, log 41) -/
opaque romKeyHash : Nat
/-- The image that the package was delivered with (R404). (DESIGN CHOICE, log 41) -/
opaque firstImage : List Byte

/-- Cores of the package: 8 C-dies of 9 cores. -/
abbrev cores : Nat := 72
/-- Engines of a core. -/
abbrev engines : Nat := 16

end Sys2Proof.Config
end

