-- ==== Sys2Proof/Syntax.lean ====
section
/-! DEFINITION. The steps of the machine: one constructor of Instr for each row of spec/opcode_table.json, with the fields
the table names; the rows of the V slot carry the eight fields of R94; the rows that are events of the package carry what
names the event, or take their subject from the state. -/
namespace Sys2Proof

/-- The fields of a V slot word below its opcode (R94): width, type, rounding mode, destination, two sources, mask and C. -/
structure VFields where
  w : BitVec 2
  t : BitVec 3
  rm : BitVec 3
  d : BitVec 9
  a : BitVec 9
  b : BitVec 9
  m : BitVec 3
  c : BitVec 4
  deriving DecidableEq, Repr

/-- The physical facts that Finish finds (R1, R19, R399): good rows lost, units that fail, the step that lost the last
C-die or M-die. (DESIGN CHOICE, log 40) -/
structure FinishReport where
  /-- package engine number and rows lost (of 64) -/
  lostRows : List (Nat × Nat)
  badCores : List Nat
  badSpares : List Nat
  badChannels : List Nat
  badCdies : List Nat
  badMdies : List Nat
  badPorts : List Nat
  /-- step of R399 in which the last C-die or M-die was fenced -/
  lastStep : Nat
  deriving DecidableEq, Repr

/-- The word that an X-slot read found uncorrectable (R265): at an offset of the ceiling or of the scratchpad, or in a latch. -/
inductive XWord where
  | ceiling (off : Nat)
  | scratchpad (off : Nat)
  | latch
  deriving DecidableEq, Repr

/-- Where an uncorrectable word stands (R405, R265). -/
inductive ErrorSite where
  /-- a word of physical memory (home slice, die cache or LPDDR 5X) -/
  | memory (die pa : Nat)
  /-- a word of an engine's scratchpad or ceiling store, at an offset -/
  | sram (die core engine : Nat) (ceiling : Bool) (off : Nat)
  /-- a register-file or queue word of an engine -/
  | register (die core engine : Nat)
  /-- a ceiling, latch or scratchpad word read by the X slot into a tile (or latch when `latch`) -/
  | xslot (die core engine dst : Nat) (latch : Bool) (src : XWord)
  deriving DecidableEq, Repr

/-- How a UFP frame is carried (R393): directly in Ethernet, or in a UDP datagram over IPv4 or IPv6, with the IP address of the far
end, the ports of the datagram, whether it is a fragment, and DF. -/
inductive Encap where
  | ethernet (etherType : Nat)
  | udp (v6 : Bool) (ip sourcePort destPort : Nat) (fragment df : Bool)
  deriving DecidableEq, Repr

/-- A frame on the wire (R393, R394): its port, its carrier, the far end's MAC address, and the bytes that the carrier holds. -/
structure Wire where
  port : Nat
  encap : Encap
  mac : Nat
  bytes : List Byte
  deriving DecidableEq, Repr

/-- A UFP frame by its fields (R394): carrier, header and payload. -/
structure Frame where
  port : Nat
  encap : Encap
  source : Nat
  ver : Nat
  op : Nat
  conn : Nat
  seq : Nat
  ackSeq : Nat
  sack : BitVec 32
  asid : Nat
  len : Nat
  arg : BitVec 32
  addr : Word
  payload : List Byte
  deriving DecidableEq, Repr

/-- The far end of a connection (R412, types 3 and 4). (DEDUCED, log 48) -/
structure Remote where
  mac : Nat
  port : Nat
  encap : Nat
  ip : Nat
  udpPort : Nat
  deriving DecidableEq, Repr

/-- A descriptor on its way to a launch queue (R164, R376). -/
structure Submission where
  queue : Nat
  addr : Word
  asid : Nat
  core : Nat
  spare : Bool
  deriving DecidableEq, Repr

/-- The identity of a collective instance (R338): task, squad, group and number. -/
structure CollKey where
  handle : Nat
  squad : Nat
  mask : BitVec 32
  pen : Bool
  peer : Nat
  number : Nat
  deriving DecidableEq, Repr

/-- The steps of the machine, one constructor for each row of the table of operations and events. The rows that carry
fields stand first, in the table's order; then the rows that carry none: an event of the package whose subject (its core,
engine, queue, connection or handle) the state names, and the slot instructions without operands. -/
inductive Instr where
  /-- FINISH (R399): Finish starts as Primer ends: spoke links, SRAM repair, array tests and harvest, LPDDR 5X training, ports 1-3 and scrub; BOOTSTAT then reads 3, or 4 when every C-die or every M-die is lost. -/
  | finish (report : FinishReport)
  /-- ECC_CORRECTION (R405): A single-bit SECDED error is corrected and counted in CONTLOG. One on a ceiling read names the core, the
  engine and the cycles by which it delays the array beyond its busy time (R41). -/
  | eccCorrection (die pa : Nat) (delayed : Option (Nat × Nat × Nat))
  /-- UNCORRECTABLE_ERROR (R405): A double-bit error marks its sector poisoned, or halts the gang with POISON for a register-file or queue word. -/
  | uncorrectableError (site : ErrorSite)
  /-- ENGINE_FENCE (R406): An engine failing self-check leaves the live mask, and the resident gang on its core halts with HW_FENCE. -/
  | engineFence (core engine cause : Nat)
  /-- CORE_FENCE (R406): A sequencer or shared core logic failure fences the core and halts its gang with HW_FENCE. -/
  | coreFence (core cause : Nat)
  /-- CHANNEL_FENCE (R406): A failing channel is fenced, its memory poisoned, and every frame with a line on it is removed from the pools. -/
  | channelFence (channel cause : Nat)
  /-- CDIE_FENCE (R406): A failing C-die halts every gang on it and poisons at the home slices every dirty line its die cache held. -/
  | cdieFence (die cause : Nat)
  /-- MDIE_FENCE (R406): A failing M-die poisons every sector of its slices and channels, and affects commits holding locks there. -/
  | mdieFence (die cause : Nat)
  /-- PORT_FENCE (R406): A port's link loss closes its connections as lost and fails collectives with a member beyond it. -/
  | portFence (port : Nat)
  /-- UFP_FRAME_RECEIVE (R394): A received frame is checked for form, version, OP, LEN and CONN, dropped and counted when bad, and windowed and ordered by SEQ. -/
  | ufpFrameReceive (f : Wire)
  /-- UFP_ACK (R395): An ACK frame updates the acknowledged SEQs and SACK of its connection. -/
  | ufpAck (f : Wire)
  /-- UFP_RESPONSE (R394): A response frame (OP + 0x80) completes an operation that the device sent to a peer. -/
  | ufpResponse (f : Wire)
  /-- HUB_AGE_WRITE (R397): A WRITE of the hub-space AGE register sets CR_AGE. -/
  | hubAgeWrite (value : Word)
  /-- INSTALL_CONTEXT (R412): Mailbox 0 type 1, OP 0, installs a translation context with its root. -/
  | installContext (asid root : Nat)
  /-- REMOVE_CONTEXT (R359): Mailbox 0 type 1, OP 1, removes a translation context unless tasks or rings of its ASID remain. -/
  | removeContext (asid : Nat)
  /-- ADD_FRAMES (R412): Mailbox 0 type 1, OP 2, zeros each frame and adds it to the ASID's pool of the given size. -/
  | addFrames (asid : Nat) (big : Bool) (frames : List Nat)
  /-- REMOVE_FRAMES (R412): Mailbox 0 type 1, OP 3, removes frames that are in the pool. -/
  | removeFrames (asid : Nat) (big : Bool) (frames : List Nat)
  /-- INSTALL_RING_CONTEXT (R347): Mailbox 0 type 2 installs, replaces or removes a 64 B ring context, discarding records it held. -/
  | installRingContext (ring : Nat) (record : List Byte)
  /-- INSTALL_PEER_CONTEXT (R412): Mailbox 0 type 3 installs a peer context and opens its connections, or removes it with NPKG 0. -/
  | installPeerContext (peer prank : Nat) (packages : List Remote)
  /-- OPEN_CONNECTION (R412): Mailbox 0 type 4 with open = 1 opens a host connection with both sequence numbers at 0. -/
  | openConnection (conn : Nat) (remote : Remote)
  /-- CLOSE_CONNECTION (R412): Mailbox 0 type 4 with open = 0 closes a host connection; closing connection 64 is refused. -/
  | closeConnection (conn : Nat)
  /-- READ_SAVE_AREA (R412): Mailbox 0 type 5 returns LENGTH bytes of a halted, pre-empted or exited gang's save area. -/
  | readSaveArea (handle squad pos offset length : Nat)
  /-- RESUME_GANG (R45): Mailbox 0 type 6 resumes a halted gang, replaying faulted entries and batches exactly. -/
  | resumeGang (handle squad pos : Nat)
  /-- CANCEL_TASK_MESSAGE (R382): Mailbox 0 type 7 cancels a task by handle. -/
  | cancelTaskMessage (handle : Nat)
  /-- FIRMWARE_BEGIN (R404): Mailbox 0 type 8 begins writing a firmware image of the given length into the inactive slot. -/
  | firmwareBegin (length : Nat)
  /-- FIRMWARE_CHUNK (R404): Mailbox 0 type 9 writes a chunk of the image at its byte offset. -/
  | firmwareChunk (offset : Nat) (bytes : List Byte)
  /-- ATTESTATION_REPORT (R403): Mailbox 1 type 2 with a nonce returns a signed 1,882 B attestation report. -/
  | attestationReport (nonce : List Byte)
  /-- SUBMISSION_ARRIVAL (R376): A submission reaches its launch queue, entering it or being rejected with 0x44 when the queue is full. -/
  | submissionArrival (sub : Submission)
  /-- GANG_START (R388): After images, dictionary and ceiling are loaded, all gangs of a placed squad issue their first bundle in one cycle. -/
  | gangStart (handle squad : Nat)
  /-- TASK_CANCEL (R382): A cancel reaching the scheduler stops and removes the task's gangs without releasing held stores. -/
  | taskCancel (handle asid : Nat)
  /-- DIE_CACHE_EVICTION (R61): A die cache evicts a line, writing it back to its home slice. -/
  | dieCacheEviction (die line : Nat)
  /-- COLLECTIVE_FAIL (R342): A member loss, mismatch, member fault or link loss fails the instance with one cause. -/
  | collectiveFail (key : CollKey) (cause : Nat)
  /-- PAGE_WALK (R358): A translation miss walks the four table levels and returns a frame or a fault reason. -/
  | pageWalk (core : Nat) (va : Word) (write : Bool)
  /-- ADD_SR (R133): Adds two registers. -/
  | addSr (e : BitVec 1) (d : BitVec 6) (a : BitVec 6) (b : BitVec 6)
  /-- ADD_SI (R133): Adds a register and a signed 12-bit immediate. -/
  | addSi (e : BitVec 1) (d : BitVec 6) (a : BitVec 6) (i : BitVec 12)
  /-- SUB_SR (R133): Subtracts two registers. -/
  | subSr (e : BitVec 1) (d : BitVec 6) (a : BitVec 6) (b : BitVec 6)
  /-- SUB_SI (R133): Subtracts an immediate. -/
  | subSi (e : BitVec 1) (d : BitVec 6) (a : BitVec 6) (i : BitVec 12)
  /-- MUL_SR (R133): Low 64 bits of the product. -/
  | mulSr (e : BitVec 1) (d : BitVec 6) (a : BitVec 6) (b : BitVec 6)
  /-- MUL_SI (R133): Low 64 bits of the product with an immediate. -/
  | mulSi (e : BitVec 1) (d : BitVec 6) (a : BitVec 6) (i : BitVec 12)
  /-- MULH_SR (R133): High 64 bits of the product, signed or unsigned by F. -/
  | mulhSr (e : BitVec 1) (d : BitVec 6) (a : BitVec 6) (b : BitVec 6) (u : BitVec 1)
  /-- MULH_SI (R133): Signed high 64 bits of the product with an immediate. -/
  | mulhSi (e : BitVec 1) (d : BitVec 6) (a : BitVec 6) (i : BitVec 12)
  /-- DIV_SR (R133): Quotient truncated toward zero, signed or unsigned. -/
  | divSr (e : BitVec 1) (d : BitVec 6) (a : BitVec 6) (b : BitVec 6) (u : BitVec 1)
  /-- DIV_SI (R133): Signed quotient by an immediate. -/
  | divSi (e : BitVec 1) (d : BitVec 6) (a : BitVec 6) (i : BitVec 12)
  /-- REM_SR (R133): Remainder, signed or unsigned. -/
  | remSr (e : BitVec 1) (d : BitVec 6) (a : BitVec 6) (b : BitVec 6) (u : BitVec 1)
  /-- REM_SI (R133): Signed remainder by an immediate. -/
  | remSi (e : BitVec 1) (d : BitVec 6) (a : BitVec 6) (i : BitVec 12)
  /-- AND_SR (R133): Bitwise and. -/
  | andSr (e : BitVec 1) (d : BitVec 6) (a : BitVec 6) (b : BitVec 6)
  /-- AND_SI (R133): Bitwise and with an immediate. -/
  | andSi (e : BitVec 1) (d : BitVec 6) (a : BitVec 6) (i : BitVec 12)
  /-- OR_SR (R133): Bitwise or. -/
  | orSr (e : BitVec 1) (d : BitVec 6) (a : BitVec 6) (b : BitVec 6)
  /-- OR_SI (R133): Bitwise or with an immediate. -/
  | orSi (e : BitVec 1) (d : BitVec 6) (a : BitVec 6) (i : BitVec 12)
  /-- XOR_SR (R133): Bitwise xor. -/
  | xorSr (e : BitVec 1) (d : BitVec 6) (a : BitVec 6) (b : BitVec 6)
  /-- XOR_SI (R133): Bitwise xor with an immediate. -/
  | xorSi (e : BitVec 1) (d : BitVec 6) (a : BitVec 6) (i : BitVec 12)
  /-- ANDN_SR (R133): x and not y. -/
  | andnSr (e : BitVec 1) (d : BitVec 6) (a : BitVec 6) (b : BitVec 6)
  /-- ANDN_SI (R133): x and not an immediate. -/
  | andnSi (e : BitVec 1) (d : BitVec 6) (a : BitVec 6) (i : BitVec 12)
  /-- SHL_SR (R133): Shift left by y[5:0]. -/
  | shlSr (e : BitVec 1) (d : BitVec 6) (a : BitVec 6) (b : BitVec 6)
  /-- SHL_SI (R133): Shift left by an immediate 0-63. -/
  | shlSi (e : BitVec 1) (d : BitVec 6) (a : BitVec 6) (i : BitVec 12)
  /-- SHR_SR (R133): Logical shift right. -/
  | shrSr (e : BitVec 1) (d : BitVec 6) (a : BitVec 6) (b : BitVec 6)
  /-- SHR_SI (R133): Logical shift right by an immediate. -/
  | shrSi (e : BitVec 1) (d : BitVec 6) (a : BitVec 6) (i : BitVec 12)
  /-- SRA_SR (R133): Arithmetic shift right. -/
  | sraSr (e : BitVec 1) (d : BitVec 6) (a : BitVec 6) (b : BitVec 6)
  /-- SRA_SI (R133): Arithmetic shift right by an immediate. -/
  | sraSi (e : BitVec 1) (d : BitVec 6) (a : BitVec 6) (i : BitVec 12)
  /-- ROL_SR (R133): Rotate left. -/
  | rolSr (e : BitVec 1) (d : BitVec 6) (a : BitVec 6) (b : BitVec 6)
  /-- ROL_SI (R133): Rotate left by an immediate. -/
  | rolSi (e : BitVec 1) (d : BitVec 6) (a : BitVec 6) (i : BitVec 12)
  /-- CMP_SR (R133): 1 if the condition in F holds on two registers. -/
  | cmpSr (e : BitVec 1) (d : BitVec 6) (a : BitVec 6) (b : BitVec 6) (c : BitVec 6)
  /-- CMP_SI (R133): 1 if the condition in IMM12[11:9] holds against a 9-bit immediate. -/
  | cmpSi (e : BitVec 1) (d : BitVec 6) (a : BitVec 6) (c : BitVec 3) (i : BitVec 9)
  /-- MIN_SR (R133): Smaller value, signed or unsigned. -/
  | minSr (e : BitVec 1) (d : BitVec 6) (a : BitVec 6) (b : BitVec 6) (u : BitVec 1)
  /-- MIN_SI (R133): Signed minimum with an immediate. -/
  | minSi (e : BitVec 1) (d : BitVec 6) (a : BitVec 6) (i : BitVec 12)
  /-- MAX_SR (R133): Larger value, signed or unsigned. -/
  | maxSr (e : BitVec 1) (d : BitVec 6) (a : BitVec 6) (b : BitVec 6) (u : BitVec 1)
  /-- MAX_SI (R133): Signed maximum with an immediate. -/
  | maxSi (e : BitVec 1) (d : BitVec 6) (a : BitVec 6) (i : BitVec 12)
  /-- SEL (R133): Selects x if reg(F) is nonzero, else y. -/
  | sel (e : BitVec 1) (d : BitVec 6) (a : BitVec 6) (b : BitVec 6) (f : BitVec 6)
  /-- BITC_CLZ (R133): Count leading zeros; 64 for 0. -/
  | bitcClz (e : BitVec 1) (d : BitVec 6) (a : BitVec 6)
  /-- BITC_CTZ (R133): Count trailing zeros; 64 for 0. -/
  | bitcCtz (e : BitVec 1) (d : BitVec 6) (a : BitVec 6)
  /-- BITC_POPC (R133): Population count. -/
  | bitcPopc (e : BitVec 1) (d : BitVec 6) (a : BitVec 6)
  /-- BITC_BREV (R133): Bit reverse. -/
  | bitcBrev (e : BitVec 1) (d : BitVec 6) (a : BitVec 6)
  /-- EXT_SR (R133): Extracts a bit field, zero- or sign-extended by F. -/
  | extSr (e : BitVec 1) (d : BitVec 6) (a : BitVec 6) (b : BitVec 6) (s : BitVec 1)
  /-- EXT_SI (R133): Extracts a bit field with immediate length and position. -/
  | extSi (e : BitVec 1) (d : BitVec 6) (a : BitVec 6) (l : BitVec 6) (p : BitVec 6)
  /-- LI (R134): Loads a sign-extended 18-bit immediate. -/
  | li (e : BitVec 1) (d : BitVec 6) (i : BitVec 18)
  /-- LIS (R134): Shifts the destination left 18 and adds an immediate. -/
  | lis (e : BitVec 1) (d : BitVec 6) (i : BitVec 18)
  /-- MOVC (R135): Reads a control register into a register. -/
  | movc (e : BitVec 1) (d : BitVec 6) (c : BitVec 12)
  /-- MOVTC (R135): Writes a control register field by field; the general write for registers without behaviour of their own. -/
  | movtc (e : BitVec 1) (a : BitVec 6) (c : BitVec 12)
  /-- CR_EVENTS_WRITE (R132): A write to CR_EVENTS clears each event bit written as 1, a concurrent setting winning. -/
  | crEventsWrite (value : Word)
  /-- CR_TIMER_WRITE (R132): A write to CR_TIMER arms the countdown, or disarms it with 0 without an event. -/
  | crTimerWrite (value : Word)
  /-- CR_BATONS_WRITE (R132): A write to CR_BATONS sets every baton bit, ORed with batons produced that cycle. -/
  | crBatonsWrite (value : Word)
  /-- CR_WATCHDOG_WRITE (R36): A write to CR_WATCHDOG sets the queue-wait bound for later waits, clamped to at least 256. -/
  | crWatchdogWrite (value : Word)
  /-- CR_FPFLAGS_WRITE (R122): A write to CR_FPFLAGS sets the flags, ORed with contributions landing in the same cycle. -/
  | crFpflagsWrite (engines : Mask) (value : Word)
  /-- CR_STKDEPTH_WRITE (R132): A write to CR_STKDEPTH sets SPILLED and RESIDENT, clamping RESIDENT to 32. -/
  | crStkdepthWrite (value : Word)
  /-- CR_RCUT_WRITE (R271): A write to CR_RCUT sets the cut-off count, clamped to 1-64. -/
  | crRcutWrite (engines : Mask) (value : Word)
  /-- GPRED_SET (R139): Sets each active engine's bit of g[D] from its e-register being nonzero. -/
  | gpredSet (d : BitVec 6) (a : BitVec 6)
  /-- GPRED_AND (R139): g[D] := g[A] and g[B]. -/
  | gpredAnd (d : BitVec 6) (a : BitVec 6) (b : BitVec 6)
  /-- GPRED_OR (R139): g[D] := g[A] or g[B]. -/
  | gpredOr (d : BitVec 6) (a : BitVec 6) (b : BitVec 6)
  /-- GPRED_ANDN (R139): g[D] := g[A] and not g[B]. -/
  | gpredAndn (d : BitVec 6) (a : BitVec 6) (b : BitVec 6)
  /-- GPRED_XOR (R139): g[D] := g[A] xor g[B]. -/
  | gpredXor (d : BitVec 6) (a : BitVec 6) (b : BitVec 6)
  /-- GPRED_NOT (R139): g[D] := g0 and not g[A]. -/
  | gpredNot (d : BitVec 6) (a : BitVec 6)
  /-- GPRED_FROMS (R139): g[D] := s[A][15:0] and g0. -/
  | gpredFroms (d : BitVec 6) (a : BitVec 6)
  /-- GPRED_RANGE (R139): g[D] := g[A] and the engine bits lo to hi. -/
  | gpredRange (d : BitVec 6) (a : BitVec 6) (h : BitVec 4) (l : BitVec 4)
  /-- GQRY_MASK (R140): Reads a g-register into an s-register. -/
  | gqryMask (d : BitVec 6) (a : BitVec 6)
  /-- GQRY_MASK_E (R140): Gives each active engine its bit of a g-register in an e-register. -/
  | gqryMaskE (d : BitVec 6) (a : BitVec 6)
  /-- GQRY_COUNT (R140): Counts the active engines set in a g-register. -/
  | gqryCount (d : BitVec 6) (a : BitVec 6)
  /-- GQRY_ANY (R140): 1 if any active engine is set in a g-register. -/
  | gqryAny (d : BitVec 6) (a : BitVec 6)
  /-- GQRY_ALL (R140): 1 if every active engine is set in a g-register. -/
  | gqryAll (d : BitVec 6) (a : BitVec 6)
  /-- GQRY_FIRST (R140): Index of the lowest active engine set, or 16. -/
  | gqryFirst (d : BitVec 6) (a : BitVec 6)
  /-- GQRY_ACT (R140): Reads the active mask. -/
  | gqryAct (d : BitVec 6)
  /-- GQRY_BIT (R140): Reads one bit of a g-register. -/
  | gqryBit (d : BitVec 6) (a : BitVec 6) (n : BitVec 4)
  /-- EGET_SR (R136): Reads an e-register of the engine s[A] mod 16 into an s-register. -/
  | egetSr (d : BitVec 6) (a : BitVec 6) (b : BitVec 6)
  /-- EGET_SI (R136): Reads an e-register of an immediately named engine. -/
  | egetSi (d : BitVec 6) (n : BitVec 4) (b : BitVec 4)
  /-- EPUT_SR (R136): Writes s[B] to an e-register of engine s[A] mod 16. -/
  | eputSr (d : BitVec 6) (a : BitVec 6) (b : BitVec 6)
  /-- EPUT_SI (R136): Writes an immediate to an e-register of engine s[A] mod 16. -/
  | eputSi (d : BitVec 6) (a : BitVec 6) (i : BitVec 12)
  /-- SHP_SR (R138): Writes a shape register in every active engine, checking its limits. -/
  | shpSr (e : BitVec 1) (d : BitVec 6) (a : BitVec 6)
  /-- SHP_K (R138): Sets the K field of a shape register. -/
  | shpK (e : BitVec 1) (d : BitVec 6) (k : BitVec 12)
  /-- ASET_SR (R137): Sets an address register to the sum of two registers. -/
  | asetSr (e : BitVec 1) (d : BitVec 6) (a : BitVec 6) (b : BitVec 6)
  /-- ASET_SI (R137): Sets an address register to a register plus an immediate. -/
  | asetSi (e : BitVec 1) (d : BitVec 6) (a : BitVec 6) (i : BitVec 12)
  /-- ASTR_SR (R137): Sets a stride register to the sum of two registers. -/
  | astrSr (e : BitVec 1) (d : BitVec 6) (a : BitVec 6) (b : BitVec 6)
  /-- ASTR_SI (R137): Sets a stride register to a register plus an immediate. -/
  | astrSi (e : BitVec 1) (d : BitVec 6) (a : BitVec 6) (i : BitVec 12)
  /-- ENGW_SR (R152): Writes a shadow register of a copy engine, walker or collective port. -/
  | engwSr (e : BitVec 1) (d : BitVec 6) (a : BitVec 6) (b : BitVec 6) (u : BitVec 6)
  /-- ENGW_SI (R152): Writes a shadow register with a 10-bit immediate offset. -/
  | engwSi (e : BitVec 1) (d : BitVec 6) (a : BitVec 6) (u : BitVec 2) (i : BitVec 10)
  /-- ENGGO_CP0 (R153): Queues a copy on CP0, consuming and producing batons. -/
  | enggoCp0 (p : BitVec 6) (x : BitVec 6) (y : BitVec 6) (z : BitVec 6)
  /-- ENGGO_CP1 (R153): Queues a copy on CP1. -/
  | enggoCp1 (p : BitVec 6) (x : BitVec 6) (y : BitVec 6) (z : BitVec 6)
  /-- ENGGO_IW (R153): Queues a walk on the index walkers of every active engine. -/
  | enggoIw (p : BitVec 6) (x : BitVec 6) (y : BitVec 6) (z : BitVec 6)
  /-- ENGGO_CL (R153): Queues a collective on the collective port. -/
  | enggoCl (p : BitVec 6) (x : BitVec 6) (y : BitVec 6) (z : BitVec 6)
  /-- BWAIT (R155): Waits for all or any of the batons in s[A], clearing them unless .keep. -/
  | bwait (d : BitVec 6) (a : BitVec 6) (k : BitVec 1) (n : BitVec 1)
  /-- WAIT (R156): Waits for any or all of the masked event bits, clearing them unless .keep. -/
  | wait (d : BitVec 6) (k : BitVec 1) (a : BitVec 1) (m : BitVec 4)
  /-- SIGNAL_SR (R158): Signals the squad positions set in s[A]. -/
  | signalSr (a : BitVec 6)
  /-- SIGNAL_SI (R158): Signals one squad position. -/
  | signalSi (p : BitVec 5)
  /-- LAPSET_SR (R159): Writes CR_LAPGATE from s[A] and clears the LAP event. -/
  | lapsetSr (a : BitVec 6)
  /-- LAPSET_SI (R159): Writes CR_LAPGATE to a range of engines and clears the LAP event. -/
  | lapsetSi (h : BitVec 4) (l : BitVec 4)
  /-- JMP (R141): Unconditional branch. -/
  | jmp (o : BitVec 20)
  /-- BZ (R141): Branches when s[A] is zero. -/
  | bz (a : BitVec 6) (o : BitVec 20)
  /-- BNZ (R141): Branches when s[A] is nonzero. -/
  | bnz (a : BitVec 6) (o : BitVec 20)
  /-- BLTZ (R141): Branches when s[A] is negative. -/
  | bltz (a : BitVec 6) (o : BitVec 20)
  /-- CALL (R142): Pushes a CALL entry and branches. -/
  | call (o : BitVec 20)
  /-- LOOP (R143): Runs a straight-line body a counted number of times from the loop buffer. -/
  | loop (a : BitVec 6) (o : BitVec 20)
  /-- BMZ (R141): Branches when e[A][31:0] is zero in every active engine. -/
  | bmz (a : BitVec 6) (o : BitVec 20)
  /-- GIF (R146): Pushes an IF entry and runs the engines whose predicate is set. -/
  | gif (a : BitVec 6) (o : BitVec 20)
  /-- GELSE (R146): Switches to the engines still to run the other path, or jumps to the join. -/
  | gelse (o : BitVec 20)
  /-- GSPLIT (R149): Splits the gang onto the spare sequencer, or serialises as an SSPLIT. -/
  | gsplit (a : BitVec 6) (o : BitVec 20)
  /-- BAR (R160): Arrives at a gang, die or package barrier. -/
  | bar (l : BitVec 6)
  /-- SYS_LAUNCH (R164): Checks and submits the descriptor at s[A] to launch queue s[B]. -/
  | sysLaunch (a : BitVec 6) (b : BitVec 6)
  /-- SYS_CANCEL (R164): Sends a cancel for the task handle in s[A]. -/
  | sysCancel (a : BitVec 6)
  /-- SYS_STKSPILL (R148): Moves eight stack entries to the s-file. -/
  | sysStkspill (d : BitVec 6)
  /-- SYS_STKFILL (R148): Moves eight entries from the s-file onto the stack. -/
  | sysStkfill (a : BitVec 6)
  /-- VADD (R202): Element-wise add. -/
  | vadd (f : VFields)
  /-- VSUB (R202): Element-wise subtract. -/
  | vsub (f : VFields)
  /-- VMUL (R202): Element-wise multiply. -/
  | vmul (f : VFields)
  /-- VFMA (R202): Fused multiply-add with the addend in A + 1. -/
  | vfma (f : VFields)
  /-- VFNMA (R202): Negated fused multiply-add. -/
  | vfnma (f : VFields)
  /-- VMIN (R205): Element-wise minimum. -/
  | vmin (f : VFields)
  /-- VMAX (R205): Element-wise maximum. -/
  | vmax (f : VFields)
  /-- VABS (R206): Absolute value. -/
  | vabs (f : VFields)
  /-- VNEG (R206): Negation. -/
  | vneg (f : VFields)
  /-- VAND (R210): Bitwise and. -/
  | vand (f : VFields)
  /-- VOR (R210): Bitwise or. -/
  | vor (f : VFields)
  /-- VXOR (R210): Bitwise xor. -/
  | vxor (f : VFields)
  /-- VSHL (R211): Shift left. -/
  | vshl (f : VFields)
  /-- VSHR (R211): Logical shift right. -/
  | vshr (f : VFields)
  /-- VSRA (R211): Arithmetic shift right. -/
  | vsra (f : VFields)
  /-- VCMP (R207): Compares elements into a mask in an e-register. -/
  | vcmp (f : VFields)
  /-- VSEL (R209): Selects per element by an e-register. -/
  | vsel (f : VFields)
  /-- VMOV (R214): Copies elements from any source. -/
  | vmov (f : VFields)
  /-- VXFER (R215): Copies from any register, directly or indirectly. -/
  | vxfer (f : VFields)
  /-- VCVT (R217): Converts a part of elements between types. -/
  | vcvt (f : VFields)
  /-- VDECB (R218): Decodes 4-bit codes through a codebook. -/
  | vdecb (f : VFields)
  /-- VENCB (R219): Encodes elements into nearest codebook codes. -/
  | vencb (f : VFields)
  /-- VCLASS (R208): Writes a class code per element. -/
  | vclass (f : VFields)
  /-- VRNG (R220): Draws Philox words per lane. -/
  | vrng (f : VFields)
  /-- VTOPKI (R222): Inserts one candidate per lane into a top-k list. -/
  | vtopki (f : VFields)
  /-- VIOTA (R213): Writes base plus index times step. -/
  | viota (f : VFields)
  /-- VMULH (R203): High half of integer products. -/
  | vmulh (f : VFields)
  /-- VADDS (R203): Saturating integer add or subtract. -/
  | vadds (f : VFields)
  /-- VDOT4 (R204): Four-term dot products per lane with an addend. -/
  | vdot4 (f : VFields)
  /-- VPOPC (R212): Population count per element. -/
  | vpopc (f : VFields)
  /-- VCLZ (R212): Leading zeros per element. -/
  | vclz (f : VFields)
  /-- VEXT (R216): Extracts one element into an e-register. -/
  | vext (f : VFields)
  /-- VINS (R216): Inserts an e-register value at one element. -/
  | vins (f : VFields)
  /-- VLADD (R290): Adds limb chains with carry and overflow. -/
  | vladd (f : VFields)
  /-- VLSUB (R290): Subtracts limb chains with borrow and overflow. -/
  | vlsub (f : VFields)
  /-- VLSHL (R290): Shifts limb chains left. -/
  | vlshl (f : VFields)
  /-- VLSHR (R290): Shifts limb chains right, logically or arithmetically. -/
  | vlshr (f : VFields)
  /-- VLCMP (R290): Compares limb chains into an e-register. -/
  | vlcmp (f : VFields)
  /-- VLMUL (R290): Multiplies limb chains by a word into D and D + 1. -/
  | vlmul (f : VFields)
  /-- BIND (R283): Sets the limb binding of the active engines. -/
  | bind (f : VFields)
  /-- RCP (R228): Reciprocal. -/
  | rcp (w : BitVec 2) (t : BitVec 2) (d : BitVec 5) (a : BitVec 5) (m : BitVec 3)
  /-- RSQ (R228): Reciprocal square root. -/
  | rsq (w : BitVec 2) (t : BitVec 2) (d : BitVec 5) (a : BitVec 5) (m : BitVec 3)
  /-- SQRT (R228): Square root, correctly rounded. -/
  | sqrt (w : BitVec 2) (t : BitVec 2) (d : BitVec 5) (a : BitVec 5) (m : BitVec 3)
  /-- EXP2 (R228): Power of two. -/
  | exp2 (w : BitVec 2) (t : BitVec 2) (d : BitVec 5) (a : BitVec 5) (m : BitVec 3)
  /-- LOG2 (R228): Base-2 logarithm. -/
  | log2 (w : BitVec 2) (t : BitVec 2) (d : BitVec 5) (a : BitVec 5) (m : BitVec 3)
  /-- TANH (R228): Hyperbolic tangent. -/
  | tanh (w : BitVec 2) (t : BitVec 2) (d : BitVec 5) (a : BitVec 5) (m : BitVec 3)
  /-- SINT (R228): Sine of 2 pi x. -/
  | sint (w : BitVec 2) (t : BitVec 2) (d : BitVec 5) (a : BitVec 5) (m : BitVec 3)
  /-- COST (R228): Cosine of 2 pi x. -/
  | cost (w : BitVec 2) (t : BitVec 2) (d : BitVec 5) (a : BitVec 5) (m : BitVec 3)
  /-- ERF (R228): Error function. -/
  | erf (w : BitVec 2) (t : BitVec 2) (d : BitVec 5) (a : BitVec 5) (m : BitVec 3)
  /-- RANK (R274): Ranks up to eight shared registers into a rank code. -/
  | rank (t : BitVec 2) (d : BitVec 5) (a : BitVec 5) (c : BitVec 2) (g : BitVec 2)
  /-- RANKV (R274): Ranks into a rank code with its value list. -/
  | rankv (t : BitVec 2) (d : BitVec 5) (a : BitVec 5) (c : BitVec 2) (g : BitVec 2)
  /-- RANKC (R275): Ranks interleaved columns separately into one list. -/
  | rankc (t : BitVec 2) (d : BitVec 5) (a : BitVec 5) (e : BitVec 2) (g : BitVec 2)
  /-- RMERGE (R276): Merges two ranked lists. -/
  | rmerge (t : BitVec 2) (d : BitVec 5) (a : BitVec 5) (c : BitVec 2)
  /-- UNRANK (R277): Rebuilds a dense vector from a rank code and an attenuation table. -/
  | unrank (t : BitVec 2) (d : BitVec 5) (a : BitVec 5) (n : BitVec 1) (s : BitVec 1) (g : BitVec 2)
  /-- LD (R180): Loads a block or per-lane elements into a load-data queue. -/
  | ld (r : BitVec 5) (m : BitVec 3) (s : BitVec 3) (q : BitVec 2) (i : BitVec 1)
  /-- LDG (R180): Gathers per-lane elements at offsets into a load-data queue. -/
  | ldg (r : BitVec 5) (v : BitVec 9) (m : BitVec 3) (s : BitVec 3) (q : BitVec 2) (i : BitVec 1)
  /-- ST (R180): Holds a block or per-lane store in the store queue. -/
  | st (r : BitVec 5) (v : BitVec 9) (m : BitVec 3) (s : BitVec 3) (i : BitVec 1)
  /-- STS (R180): Holds a scatter store at per-lane offsets. -/
  | sts (r : BitVec 5) (v : BitVec 9) (m : BitVec 3) (s : BitVec 3) (i : BitVec 1)
  /-- LDL (R180): Loads lane-private words. -/
  | ldl (r : BitVec 5) (m : BitVec 3) (q : BitVec 2) (i : BitVec 1)
  /-- STL (R180): Holds a lane-private store. -/
  | stl (r : BitVec 5) (v : BitVec 9) (m : BitVec 3) (i : BitVec 1)
  /-- ATOM (R185): Performs one atomic operation at the address. -/
  | atom (r : BitVec 5) (v : BitVec 9) (o : BitVec 4) (w : BitVec 1) (s : BitVec 3) (q : BitVec 3)
  /-- ATOMG (R185): Performs an atomic at each lane offset. -/
  | atomg (r : BitVec 5) (v : BitVec 9) (o : BitVec 4) (w : BitVec 1) (s : BitVec 3) (q : BitVec 3)
  /-- FENCE (R188): Acquire, release or both at a scope. -/
  | fence (k : BitVec 3) (s : BitVec 3)
  /-- AADD (R169): Adds a signed 21-bit immediate to an address register. -/
  | aadd (r : BitVec 5) (i : BitVec 21)
  /-- PREF (R190): Prefetches the lines of a block. -/
  | pref (r : BitVec 5) (s : BitVec 3) (h : BitVec 3) (i : BitVec 1)
  /-- SCOP_LD (R189): Sequentially consistent load of 8 B. -/
  | scopLd (r : BitVec 5) (q : BitVec 2) (i : BitVec 1)
  /-- SCOP_ST (R189): Sequentially consistent store of 8 B. -/
  | scopSt (r : BitVec 5) (v : BitVec 9) (i : BitVec 1)
  /-- SCOP_EXCH (R189): Sequentially consistent exchange. -/
  | scopExch (r : BitVec 5) (v : BitVec 9) (q : BitVec 2) (i : BitVec 1)
  /-- SCOP_CAS (R189): Sequentially consistent compare-and-swap. -/
  | scopCas (r : BitVec 5) (v : BitVec 9) (q : BitVec 2) (i : BitVec 1)
  /-- LAPADD (R191): Makes one counting update on a lap word. -/
  | lapadd (r : BitVec 5) (n : BitVec 21)
  /-- RPASS (R349): Passes a record into a relay ring. -/
  | rpass (r : BitVec 5) (v : BitVec 9) (s : BitVec 3) (q : BitVec 2)
  /-- RTAKE (R349): Takes a record from a relay ring, pushing status and record entries. -/
  | rtake (r : BitVec 5) (s : BitVec 3) (q : BitVec 2)
  /-- RTAKE_ARM (R352): Makes the gang the ring's watcher. -/
  | rtakeArm (r : BitVec 5)
  /-- RTAKE_STAT (R349): Returns the ring's HEAD, TAIL, COUNT, SLOTS and EXTPAGES. -/
  | rtakeStat (r : BitVec 5) (q : BitVec 2)
  /-- TXBEGIN (R299): Opens an optimistic transaction over the enabled lanes. -/
  | txbegin (m : BitVec 3)
  /-- TXBEGIN_SERIAL (R309): Opens a serial transaction with one member and requests the serial lock. -/
  | txbeginSerial (m : BitVec 3)
  /-- TXEND (R305): Closes the transaction and pushes its per-lane cause entry. -/
  | txend (q : BitVec 2)
  /-- TXABORT (R304): Dooms enabled member lanes with cause 4. -/
  | txabort (m : BitVec 3)
  /-- PCOMMIT (R366): Commits a sparse page from the pool at its owning walker. -/
  | pcommit (r : BitVec 5) (s : BitVec 1) (q : BitVec 2)
  /-- PRELEASE (R367): Releases a committed sparse page, invalidating every cache. -/
  | prelease (r : BitVec 5) (s : BitVec 1) (q : BitVec 2)
  /-- TLBINV (R369): Invalidates cached leaves over a range of pages. -/
  | tlbinv (r : BitVec 5) (v : BitVec 9) (s : BitVec 2) (q : BitVec 2)
  /-- TLBINV_ALL (R369): Invalidates every cached leaf of the ASID. -/
  | tlbinvAll (q : BitVec 2)
  /-- MMA (R256): Dense multiply-accumulate into a tile. -/
  | mma (c : BitVec 3) (l : BitVec 2) (h : BitVec 3) (r : BitVec 5) (a : BitVec 3) (b : BitVec 3) (i : BitVec 1) (t : BitVec 1) (k : BitVec 2)
  /-- MMAS (R258): Stencil-sparse multiply-accumulate. -/
  | mmas (c : BitVec 3) (l : BitVec 2) (h : BitVec 3) (r : BitVec 5) (a : BitVec 3) (b : BitVec 3) (i : BitVec 1) (t : BitVec 1)
  /-- MMAR (R259): Rank-coded multiply-accumulate. -/
  | mmar (c : BitVec 3) (l : BitVec 2) (h : BitVec 3) (r : BitVec 5) (b : BitVec 3) (i : BitVec 1) (t : BitVec 1) (n : BitVec 1)
  /-- LATLD (R251): Fills latches from the scratchpad. -/
  | latld (l : BitVec 2) (h : BitVec 3) (r : BitVec 5) (a : BitVec 3) (i : BitVec 1)
  /-- LATLD_RANK (R252): Expands rank codes into a rank map. -/
  | latldRank (l : BitVec 2) (h : BitVec 3) (r : BitVec 5) (i : BitVec 1) (n : BitVec 6)
  /-- TZERO (R260): Zeros a tile. -/
  | tzero (c : BitVec 3)
  /-- TLD (R260): Loads a tile from the scratchpad. -/
  | tld (c : BitVec 3) (h : BitVec 3) (r : BitVec 5)
  /-- TST (R260): Holds a tile store into the scratchpad. -/
  | tst (c : BitVec 3) (h : BitVec 3) (r : BitVec 5)
  /-- TADD (R260): Adds a tile into another. -/
  | tadd (c : BitVec 3) (h : BitVec 3) (s : BitVec 3)
  /-- TSCL (R260): Scales a tile by a column scale vector. -/
  | tscl (c : BitVec 3) (h : BitVec 3) (n : BitVec 2)
  /-- XPERM (R236): Scatters lanes by a pattern. -/
  | xperm (d : BitVec 5) (a : BitVec 5) (p : BitVec 2)
  /-- XSHFL (R236): Gathers lanes by a pattern. -/
  | xshfl (d : BitVec 5) (a : BitVec 5) (p : BitVec 2)
  /-- XRED (R237): Reduces a register's elements. -/
  | xred (d : BitVec 5) (a : BitVec 5) (p : BitVec 2)
  /-- XSCAN (R237): Prefix-reduces a register's elements. -/
  | xscan (d : BitVec 5) (a : BitVec 5) (p : BitVec 2)
  /-- GVSH (R239): Moves whole registers between engines. -/
  | gvsh (d : BitVec 5) (a : BitVec 5) (p : BitVec 2)
  /-- GVRED (R240): Reduces a register across the gang. -/
  | gvred (d : BitVec 5) (a : BitVec 5) (p : BitVec 2)
  /-- GSHUF (R241): Exchanges tiles between engines by XOR mask. -/
  | gshuf (d : BitVec 3) (s : BitVec 3) (m : BitVec 4)
  /-- GRED (R241): Sums tiles of the active engines into a root. -/
  | gred (d : BitVec 3) (s : BitVec 3) (q : BitVec 4)
  /-- GBCST (R241): Broadcasts a tile from one engine. -/
  | gbcst (d : BitVec 3) (s : BitVec 3) (n : BitVec 4)
  /-- CBLD (R263): Loads a codebook. -/
  | cbld (a : BitVec 5) (t : BitVec 3)
  /-- SCLD (R263): Loads half of a column scale vector. -/
  | scld (a : BitVec 5) (t : BitVec 3) (h : BitVec 1)
  /-- ATLD (R278): Loads a rank-attenuation table. -/
  | atld (a : BitVec 5) (t : BitVec 3)
  /-- XPLD (R234): Loads a pattern register. -/
  | xpld (a : BitVec 5) (t : BitVec 3)
  /-- STBS (R263): Sets the stencil base. -/
  | stbs (a : BitVec 5)
  /-- POWER_GOOD (R399): Power-good starts Primer, which brings up the hub, port 0, the hub space, the mailboxes and diagnostics on core 0 within 300 ms. -/
  | powerGood
  /-- POWER_GOOD_WITHDRAWN (R409): Withdrawal of power-good resets the package; the hub then stops keeping port 0 and the hub space. -/
  | powerGoodWithdrawn
  /-- THERMAL_TRIP (R409): A junction temperature of 115 °C logs a CONTLOG record, fails every task with code 0x33, and removes power from every die except the hub. -/
  | thermalTrip
  /-- PATROL_SCRUB (R405): Patrol scrubbing covers every SRAM every 100 ms and all LPDDR 5X every 24 h. -/
  | patrolScrub
  /-- UFP_WRITE (R396): A WRITE writes its payload at ADDR in ASID as one released store batch at system scope, then responds. -/
  | ufpWrite
  /-- UFP_READ (R396): A READ reads the bytes at the home slices, or in the hub space, and returns them in its response. -/
  | ufpRead
  /-- UFP_SEND (R396): A SEND delivers a message whole to mailbox 0 or 1, and its response carries the reply. -/
  | ufpSend
  /-- UFP_ATOMIC (R396): An ATOMIC is checked and then performed at the home slice as a system-scope atomic, returning the old value. -/
  | ufpAtomic
  /-- UFP_SUBMIT (R396): A SUBMIT enters the task descriptor at ADDR into host launch queue 0-31. -/
  | ufpSubmit
  /-- UFP_ACK_SEND (R395): The device sends an ACK within 2 µs of receiving a frame unless a response carries the acknowledgement sooner. -/
  | ufpAckSend
  /-- UFP_RETRANSMIT_TIMEOUT (R395): A SEQ unacknowledged 20 µs after its last transmission is retransmitted; after 16 transmissions the connection closes as lost, or connection 64 resets its numbering. -/
  | ufpRetransmitTimeout
  /-- FIRMWARE_COMMIT (R404): Mailbox 0 type 10 verifies hash, signature and SVN and makes the inactive slot active at the next reset. -/
  | firmwareCommit
  /-- GET_CERTIFICATE (R402): Mailbox 1 type 1 returns the device key certificate. -/
  | getCertificate
  /-- TASK_ACCEPT (R379): The scheduler serves an eligible queue head, checks the descriptor, and assigns a handle or rejects it. -/
  | taskAccept
  /-- TASK_READY (R383): When every valid edge is met and its regions cleaned, a QUEUED task becomes READY. -/
  | taskReady
  /-- SQUAD_PLACE (R387): The scheduler places the first candidate squad on qualifying cores, or requests pre-emption, or fails the task. -/
  | squadPlace
  /-- AGING_EXPIRY (R385): A task whose aging clock passes CR_AGE has its effective priority raised by 1, once. -/
  | agingExpiry
  /-- PREEMPTION_REQUEST (R389): The scheduler requests pre-emption of the youngest squad of the lowest eligible priority. -/
  | preemptionRequest
  /-- PREEMPT_STOP (R50): A gang reaching a qualifying restart point stops, releases, and writes its save with STATE 3. -/
  | preemptStop
  /-- SQUAD_RESUME (R50): A pre-empted squad is placed again at its positions, acquires at package scope and reissues its restart point. -/
  | squadResume
  /-- GANG_EXIT_COMPLETE (R162): An exiting gang completes once its batch is released, results landed and ENGGO batons set, reading STATE 4. -/
  | gangExitComplete
  /-- TASK_COMPLETE (R384): After the last squad's stores are written back and regions cleaned, the completion word is written with STATE 4. -/
  | taskComplete
  /-- AUTO_COMMIT (R374): Under auto-commit the resident agent commits the page of a SPARSE halt and resumes the gang. -/
  | autoCommit
  /-- BUNDLE_ISSUE (R80): The sequencer fetches the code word or literal at PC and issues its bundle, checking code word, literal encoding and dynamic conditions. -/
  | bundleIssue
  /-- BATCH_RELEASE (R39): A sealed batch, once translated and its TST entries complete, is handed to memory, or halts the gang on a release fault. -/
  | batchRelease
  /-- LOAD_ENTRY_RESOLVE (R173): A load-data or iq entry's data arrives or its fault becomes known, ending a queue wait. -/
  | loadEntryResolve
  /-- SCOP_PERFORM (R67): At its core's order-wheel tick a held SCOP is performed at the home slice. -/
  | scopPerform
  /-- TIMING_TRAP (R41): A queue wait of CR_WATCHDOG cycles, a late remote entry or an ECC delay discards the region and restarts at its restart point, halting on the fourth trap. -/
  | timingTrap
  /-- LONG_WAIT_HALT (R40): A queue wait reaching 16 x CR_WATCHDOG in an unrestartable region halts the gang with TIMING. -/
  | longWaitHalt
  /-- FAULT_HALT (R43): After in-flight results land, a faulting gang halts and its gang status block is written. -/
  | faultHalt
  /-- TIMER_EXPIRY (R132): CR_TIMER decrementing to 0 sets the TIMER event. -/
  | timerExpiry
  /-- BARRIER_OPEN (R32): When every member has arrived, the barrier opens and every member commits its BAR bundle as a fence. -/
  | barrierOpen
  /-- WAIT_WAKE (R156): A waiting WAIT sees its event bits and commits, clearing them unless .keep. -/
  | waitWake
  /-- BWAIT_WAKE (R155): A waiting BWAIT sees its batons and commits, clearing them unless .keep, or halts on a faulted baton. -/
  | bwaitWake
  /-- GMERGE_WAIT_END (R151): The waiting sub-gang's GMERGE commits when the other sub-gang arrives, ending the split. -/
  | gmergeWaitEnd
  /-- SIGNAL_DELIVERY (R158): 24, 60 or 140 cycles after a SIGNAL, the SIGNAL event of each named gang is set. -/
  | signalDelivery
  /-- ARRAY_OP_COMPLETE (R254): An array or tile-port operation completes its tile or latch and clears its busy bits. -/
  | arrayOpComplete
  /-- ENGINE_OP_START (R154): A queued copy, walker or collective operation starts once its predecessor completed and its batons are set, consuming them. -/
  | engineOpStart
  /-- COPY_CHUNK_LAND (R321): A copy chunk lands in every destination and makes its counting update on the lap word. -/
  | copyChunkLand
  /-- COPY_CHUNK_FAULT (R331): A chunk failing its checks stops the copy and faults its produced baton. -/
  | copyChunkFault
  /-- COPY_COMPLETE (R320): 1 cycle after the last chunk lands, the copy sets its produced baton. -/
  | copyComplete
  /-- WALKER_BATCH_PUSH (R328): A walker pushes a batch's coordinates into iq and its gather into load-address queue 1, or a fault entry. -/
  | walkerBatchPush
  /-- WALKER_COMPLETE (R330): When every started walker has pushed its last entry, the ENGGO.IW baton is set. -/
  | walkerComplete
  /-- COLLECTIVE_COMMIT (R341): With all contributions held, the instance commits and its results are computed. -/
  | collectiveCommit
  /-- COLLECTIVE_TIMEOUT (R342): A started member's TIMEOUT passing before commit fails the instance with cause 1. -/
  | collectiveTimeout
  /-- COLLECTIVE_MEMBER_COMPLETE (R341): Each member port writes CL_DST on DONE, writes its status record and sets its baton. -/
  | collectiveMemberComplete
  /-- RING_WATCH_EVENT (R352): 80 cycles after an arm finding records or a pass on a watched ring, the watcher's RING event is set. -/
  | ringWatchEvent
  /-- TX_COMMIT (R306): A performed TXEND locks the sectors, validates each lane by value in lane order, applies writes and gives causes. -/
  | txCommit
  /-- TX_ENTRY_RESOLVE (R307): The TXEND entry resolves, giving each lane its cause and updating CR_TXRETRY.COUNT. -/
  | txEntryResolve
  /-- SERIAL_LOCK_GRANT (R309): The hub grants the package serial lock to the next requesting gang once no commit holds locks. -/
  | serialLockGrant
  /-- SERIAL_LOCK_RELEASE (R310): The serial lock is released when no serial transaction is open and the member's stores are performed at package scope. -/
  | serialLockRelease
  /-- INVALIDATION_ACK (R368): A cache acknowledges an invalidation once its accesses through the removed entry have completed. -/
  | invalidationAck
  /-- FRAME_RETURN (R367): A released frame is zeroed at its home slices and returned to its pool. -/
  | frameReturn
  /-- SIGNAL_OTHERS (R158): Signals every squad position except the issuer's. -/
  | signalOthers
  /-- RET (R142): Pops a CALL entry, restoring the mask and returning. -/
  | ret
  /-- GJOIN (R146): Restores the full mask and pops the IF or ELSE entry. -/
  | gjoin
  /-- GMERGE (R151): Ends a serialised or real split, waiting for the other sub-gang. -/
  | gmerge
  /-- SYS_EXIT (R162): Seals the region's stores and ends the gang. -/
  | sysExit
  /-- SYS_BRK (R163): Commits its bundle and halts the gang with BREAK. -/
  | sysBrk
  /-- QSYNC (R187): Orders the engine's earlier accesses before its later ones. -/
  | qsync
  /-- HUB_FAILURE (R406): A failure of the hub die, which cannot be contained, stops the whole package. -/
  | hubFailure
  deriving DecidableEq, Repr

/-- The eleven slots of a bundle in program order (R81). -/
inductive Slot where
  | s0 | s1 | v0 | v1 | v2 | f | m0 | m1 | x | l | k
  deriving DecidableEq, Repr

/-- A decoded bundle (R81): its header fields and, for each slot, the instruction there (none: idle). -/
structure Bundle where
  rp : Bool
  rx : Bool
  rcnt : BitVec 6
  pv0 : BitVec 2
  pv1 : BitVec 2
  pv2 : BitVec 2
  pf : BitVec 2
  wown : BitVec 2
  s0 : Option Instr
  s1 : Option Instr
  v0 : Option Instr
  v1 : Option Instr
  v2 : Option Instr
  f : Option Instr
  m0 : Option Instr
  m1 : Option Instr
  x : Option Instr
  l : Option Instr
  k : Option Instr
  deriving DecidableEq, Repr

end Sys2Proof
end

