-- ==== Sys2Proof/Decode.lean ====
section
/-! DEFINITION. The decoder and the encoder: a slot word, a bundle and the 24 code words of a literal bundle (R75-R101).
Decoding here is syntactic, by opcode and by the bits a form fixes; the limits on field values and across slots are
WellFormed.lean's. -/
namespace Sys2Proof

/-- The field of len bits of a word that starts at bit lo. -/
abbrev fld {n : Nat} (w : BitVec n) (lo len : Nat) : BitVec len := w.extractLsb' lo len

/-- The instruction of a S slot word (R93), syntactically: the opcode map of R100 and the bits a form fixes. -/
def opcodeS (op : Nat) (w : BitVec 32) : Option Instr :=
  match op with
  | 0x01 => if fld w 24 1 = 0#1 ∧ fld w 0 6 = 0#6 then some (.addSr (fld w 25 1) (fld w 18 6) (fld w 12 6) (fld w 6 6))
      else if fld w 24 1 = 1#1 then some (.addSi (fld w 25 1) (fld w 18 6) (fld w 12 6) (fld w 0 12))
      else none
  | 0x02 => if fld w 24 1 = 0#1 ∧ fld w 0 6 = 0#6 then some (.subSr (fld w 25 1) (fld w 18 6) (fld w 12 6) (fld w 6 6))
      else if fld w 24 1 = 1#1 then some (.subSi (fld w 25 1) (fld w 18 6) (fld w 12 6) (fld w 0 12))
      else none
  | 0x03 => if fld w 24 1 = 0#1 ∧ fld w 0 6 = 0#6 then some (.mulSr (fld w 25 1) (fld w 18 6) (fld w 12 6) (fld w 6 6))
      else if fld w 24 1 = 1#1 then some (.mulSi (fld w 25 1) (fld w 18 6) (fld w 12 6) (fld w 0 12))
      else none
  | 0x04 => if fld w 24 1 = 0#1 ∧ fld w 1 5 = 0#5 then some (.mulhSr (fld w 25 1) (fld w 18 6) (fld w 12 6) (fld w 6 6) (fld w 0 1))
      else if fld w 24 1 = 1#1 then some (.mulhSi (fld w 25 1) (fld w 18 6) (fld w 12 6) (fld w 0 12))
      else none
  | 0x05 => if fld w 24 1 = 0#1 ∧ fld w 1 5 = 0#5 then some (.divSr (fld w 25 1) (fld w 18 6) (fld w 12 6) (fld w 6 6) (fld w 0 1))
      else if fld w 24 1 = 1#1 then some (.divSi (fld w 25 1) (fld w 18 6) (fld w 12 6) (fld w 0 12))
      else none
  | 0x06 => if fld w 24 1 = 0#1 ∧ fld w 1 5 = 0#5 then some (.remSr (fld w 25 1) (fld w 18 6) (fld w 12 6) (fld w 6 6) (fld w 0 1))
      else if fld w 24 1 = 1#1 then some (.remSi (fld w 25 1) (fld w 18 6) (fld w 12 6) (fld w 0 12))
      else none
  | 0x07 => if fld w 24 1 = 0#1 ∧ fld w 0 6 = 0#6 then some (.andSr (fld w 25 1) (fld w 18 6) (fld w 12 6) (fld w 6 6))
      else if fld w 24 1 = 1#1 then some (.andSi (fld w 25 1) (fld w 18 6) (fld w 12 6) (fld w 0 12))
      else none
  | 0x08 => if fld w 24 1 = 0#1 ∧ fld w 0 6 = 0#6 then some (.orSr (fld w 25 1) (fld w 18 6) (fld w 12 6) (fld w 6 6))
      else if fld w 24 1 = 1#1 then some (.orSi (fld w 25 1) (fld w 18 6) (fld w 12 6) (fld w 0 12))
      else none
  | 0x09 => if fld w 24 1 = 0#1 ∧ fld w 0 6 = 0#6 then some (.xorSr (fld w 25 1) (fld w 18 6) (fld w 12 6) (fld w 6 6))
      else if fld w 24 1 = 1#1 then some (.xorSi (fld w 25 1) (fld w 18 6) (fld w 12 6) (fld w 0 12))
      else none
  | 0x0A => if fld w 24 1 = 0#1 ∧ fld w 0 6 = 0#6 then some (.andnSr (fld w 25 1) (fld w 18 6) (fld w 12 6) (fld w 6 6))
      else if fld w 24 1 = 1#1 then some (.andnSi (fld w 25 1) (fld w 18 6) (fld w 12 6) (fld w 0 12))
      else none
  | 0x0B => if fld w 24 1 = 0#1 ∧ fld w 0 6 = 0#6 then some (.shlSr (fld w 25 1) (fld w 18 6) (fld w 12 6) (fld w 6 6))
      else if fld w 24 1 = 1#1 then some (.shlSi (fld w 25 1) (fld w 18 6) (fld w 12 6) (fld w 0 12))
      else none
  | 0x0C => if fld w 24 1 = 0#1 ∧ fld w 0 6 = 0#6 then some (.shrSr (fld w 25 1) (fld w 18 6) (fld w 12 6) (fld w 6 6))
      else if fld w 24 1 = 1#1 then some (.shrSi (fld w 25 1) (fld w 18 6) (fld w 12 6) (fld w 0 12))
      else none
  | 0x0D => if fld w 24 1 = 0#1 ∧ fld w 0 6 = 0#6 then some (.sraSr (fld w 25 1) (fld w 18 6) (fld w 12 6) (fld w 6 6))
      else if fld w 24 1 = 1#1 then some (.sraSi (fld w 25 1) (fld w 18 6) (fld w 12 6) (fld w 0 12))
      else none
  | 0x0E => if fld w 24 1 = 0#1 ∧ fld w 0 6 = 0#6 then some (.rolSr (fld w 25 1) (fld w 18 6) (fld w 12 6) (fld w 6 6))
      else if fld w 24 1 = 1#1 then some (.rolSi (fld w 25 1) (fld w 18 6) (fld w 12 6) (fld w 0 12))
      else none
  | 0x0F => if fld w 24 1 = 0#1 then some (.cmpSr (fld w 25 1) (fld w 18 6) (fld w 12 6) (fld w 6 6) (fld w 0 6))
      else if fld w 24 1 = 1#1 then some (.cmpSi (fld w 25 1) (fld w 18 6) (fld w 12 6) (fld w 9 3) (fld w 0 9))
      else none
  | 0x10 => if fld w 24 1 = 0#1 ∧ fld w 1 5 = 0#5 then some (.minSr (fld w 25 1) (fld w 18 6) (fld w 12 6) (fld w 6 6) (fld w 0 1))
      else if fld w 24 1 = 1#1 then some (.minSi (fld w 25 1) (fld w 18 6) (fld w 12 6) (fld w 0 12))
      else none
  | 0x11 => if fld w 24 1 = 0#1 ∧ fld w 1 5 = 0#5 then some (.maxSr (fld w 25 1) (fld w 18 6) (fld w 12 6) (fld w 6 6) (fld w 0 1))
      else if fld w 24 1 = 1#1 then some (.maxSi (fld w 25 1) (fld w 18 6) (fld w 12 6) (fld w 0 12))
      else none
  | 0x12 => if fld w 24 1 = 0#1 then some (.sel (fld w 25 1) (fld w 18 6) (fld w 12 6) (fld w 6 6) (fld w 0 6))
      else none
  | 0x13 => if fld w 24 1 = 0#1 ∧ fld w 0 12 = 0#12 then some (.bitcClz (fld w 25 1) (fld w 18 6) (fld w 12 6))
      else if fld w 24 1 = 0#1 ∧ fld w 0 12 = 1#12 then some (.bitcCtz (fld w 25 1) (fld w 18 6) (fld w 12 6))
      else if fld w 24 1 = 0#1 ∧ fld w 0 12 = 2#12 then some (.bitcPopc (fld w 25 1) (fld w 18 6) (fld w 12 6))
      else if fld w 24 1 = 0#1 ∧ fld w 0 12 = 3#12 then some (.bitcBrev (fld w 25 1) (fld w 18 6) (fld w 12 6))
      else none
  | 0x14 => if fld w 24 1 = 0#1 ∧ fld w 1 5 = 0#5 then some (.extSr (fld w 25 1) (fld w 18 6) (fld w 12 6) (fld w 6 6) (fld w 0 1))
      else if fld w 24 1 = 1#1 then some (.extSi (fld w 25 1) (fld w 18 6) (fld w 12 6) (fld w 6 6) (fld w 0 6))
      else none
  | 0x15 => if fld w 24 1 = 0#1 then some (.li (fld w 25 1) (fld w 18 6) (fld w 0 18))
      else none
  | 0x16 => if fld w 24 1 = 0#1 then some (.lis (fld w 25 1) (fld w 18 6) (fld w 0 18))
      else none
  | 0x17 => if fld w 24 1 = 1#1 ∧ fld w 12 6 = 0#6 then some (.movc (fld w 25 1) (fld w 18 6) (fld w 0 12))
      else none
  | 0x18 => if fld w 18 7 = 64#7 then some (.movtc (fld w 25 1) (fld w 12 6) (fld w 0 12))
      else none
  | 0x19 => if fld w 24 2 = 2#2 ∧ fld w 0 12 = 0#12 then some (.gpredSet (fld w 18 6) (fld w 12 6))
      else if fld w 24 2 = 0#2 ∧ fld w 0 6 = 1#6 then some (.gpredAnd (fld w 18 6) (fld w 12 6) (fld w 6 6))
      else if fld w 24 2 = 0#2 ∧ fld w 0 6 = 2#6 then some (.gpredOr (fld w 18 6) (fld w 12 6) (fld w 6 6))
      else if fld w 24 2 = 0#2 ∧ fld w 0 6 = 3#6 then some (.gpredAndn (fld w 18 6) (fld w 12 6) (fld w 6 6))
      else if fld w 24 2 = 0#2 ∧ fld w 0 6 = 4#6 then some (.gpredXor (fld w 18 6) (fld w 12 6) (fld w 6 6))
      else if fld w 24 2 = 0#2 ∧ fld w 0 12 = 5#12 then some (.gpredNot (fld w 18 6) (fld w 12 6))
      else if fld w 24 2 = 0#2 ∧ fld w 0 12 = 6#12 then some (.gpredFroms (fld w 18 6) (fld w 12 6))
      else if fld w 24 2 = 1#2 ∧ fld w 8 4 = 0#4 then some (.gpredRange (fld w 18 6) (fld w 12 6) (fld w 4 4) (fld w 0 4))
      else none
  | 0x1A => if fld w 24 2 = 0#2 ∧ fld w 0 12 = 0#12 then some (.gqryMask (fld w 18 6) (fld w 12 6))
      else if fld w 24 2 = 2#2 ∧ fld w 0 12 = 0#12 then some (.gqryMaskE (fld w 18 6) (fld w 12 6))
      else if fld w 24 2 = 0#2 ∧ fld w 0 12 = 1#12 then some (.gqryCount (fld w 18 6) (fld w 12 6))
      else if fld w 24 2 = 0#2 ∧ fld w 0 12 = 2#12 then some (.gqryAny (fld w 18 6) (fld w 12 6))
      else if fld w 24 2 = 0#2 ∧ fld w 0 12 = 3#12 then some (.gqryAll (fld w 18 6) (fld w 12 6))
      else if fld w 24 2 = 0#2 ∧ fld w 0 12 = 4#12 then some (.gqryFirst (fld w 18 6) (fld w 12 6))
      else if fld w 24 2 = 0#2 ∧ fld w 0 18 = 5#18 then some (.gqryAct (fld w 18 6))
      else if fld w 24 2 = 1#2 ∧ fld w 4 8 = 0#8 then some (.gqryBit (fld w 18 6) (fld w 12 6) (fld w 0 4))
      else none
  | 0x1B => if fld w 24 2 = 0#2 ∧ fld w 0 6 = 0#6 then some (.egetSr (fld w 18 6) (fld w 12 6) (fld w 6 6))
      else if fld w 24 2 = 1#2 ∧ fld w 8 10 = 0#10 then some (.egetSi (fld w 18 6) (fld w 4 4) (fld w 0 4))
      else none
  | 0x1C => if fld w 24 2 = 0#2 ∧ fld w 0 6 = 0#6 then some (.eputSr (fld w 18 6) (fld w 12 6) (fld w 6 6))
      else if fld w 24 2 = 1#2 then some (.eputSi (fld w 18 6) (fld w 12 6) (fld w 0 12))
      else none
  | 0x1D => if fld w 24 1 = 0#1 ∧ fld w 0 12 = 0#12 then some (.shpSr (fld w 25 1) (fld w 18 6) (fld w 12 6))
      else if fld w 24 1 = 1#1 ∧ fld w 12 6 = 0#6 then some (.shpK (fld w 25 1) (fld w 18 6) (fld w 0 12))
      else none
  | 0x1E => if fld w 24 1 = 0#1 ∧ fld w 0 6 = 0#6 then some (.asetSr (fld w 25 1) (fld w 18 6) (fld w 12 6) (fld w 6 6))
      else if fld w 24 1 = 1#1 then some (.asetSi (fld w 25 1) (fld w 18 6) (fld w 12 6) (fld w 0 12))
      else none
  | 0x1F => if fld w 24 1 = 0#1 ∧ fld w 0 6 = 0#6 then some (.astrSr (fld w 25 1) (fld w 18 6) (fld w 12 6) (fld w 6 6))
      else if fld w 24 1 = 1#1 then some (.astrSi (fld w 25 1) (fld w 18 6) (fld w 12 6) (fld w 0 12))
      else none
  | 0x20 => if fld w 24 1 = 0#1 then some (.engwSr (fld w 25 1) (fld w 18 6) (fld w 12 6) (fld w 6 6) (fld w 0 6))
      else if fld w 24 1 = 1#1 then some (.engwSi (fld w 25 1) (fld w 18 6) (fld w 12 6) (fld w 10 2) (fld w 0 10))
      else none
  | 0x21 => if fld w 24 2 = 0#2 then some (.enggoCp0 (fld w 18 6) (fld w 12 6) (fld w 6 6) (fld w 0 6))
      else none
  | 0x22 => if fld w 24 2 = 0#2 then some (.enggoCp1 (fld w 18 6) (fld w 12 6) (fld w 6 6) (fld w 0 6))
      else none
  | 0x23 => if fld w 24 2 = 0#2 then some (.enggoIw (fld w 18 6) (fld w 12 6) (fld w 6 6) (fld w 0 6))
      else none
  | 0x24 => if fld w 24 2 = 0#2 then some (.enggoCl (fld w 18 6) (fld w 12 6) (fld w 6 6) (fld w 0 6))
      else none
  | 0x25 => if fld w 24 2 = 0#2 ∧ fld w 2 10 = 0#10 then some (.bwait (fld w 18 6) (fld w 12 6) (fld w 1 1) (fld w 0 1))
      else none
  | 0x26 => if fld w 24 2 = 1#2 ∧ fld w 6 12 = 0#12 then some (.wait (fld w 18 6) (fld w 5 1) (fld w 4 1) (fld w 0 4))
      else none
  | 0x27 => if fld w 18 8 = 0#8 ∧ fld w 0 12 = 0#12 then some (.signalSr (fld w 12 6))
      else if fld w 5 21 = 524288#21 then some (.signalSi (fld w 0 5))
      else if fld w 0 26 = 16777248#26 then some (.signalOthers)
      else none
  | 0x28 => if fld w 18 8 = 0#8 ∧ fld w 0 12 = 0#12 then some (.lapsetSr (fld w 12 6))
      else if fld w 8 18 = 65536#18 then some (.lapsetSi (fld w 4 4) (fld w 0 4))
      else none
  | 0x30 => if fld w 20 6 = 0#6 then some (.jmp (fld w 0 20))
      else none
  | 0x31 => some (.bz (fld w 20 6) (fld w 0 20))
  | 0x32 => some (.bnz (fld w 20 6) (fld w 0 20))
  | 0x33 => some (.bltz (fld w 20 6) (fld w 0 20))
  | 0x34 => if fld w 20 6 = 0#6 then some (.call (fld w 0 20))
      else none
  | 0x35 => if fld w 0 26 = 0#26 then some (.ret)
      else none
  | 0x36 => some (.loop (fld w 20 6) (fld w 0 20))
  | 0x37 => some (.bmz (fld w 20 6) (fld w 0 20))
  | 0x38 => some (.gif (fld w 20 6) (fld w 0 20))
  | 0x39 => if fld w 20 6 = 0#6 then some (.gelse (fld w 0 20))
      else none
  | 0x3A => if fld w 0 26 = 0#26 then some (.gjoin)
      else none
  | 0x3B => some (.gsplit (fld w 20 6) (fld w 0 20))
  | 0x3C => if fld w 0 26 = 0#26 then some (.gmerge)
      else none
  | 0x3D => if fld w 6 20 = 0#20 then some (.bar (fld w 0 6))
      else none
  | 0x3E => if fld w 0 26 = 0#26 then some (.sysExit)
      else if fld w 0 26 = 1#26 then some (.sysBrk)
      else if fld w 18 8 = 0#8 ∧ fld w 0 6 = 2#6 then some (.sysLaunch (fld w 12 6) (fld w 6 6))
      else if fld w 18 8 = 0#8 ∧ fld w 0 12 = 3#12 then some (.sysCancel (fld w 12 6))
      else if fld w 24 2 = 0#2 ∧ fld w 0 18 = 4#18 then some (.sysStkspill (fld w 18 6))
      else if fld w 18 8 = 0#8 ∧ fld w 0 12 = 5#12 then some (.sysStkfill (fld w 12 6))
      else none
  | _ => none

/-- The instruction that a S slot word names: its opcode, then the form. -/
def decodeS (w : BitVec 32) : Option Instr := opcodeS (fld w 26 6).toNat w

/-- The instruction of a F slot word (R95), syntactically: the opcode map of R100 and the bits a form fixes. -/
def opcodeF (op : Nat) (w : BitVec 24) : Option Instr :=
  match op with
  | 0x01 => if fld w 3 1 = 0#1 then some (.rcp (fld w 16 2) (fld w 14 2) (fld w 9 5) (fld w 4 5) (fld w 0 3))
      else none
  | 0x02 => if fld w 3 1 = 0#1 then some (.rsq (fld w 16 2) (fld w 14 2) (fld w 9 5) (fld w 4 5) (fld w 0 3))
      else none
  | 0x03 => if fld w 3 1 = 0#1 then some (.sqrt (fld w 16 2) (fld w 14 2) (fld w 9 5) (fld w 4 5) (fld w 0 3))
      else none
  | 0x04 => if fld w 3 1 = 0#1 then some (.exp2 (fld w 16 2) (fld w 14 2) (fld w 9 5) (fld w 4 5) (fld w 0 3))
      else none
  | 0x05 => if fld w 3 1 = 0#1 then some (.log2 (fld w 16 2) (fld w 14 2) (fld w 9 5) (fld w 4 5) (fld w 0 3))
      else none
  | 0x06 => if fld w 3 1 = 0#1 then some (.tanh (fld w 16 2) (fld w 14 2) (fld w 9 5) (fld w 4 5) (fld w 0 3))
      else none
  | 0x07 => if fld w 3 1 = 0#1 then some (.sint (fld w 16 2) (fld w 14 2) (fld w 9 5) (fld w 4 5) (fld w 0 3))
      else none
  | 0x08 => if fld w 3 1 = 0#1 then some (.cost (fld w 16 2) (fld w 14 2) (fld w 9 5) (fld w 4 5) (fld w 0 3))
      else none
  | 0x09 => if fld w 3 1 = 0#1 then some (.erf (fld w 16 2) (fld w 14 2) (fld w 9 5) (fld w 4 5) (fld w 0 3))
      else none
  | 0x10 => if fld w 16 2 = 3#2 then some (.rank (fld w 14 2) (fld w 9 5) (fld w 4 5) (fld w 2 2) (fld w 0 2))
      else none
  | 0x11 => if fld w 16 2 = 3#2 then some (.rankv (fld w 14 2) (fld w 9 5) (fld w 4 5) (fld w 2 2) (fld w 0 2))
      else none
  | 0x12 => if fld w 16 2 = 3#2 then some (.rankc (fld w 14 2) (fld w 9 5) (fld w 4 5) (fld w 2 2) (fld w 0 2))
      else none
  | 0x13 => if fld w 16 2 = 3#2 ∧ fld w 0 2 = 0#2 then some (.rmerge (fld w 14 2) (fld w 9 5) (fld w 4 5) (fld w 2 2))
      else none
  | 0x14 => if fld w 16 2 = 3#2 then some (.unrank (fld w 14 2) (fld w 9 5) (fld w 4 5) (fld w 3 1) (fld w 2 1) (fld w 0 2))
      else none
  | _ => none

/-- The instruction that a F slot word names: its opcode, then the form. -/
def decodeF (w : BitVec 24) : Option Instr := opcodeF (fld w 18 6).toNat w

/-- The instruction of a M slot word (R96), syntactically: the opcode map of R100 and the bits a form fixes. -/
def opcodeM (op : Nat) (w : BitVec 32) : Option Instr :=
  match op with
  | 0x01 => if fld w 12 9 = 0#9 ∧ fld w 3 3 = 0#3 then some (.ld (fld w 21 5) (fld w 9 3) (fld w 6 3) (fld w 1 2) (fld w 0 1))
      else none
  | 0x02 => if fld w 3 3 = 0#3 then some (.ldg (fld w 21 5) (fld w 12 9) (fld w 9 3) (fld w 6 3) (fld w 1 2) (fld w 0 1))
      else none
  | 0x03 => if fld w 1 5 = 2#5 then some (.st (fld w 21 5) (fld w 12 9) (fld w 9 3) (fld w 6 3) (fld w 0 1))
      else none
  | 0x04 => if fld w 1 5 = 2#5 then some (.sts (fld w 21 5) (fld w 12 9) (fld w 9 3) (fld w 6 3) (fld w 0 1))
      else none
  | 0x05 => if fld w 12 9 = 0#9 ∧ fld w 3 6 = 40#6 then some (.ldl (fld w 21 5) (fld w 9 3) (fld w 1 2) (fld w 0 1))
      else none
  | 0x06 => if fld w 1 8 = 162#8 then some (.stl (fld w 21 5) (fld w 12 9) (fld w 9 3) (fld w 0 1))
      else none
  | 0x07 => if fld w 0 1 = 0#1 then some (.atom (fld w 21 5) (fld w 12 9) (fld w 8 4) (fld w 7 1) (fld w 4 3) (fld w 1 3))
      else none
  | 0x08 => if fld w 0 1 = 0#1 then some (.atomg (fld w 21 5) (fld w 12 9) (fld w 8 4) (fld w 7 1) (fld w 4 3) (fld w 1 3))
      else none
  | 0x09 => if fld w 0 26 = 4#26 then some (.qsync)
      else none
  | 0x0A => if fld w 9 17 = 0#17 ∧ fld w 0 3 = 4#3 then some (.fence (fld w 6 3) (fld w 3 3))
      else none
  | 0x0B => some (.aadd (fld w 21 5) (fld w 0 21))
  | 0x0C => if fld w 9 12 = 0#12 ∧ fld w 1 2 = 2#2 then some (.pref (fld w 21 5) (fld w 6 3) (fld w 3 3) (fld w 0 1))
      else none
  | 0x0D => if fld w 3 18 = 0#18 then some (.scopLd (fld w 21 5) (fld w 1 2) (fld w 0 1))
      else if fld w 1 11 = 6#11 then some (.scopSt (fld w 21 5) (fld w 12 9) (fld w 0 1))
      else if fld w 3 9 = 2#9 then some (.scopExch (fld w 21 5) (fld w 12 9) (fld w 1 2) (fld w 0 1))
      else if fld w 3 9 = 3#9 then some (.scopCas (fld w 21 5) (fld w 12 9) (fld w 1 2) (fld w 0 1))
      else none
  | 0x0E => some (.lapadd (fld w 21 5) (fld w 0 21))
  | 0x0F => if fld w 9 3 = 0#3 ∧ fld w 3 3 = 0#3 ∧ fld w 0 1 = 0#1 then some (.rpass (fld w 21 5) (fld w 12 9) (fld w 6 3) (fld w 1 2))
      else none
  | 0x10 => if fld w 9 12 = 0#12 ∧ fld w 3 3 = 0#3 ∧ fld w 0 1 = 0#1 then some (.rtake (fld w 21 5) (fld w 6 3) (fld w 1 2))
      else if fld w 0 21 = 12#21 then some (.rtakeArm (fld w 21 5))
      else if fld w 3 18 = 2#18 ∧ fld w 0 1 = 0#1 then some (.rtakeStat (fld w 21 5) (fld w 1 2))
      else none
  | 0x11 => if fld w 12 14 = 0#14 ∧ fld w 0 9 = 4#9 then some (.txbegin (fld w 9 3))
      else if fld w 12 14 = 0#14 ∧ fld w 0 9 = 12#9 then some (.txbeginSerial (fld w 9 3))
      else none
  | 0x12 => if fld w 3 23 = 0#23 ∧ fld w 0 1 = 0#1 then some (.txend (fld w 1 2))
      else none
  | 0x13 => if fld w 3 23 = 0#23 then some (.txabort (fld w 0 3))
      else none
  | 0x14 => if fld w 4 17 = 0#17 ∧ fld w 0 1 = 0#1 then some (.pcommit (fld w 21 5) (fld w 3 1) (fld w 1 2))
      else none
  | 0x15 => if fld w 4 17 = 0#17 ∧ fld w 0 1 = 0#1 then some (.prelease (fld w 21 5) (fld w 3 1) (fld w 1 2))
      else none
  | 0x16 => if fld w 5 7 = 0#7 ∧ fld w 3 2 ≠ 3#2 ∧ fld w 0 1 = 0#1 then some (.tlbinv (fld w 21 5) (fld w 12 9) (fld w 3 2) (fld w 1 2))
      else if fld w 3 23 = 3#23 ∧ fld w 0 1 = 0#1 then some (.tlbinvAll (fld w 1 2))
      else none
  | _ => none

/-- The instruction that a M slot word names: its opcode, then the form. -/
def decodeM (w : BitVec 32) : Option Instr := opcodeM (fld w 26 6).toNat w

/-- The instruction of a X slot word (R97), syntactically: the opcode map of R100 and the bits a form fixes. -/
def opcodeX (op : Nat) (w : BitVec 32) : Option Instr :=
  match op with
  | 0x01 => if fld w 2 3 = 0#3 then some (.mma (fld w 23 3) (fld w 21 2) (fld w 18 3) (fld w 13 5) (fld w 10 3) (fld w 7 3) (fld w 6 1) (fld w 5 1) (fld w 0 2))
      else none
  | 0x02 => if fld w 0 5 = 0#5 then some (.mmas (fld w 23 3) (fld w 21 2) (fld w 18 3) (fld w 13 5) (fld w 10 3) (fld w 7 3) (fld w 6 1) (fld w 5 1))
      else none
  | 0x03 => if fld w 10 3 = 0#3 ∧ fld w 1 4 = 0#4 then some (.mmar (fld w 23 3) (fld w 21 2) (fld w 18 3) (fld w 13 5) (fld w 7 3) (fld w 6 1) (fld w 5 1) (fld w 0 1))
      else none
  | 0x04 => if fld w 23 3 = 0#3 ∧ fld w 7 3 = 0#3 ∧ fld w 0 6 = 0#6 then some (.latld (fld w 21 2) (fld w 18 3) (fld w 13 5) (fld w 10 3) (fld w 6 1))
      else if fld w 23 3 = 1#3 ∧ fld w 7 6 = 0#6 then some (.latldRank (fld w 21 2) (fld w 18 3) (fld w 13 5) (fld w 6 1) (fld w 0 6))
      else none
  | 0x05 => if fld w 0 23 = 0#23 then some (.tzero (fld w 23 3))
      else none
  | 0x06 => if fld w 21 2 = 0#2 ∧ fld w 0 13 = 0#13 then some (.tld (fld w 23 3) (fld w 18 3) (fld w 13 5))
      else none
  | 0x07 => if fld w 21 2 = 0#2 ∧ fld w 0 13 = 0#13 then some (.tst (fld w 23 3) (fld w 18 3) (fld w 13 5))
      else none
  | 0x08 => if fld w 21 2 = 0#2 ∧ fld w 3 15 = 0#15 then some (.tadd (fld w 23 3) (fld w 18 3) (fld w 0 3))
      else none
  | 0x09 => if fld w 21 2 = 0#2 ∧ fld w 2 16 = 0#16 then some (.tscl (fld w 23 3) (fld w 18 3) (fld w 0 2))
      else none
  | _ => none

/-- The instruction that a X slot word names: its opcode, then the form. -/
def decodeX (w : BitVec 32) : Option Instr := opcodeX (fld w 26 6).toNat w

/-- The instruction of a L slot word (R98), syntactically: the opcode map of R100 and the bits a form fixes. -/
def opcodeL (op : Nat) (w : BitVec 16) : Option Instr :=
  match op with
  | 0x01 => some (.xperm (fld w 7 5) (fld w 2 5) (fld w 0 2))
  | 0x02 => some (.xshfl (fld w 7 5) (fld w 2 5) (fld w 0 2))
  | 0x03 => some (.xred (fld w 7 5) (fld w 2 5) (fld w 0 2))
  | 0x04 => some (.xscan (fld w 7 5) (fld w 2 5) (fld w 0 2))
  | 0x05 => some (.gvsh (fld w 7 5) (fld w 2 5) (fld w 0 2))
  | 0x06 => some (.gvred (fld w 7 5) (fld w 2 5) (fld w 0 2))
  | 0x07 => if fld w 0 2 = 0#2 then some (.gshuf (fld w 9 3) (fld w 6 3) (fld w 2 4))
      else none
  | 0x08 => if fld w 0 2 = 0#2 then some (.gred (fld w 9 3) (fld w 6 3) (fld w 2 4))
      else none
  | 0x09 => if fld w 0 2 = 0#2 then some (.gbcst (fld w 9 3) (fld w 6 3) (fld w 2 4))
      else none
  | _ => none

/-- The instruction that a L slot word names: its opcode, then the form. -/
def decodeL (w : BitVec 16) : Option Instr := opcodeL (fld w 12 4).toNat w

/-- The instruction of a K slot word (R99), syntactically: the opcode map of R100 and the bits a form fixes. -/
def opcodeK (op : Nat) (w : BitVec 16) : Option Instr :=
  match op with
  | 0x01 => if fld w 0 4 = 0#4 then some (.cbld (fld w 7 5) (fld w 4 3))
      else none
  | 0x02 => if fld w 1 3 = 0#3 then some (.scld (fld w 7 5) (fld w 4 3) (fld w 0 1))
      else none
  | 0x03 => if fld w 0 4 = 0#4 then some (.atld (fld w 7 5) (fld w 4 3))
      else none
  | 0x04 => if fld w 0 4 = 0#4 then some (.xpld (fld w 7 5) (fld w 4 3))
      else none
  | 0x05 => if fld w 0 7 = 0#7 then some (.stbs (fld w 7 5))
      else none
  | _ => none

/-- The instruction that a K slot word names: its opcode, then the form. -/
def decodeK (w : BitVec 16) : Option Instr := opcodeK (fld w 12 4).toNat w

/-- The fields of a V slot word (R94). -/
def vFields (w : BitVec 48) : VFields where
  w := fld w 46 2
  t := fld w 37 3
  rm := fld w 34 3
  d := fld w 25 9
  a := fld w 16 9
  b := fld w 7 9
  m := fld w 4 3
  c := fld w 0 4

/-- The instruction of a V slot word (R94, R100). -/
def opcodeV (op : Nat) (w : BitVec 48) : Option Instr :=
  match op with
  | 0x01 => some (.vadd (vFields w))
  | 0x02 => some (.vsub (vFields w))
  | 0x03 => some (.vmul (vFields w))
  | 0x04 => some (.vfma (vFields w))
  | 0x05 => some (.vfnma (vFields w))
  | 0x06 => some (.vmin (vFields w))
  | 0x07 => some (.vmax (vFields w))
  | 0x08 => some (.vabs (vFields w))
  | 0x09 => some (.vneg (vFields w))
  | 0x0A => some (.vand (vFields w))
  | 0x0B => some (.vor (vFields w))
  | 0x0C => some (.vxor (vFields w))
  | 0x0D => some (.vshl (vFields w))
  | 0x0E => some (.vshr (vFields w))
  | 0x0F => some (.vsra (vFields w))
  | 0x10 => some (.vcmp (vFields w))
  | 0x11 => some (.vsel (vFields w))
  | 0x12 => some (.vmov (vFields w))
  | 0x13 => some (.vxfer (vFields w))
  | 0x14 => some (.vcvt (vFields w))
  | 0x15 => some (.vdecb (vFields w))
  | 0x16 => some (.vencb (vFields w))
  | 0x17 => some (.vclass (vFields w))
  | 0x18 => some (.vrng (vFields w))
  | 0x19 => some (.vtopki (vFields w))
  | 0x1A => some (.viota (vFields w))
  | 0x1B => some (.vmulh (vFields w))
  | 0x1C => some (.vadds (vFields w))
  | 0x1D => some (.vdot4 (vFields w))
  | 0x1E => some (.vpopc (vFields w))
  | 0x1F => some (.vclz (vFields w))
  | 0x20 => some (.vext (vFields w))
  | 0x21 => some (.vins (vFields w))
  | 0x28 => some (.vladd (vFields w))
  | 0x29 => some (.vlsub (vFields w))
  | 0x2A => some (.vlshl (vFields w))
  | 0x2B => some (.vlshr (vFields w))
  | 0x2C => some (.vlcmp (vFields w))
  | 0x2D => some (.vlmul (vFields w))
  | 0x2E => some (.bind (vFields w))
  | _ => none

/-- The instruction that a V slot word names: its opcode, then the form. -/
def decodeV (w : BitVec 48) : Option Instr := opcodeV (fld w 40 6).toNat w

/-- A slot that is empty when its word is 0 (R85), holds an instruction where dec reads one, and is refused otherwise. -/
def decodeSlot {n : Nat} (dec : BitVec n → Option Instr) (w : BitVec n) : Option (Option Instr) :=
  if w = 0 then some none else (dec w).map some

/-- A V or F slot (R85): width code 00 makes it idle, and then all its bits must be 0. -/
def decodeWideSlot {n : Nat} (width : BitVec 2) (dec : BitVec n → Option Instr) (w : BitVec n) : Option (Option Instr) :=
  if width = 0 then (if w = 0 then some none else none) else (dec w).map some

/-- The bundle of 384 bits (R81): none where a slot holds no instruction of the opcode map or a reserved header bit is set. -/
def decodeBundle (w : BundleBits) : Option Bundle := do
  if fld w 360 6 ≠ 0#6 then none
  let s0 ← decodeSlot decodeS (fld w 328 32)
  let s1 ← decodeSlot decodeS (fld w 296 32)
  let v0 ← decodeWideSlot (fld w 294 2) decodeV (fld w 248 48)
  let v1 ← decodeWideSlot (fld w 246 2) decodeV (fld w 200 48)
  let v2 ← decodeWideSlot (fld w 198 2) decodeV (fld w 152 48)
  let f ← decodeWideSlot (fld w 144 2) decodeF (fld w 128 24)
  let m0 ← decodeSlot decodeM (fld w 96 32)
  let m1 ← decodeSlot decodeM (fld w 64 32)
  let x ← decodeSlot decodeX (fld w 32 32)
  let l ← decodeSlot decodeL (fld w 16 16)
  let k ← decodeSlot decodeK (fld w 0 16)
  return { rp := fld w 383 1 = 1#1, rx := fld w 382 1 = 1#1, rcnt := fld w 376 6, pv0 := fld w 374 2, pv1 := fld w 372 2,
           pv2 := fld w 370 2, pf := fld w 368 2, wown := fld w 366 2,
           s0, s1, v0, v1, v2, f, m0, m1, x, l, k }

/-- The word of n bits that (width, value) fields spell, the highest field first. -/
def pack (n : Nat) (fs : List (Nat × Nat)) : BitVec n :=
  BitVec.ofNat n (fs.foldl (fun acc f => acc * 2 ^ f.1 + f.2) 0)

/-- The S slot word of an instruction (0, the idle word, for one that the slot does not take). -/
def encodeS (i : Instr) : BitVec 32 :=
  match i with
  | .addSr e d a b => pack 32 [(6, 1), (1, e.toNat), (1, 0), (6, d.toNat), (6, a.toNat), (6, b.toNat), (6, 0)]
  | .addSi e d a i => pack 32 [(6, 1), (1, e.toNat), (1, 1), (6, d.toNat), (6, a.toNat), (12, i.toNat)]
  | .subSr e d a b => pack 32 [(6, 2), (1, e.toNat), (1, 0), (6, d.toNat), (6, a.toNat), (6, b.toNat), (6, 0)]
  | .subSi e d a i => pack 32 [(6, 2), (1, e.toNat), (1, 1), (6, d.toNat), (6, a.toNat), (12, i.toNat)]
  | .mulSr e d a b => pack 32 [(6, 3), (1, e.toNat), (1, 0), (6, d.toNat), (6, a.toNat), (6, b.toNat), (6, 0)]
  | .mulSi e d a i => pack 32 [(6, 3), (1, e.toNat), (1, 1), (6, d.toNat), (6, a.toNat), (12, i.toNat)]
  | .mulhSr e d a b u => pack 32 [(6, 4), (1, e.toNat), (1, 0), (6, d.toNat), (6, a.toNat), (6, b.toNat), (5, 0), (1, u.toNat)]
  | .mulhSi e d a i => pack 32 [(6, 4), (1, e.toNat), (1, 1), (6, d.toNat), (6, a.toNat), (12, i.toNat)]
  | .divSr e d a b u => pack 32 [(6, 5), (1, e.toNat), (1, 0), (6, d.toNat), (6, a.toNat), (6, b.toNat), (5, 0), (1, u.toNat)]
  | .divSi e d a i => pack 32 [(6, 5), (1, e.toNat), (1, 1), (6, d.toNat), (6, a.toNat), (12, i.toNat)]
  | .remSr e d a b u => pack 32 [(6, 6), (1, e.toNat), (1, 0), (6, d.toNat), (6, a.toNat), (6, b.toNat), (5, 0), (1, u.toNat)]
  | .remSi e d a i => pack 32 [(6, 6), (1, e.toNat), (1, 1), (6, d.toNat), (6, a.toNat), (12, i.toNat)]
  | .andSr e d a b => pack 32 [(6, 7), (1, e.toNat), (1, 0), (6, d.toNat), (6, a.toNat), (6, b.toNat), (6, 0)]
  | .andSi e d a i => pack 32 [(6, 7), (1, e.toNat), (1, 1), (6, d.toNat), (6, a.toNat), (12, i.toNat)]
  | .orSr e d a b => pack 32 [(6, 8), (1, e.toNat), (1, 0), (6, d.toNat), (6, a.toNat), (6, b.toNat), (6, 0)]
  | .orSi e d a i => pack 32 [(6, 8), (1, e.toNat), (1, 1), (6, d.toNat), (6, a.toNat), (12, i.toNat)]
  | .xorSr e d a b => pack 32 [(6, 9), (1, e.toNat), (1, 0), (6, d.toNat), (6, a.toNat), (6, b.toNat), (6, 0)]
  | .xorSi e d a i => pack 32 [(6, 9), (1, e.toNat), (1, 1), (6, d.toNat), (6, a.toNat), (12, i.toNat)]
  | .andnSr e d a b => pack 32 [(6, 10), (1, e.toNat), (1, 0), (6, d.toNat), (6, a.toNat), (6, b.toNat), (6, 0)]
  | .andnSi e d a i => pack 32 [(6, 10), (1, e.toNat), (1, 1), (6, d.toNat), (6, a.toNat), (12, i.toNat)]
  | .shlSr e d a b => pack 32 [(6, 11), (1, e.toNat), (1, 0), (6, d.toNat), (6, a.toNat), (6, b.toNat), (6, 0)]
  | .shlSi e d a i => pack 32 [(6, 11), (1, e.toNat), (1, 1), (6, d.toNat), (6, a.toNat), (12, i.toNat)]
  | .shrSr e d a b => pack 32 [(6, 12), (1, e.toNat), (1, 0), (6, d.toNat), (6, a.toNat), (6, b.toNat), (6, 0)]
  | .shrSi e d a i => pack 32 [(6, 12), (1, e.toNat), (1, 1), (6, d.toNat), (6, a.toNat), (12, i.toNat)]
  | .sraSr e d a b => pack 32 [(6, 13), (1, e.toNat), (1, 0), (6, d.toNat), (6, a.toNat), (6, b.toNat), (6, 0)]
  | .sraSi e d a i => pack 32 [(6, 13), (1, e.toNat), (1, 1), (6, d.toNat), (6, a.toNat), (12, i.toNat)]
  | .rolSr e d a b => pack 32 [(6, 14), (1, e.toNat), (1, 0), (6, d.toNat), (6, a.toNat), (6, b.toNat), (6, 0)]
  | .rolSi e d a i => pack 32 [(6, 14), (1, e.toNat), (1, 1), (6, d.toNat), (6, a.toNat), (12, i.toNat)]
  | .cmpSr e d a b c => pack 32 [(6, 15), (1, e.toNat), (1, 0), (6, d.toNat), (6, a.toNat), (6, b.toNat), (6, c.toNat)]
  | .cmpSi e d a c i => pack 32 [(6, 15), (1, e.toNat), (1, 1), (6, d.toNat), (6, a.toNat), (3, c.toNat), (9, i.toNat)]
  | .minSr e d a b u => pack 32 [(6, 16), (1, e.toNat), (1, 0), (6, d.toNat), (6, a.toNat), (6, b.toNat), (5, 0), (1, u.toNat)]
  | .minSi e d a i => pack 32 [(6, 16), (1, e.toNat), (1, 1), (6, d.toNat), (6, a.toNat), (12, i.toNat)]
  | .maxSr e d a b u => pack 32 [(6, 17), (1, e.toNat), (1, 0), (6, d.toNat), (6, a.toNat), (6, b.toNat), (5, 0), (1, u.toNat)]
  | .maxSi e d a i => pack 32 [(6, 17), (1, e.toNat), (1, 1), (6, d.toNat), (6, a.toNat), (12, i.toNat)]
  | .sel e d a b f => pack 32 [(6, 18), (1, e.toNat), (1, 0), (6, d.toNat), (6, a.toNat), (6, b.toNat), (6, f.toNat)]
  | .bitcClz e d a => pack 32 [(6, 19), (1, e.toNat), (1, 0), (6, d.toNat), (6, a.toNat), (12, 0)]
  | .bitcCtz e d a => pack 32 [(6, 19), (1, e.toNat), (1, 0), (6, d.toNat), (6, a.toNat), (12, 1)]
  | .bitcPopc e d a => pack 32 [(6, 19), (1, e.toNat), (1, 0), (6, d.toNat), (6, a.toNat), (12, 2)]
  | .bitcBrev e d a => pack 32 [(6, 19), (1, e.toNat), (1, 0), (6, d.toNat), (6, a.toNat), (12, 3)]
  | .extSr e d a b s => pack 32 [(6, 20), (1, e.toNat), (1, 0), (6, d.toNat), (6, a.toNat), (6, b.toNat), (5, 0), (1, s.toNat)]
  | .extSi e d a l p => pack 32 [(6, 20), (1, e.toNat), (1, 1), (6, d.toNat), (6, a.toNat), (6, l.toNat), (6, p.toNat)]
  | .li e d i => pack 32 [(6, 21), (1, e.toNat), (1, 0), (6, d.toNat), (18, i.toNat)]
  | .lis e d i => pack 32 [(6, 22), (1, e.toNat), (1, 0), (6, d.toNat), (18, i.toNat)]
  | .movc e d c => pack 32 [(6, 23), (1, e.toNat), (1, 1), (6, d.toNat), (6, 0), (12, c.toNat)]
  | .movtc e a c => pack 32 [(6, 24), (1, e.toNat), (7, 64), (6, a.toNat), (12, c.toNat)]
  | .gpredSet d a => pack 32 [(8, 102), (6, d.toNat), (6, a.toNat), (12, 0)]
  | .gpredAnd d a b => pack 32 [(8, 100), (6, d.toNat), (6, a.toNat), (6, b.toNat), (6, 1)]
  | .gpredOr d a b => pack 32 [(8, 100), (6, d.toNat), (6, a.toNat), (6, b.toNat), (6, 2)]
  | .gpredAndn d a b => pack 32 [(8, 100), (6, d.toNat), (6, a.toNat), (6, b.toNat), (6, 3)]
  | .gpredXor d a b => pack 32 [(8, 100), (6, d.toNat), (6, a.toNat), (6, b.toNat), (6, 4)]
  | .gpredNot d a => pack 32 [(8, 100), (6, d.toNat), (6, a.toNat), (12, 5)]
  | .gpredFroms d a => pack 32 [(8, 100), (6, d.toNat), (6, a.toNat), (12, 6)]
  | .gpredRange d a h l => pack 32 [(8, 101), (6, d.toNat), (6, a.toNat), (4, 0), (4, h.toNat), (4, l.toNat)]
  | .gqryMask d a => pack 32 [(8, 104), (6, d.toNat), (6, a.toNat), (12, 0)]
  | .gqryMaskE d a => pack 32 [(8, 106), (6, d.toNat), (6, a.toNat), (12, 0)]
  | .gqryCount d a => pack 32 [(8, 104), (6, d.toNat), (6, a.toNat), (12, 1)]
  | .gqryAny d a => pack 32 [(8, 104), (6, d.toNat), (6, a.toNat), (12, 2)]
  | .gqryAll d a => pack 32 [(8, 104), (6, d.toNat), (6, a.toNat), (12, 3)]
  | .gqryFirst d a => pack 32 [(8, 104), (6, d.toNat), (6, a.toNat), (12, 4)]
  | .gqryAct d => pack 32 [(8, 104), (6, d.toNat), (18, 5)]
  | .gqryBit d a n => pack 32 [(8, 105), (6, d.toNat), (6, a.toNat), (8, 0), (4, n.toNat)]
  | .egetSr d a b => pack 32 [(8, 108), (6, d.toNat), (6, a.toNat), (6, b.toNat), (6, 0)]
  | .egetSi d n b => pack 32 [(8, 109), (6, d.toNat), (10, 0), (4, n.toNat), (4, b.toNat)]
  | .eputSr d a b => pack 32 [(8, 112), (6, d.toNat), (6, a.toNat), (6, b.toNat), (6, 0)]
  | .eputSi d a i => pack 32 [(8, 113), (6, d.toNat), (6, a.toNat), (12, i.toNat)]
  | .shpSr e d a => pack 32 [(6, 29), (1, e.toNat), (1, 0), (6, d.toNat), (6, a.toNat), (12, 0)]
  | .shpK e d k => pack 32 [(6, 29), (1, e.toNat), (1, 1), (6, d.toNat), (6, 0), (12, k.toNat)]
  | .asetSr e d a b => pack 32 [(6, 30), (1, e.toNat), (1, 0), (6, d.toNat), (6, a.toNat), (6, b.toNat), (6, 0)]
  | .asetSi e d a i => pack 32 [(6, 30), (1, e.toNat), (1, 1), (6, d.toNat), (6, a.toNat), (12, i.toNat)]
  | .astrSr e d a b => pack 32 [(6, 31), (1, e.toNat), (1, 0), (6, d.toNat), (6, a.toNat), (6, b.toNat), (6, 0)]
  | .astrSi e d a i => pack 32 [(6, 31), (1, e.toNat), (1, 1), (6, d.toNat), (6, a.toNat), (12, i.toNat)]
  | .engwSr e d a b u => pack 32 [(6, 32), (1, e.toNat), (1, 0), (6, d.toNat), (6, a.toNat), (6, b.toNat), (6, u.toNat)]
  | .engwSi e d a u i => pack 32 [(6, 32), (1, e.toNat), (1, 1), (6, d.toNat), (6, a.toNat), (2, u.toNat), (10, i.toNat)]
  | .enggoCp0 p x y z => pack 32 [(8, 132), (6, p.toNat), (6, x.toNat), (6, y.toNat), (6, z.toNat)]
  | .enggoCp1 p x y z => pack 32 [(8, 136), (6, p.toNat), (6, x.toNat), (6, y.toNat), (6, z.toNat)]
  | .enggoIw p x y z => pack 32 [(8, 140), (6, p.toNat), (6, x.toNat), (6, y.toNat), (6, z.toNat)]
  | .enggoCl p x y z => pack 32 [(8, 144), (6, p.toNat), (6, x.toNat), (6, y.toNat), (6, z.toNat)]
  | .bwait d a k n => pack 32 [(8, 148), (6, d.toNat), (6, a.toNat), (10, 0), (1, k.toNat), (1, n.toNat)]
  | .wait d k a m => pack 32 [(8, 153), (6, d.toNat), (12, 0), (1, k.toNat), (1, a.toNat), (4, m.toNat)]
  | .signalSr a => pack 32 [(14, 9984), (6, a.toNat), (12, 0)]
  | .signalSi p => pack 32 [(27, 82313216), (5, p.toNat)]
  | .signalOthers => pack 32 [(32, 2634022944)]
  | .lapsetSr a => pack 32 [(14, 10240), (6, a.toNat), (12, 0)]
  | .lapsetSi h l => pack 32 [(24, 10551296), (4, h.toNat), (4, l.toNat)]
  | .jmp o => pack 32 [(12, 3072), (20, o.toNat)]
  | .bz a o => pack 32 [(6, 49), (6, a.toNat), (20, o.toNat)]
  | .bnz a o => pack 32 [(6, 50), (6, a.toNat), (20, o.toNat)]
  | .bltz a o => pack 32 [(6, 51), (6, a.toNat), (20, o.toNat)]
  | .call o => pack 32 [(12, 3328), (20, o.toNat)]
  | .ret => pack 32 [(32, 3556769792)]
  | .loop a o => pack 32 [(6, 54), (6, a.toNat), (20, o.toNat)]
  | .bmz a o => pack 32 [(6, 55), (6, a.toNat), (20, o.toNat)]
  | .gif a o => pack 32 [(6, 56), (6, a.toNat), (20, o.toNat)]
  | .gelse o => pack 32 [(12, 3648), (20, o.toNat)]
  | .gjoin => pack 32 [(32, 3892314112)]
  | .gsplit a o => pack 32 [(6, 59), (6, a.toNat), (20, o.toNat)]
  | .gmerge => pack 32 [(32, 4026531840)]
  | .bar l => pack 32 [(26, 63963136), (6, l.toNat)]
  | .sysExit => pack 32 [(32, 4160749568)]
  | .sysBrk => pack 32 [(32, 4160749569)]
  | .sysLaunch a b => pack 32 [(14, 15872), (6, a.toNat), (6, b.toNat), (6, 2)]
  | .sysCancel a => pack 32 [(14, 15872), (6, a.toNat), (12, 3)]
  | .sysStkspill d => pack 32 [(8, 248), (6, d.toNat), (18, 4)]
  | .sysStkfill a => pack 32 [(14, 15872), (6, a.toNat), (12, 5)]
  | _ => 0

/-- The F slot word of an instruction (0, the idle word, for one that the slot does not take). -/
def encodeF (i : Instr) : BitVec 24 :=
  match i with
  | .rcp w t d a m => pack 24 [(6, 1), (2, w.toNat), (2, t.toNat), (5, d.toNat), (5, a.toNat), (1, 0), (3, m.toNat)]
  | .rsq w t d a m => pack 24 [(6, 2), (2, w.toNat), (2, t.toNat), (5, d.toNat), (5, a.toNat), (1, 0), (3, m.toNat)]
  | .sqrt w t d a m => pack 24 [(6, 3), (2, w.toNat), (2, t.toNat), (5, d.toNat), (5, a.toNat), (1, 0), (3, m.toNat)]
  | .exp2 w t d a m => pack 24 [(6, 4), (2, w.toNat), (2, t.toNat), (5, d.toNat), (5, a.toNat), (1, 0), (3, m.toNat)]
  | .log2 w t d a m => pack 24 [(6, 5), (2, w.toNat), (2, t.toNat), (5, d.toNat), (5, a.toNat), (1, 0), (3, m.toNat)]
  | .tanh w t d a m => pack 24 [(6, 6), (2, w.toNat), (2, t.toNat), (5, d.toNat), (5, a.toNat), (1, 0), (3, m.toNat)]
  | .sint w t d a m => pack 24 [(6, 7), (2, w.toNat), (2, t.toNat), (5, d.toNat), (5, a.toNat), (1, 0), (3, m.toNat)]
  | .cost w t d a m => pack 24 [(6, 8), (2, w.toNat), (2, t.toNat), (5, d.toNat), (5, a.toNat), (1, 0), (3, m.toNat)]
  | .erf w t d a m => pack 24 [(6, 9), (2, w.toNat), (2, t.toNat), (5, d.toNat), (5, a.toNat), (1, 0), (3, m.toNat)]
  | .rank t d a c g => pack 24 [(8, 67), (2, t.toNat), (5, d.toNat), (5, a.toNat), (2, c.toNat), (2, g.toNat)]
  | .rankv t d a c g => pack 24 [(8, 71), (2, t.toNat), (5, d.toNat), (5, a.toNat), (2, c.toNat), (2, g.toNat)]
  | .rankc t d a e g => pack 24 [(8, 75), (2, t.toNat), (5, d.toNat), (5, a.toNat), (2, e.toNat), (2, g.toNat)]
  | .rmerge t d a c => pack 24 [(8, 79), (2, t.toNat), (5, d.toNat), (5, a.toNat), (2, c.toNat), (2, 0)]
  | .unrank t d a n s g => pack 24 [(8, 83), (2, t.toNat), (5, d.toNat), (5, a.toNat), (1, n.toNat), (1, s.toNat), (2, g.toNat)]
  | _ => 0

/-- The M slot word of an instruction (0, the idle word, for one that the slot does not take). -/
def encodeM (i : Instr) : BitVec 32 :=
  match i with
  | .ld r m s q i => pack 32 [(6, 1), (5, r.toNat), (9, 0), (3, m.toNat), (3, s.toNat), (3, 0), (2, q.toNat), (1, i.toNat)]
  | .ldg r v m s q i => pack 32 [(6, 2), (5, r.toNat), (9, v.toNat), (3, m.toNat), (3, s.toNat), (3, 0), (2, q.toNat), (1, i.toNat)]
  | .st r v m s i => pack 32 [(6, 3), (5, r.toNat), (9, v.toNat), (3, m.toNat), (3, s.toNat), (5, 2), (1, i.toNat)]
  | .sts r v m s i => pack 32 [(6, 4), (5, r.toNat), (9, v.toNat), (3, m.toNat), (3, s.toNat), (5, 2), (1, i.toNat)]
  | .ldl r m q i => pack 32 [(6, 5), (5, r.toNat), (9, 0), (3, m.toNat), (6, 40), (2, q.toNat), (1, i.toNat)]
  | .stl r v m i => pack 32 [(6, 6), (5, r.toNat), (9, v.toNat), (3, m.toNat), (8, 162), (1, i.toNat)]
  | .atom r v o w s q => pack 32 [(6, 7), (5, r.toNat), (9, v.toNat), (4, o.toNat), (1, w.toNat), (3, s.toNat), (3, q.toNat), (1, 0)]
  | .atomg r v o w s q => pack 32 [(6, 8), (5, r.toNat), (9, v.toNat), (4, o.toNat), (1, w.toNat), (3, s.toNat), (3, q.toNat), (1, 0)]
  | .qsync => pack 32 [(32, 603979780)]
  | .fence k s => pack 32 [(23, 1310720), (3, k.toNat), (3, s.toNat), (3, 4)]
  | .aadd r i => pack 32 [(6, 11), (5, r.toNat), (21, i.toNat)]
  | .pref r s h i => pack 32 [(6, 12), (5, r.toNat), (12, 0), (3, s.toNat), (3, h.toNat), (2, 2), (1, i.toNat)]
  | .scopLd r q i => pack 32 [(6, 13), (5, r.toNat), (18, 0), (2, q.toNat), (1, i.toNat)]
  | .scopSt r v i => pack 32 [(6, 13), (5, r.toNat), (9, v.toNat), (11, 6), (1, i.toNat)]
  | .scopExch r v q i => pack 32 [(6, 13), (5, r.toNat), (9, v.toNat), (9, 2), (2, q.toNat), (1, i.toNat)]
  | .scopCas r v q i => pack 32 [(6, 13), (5, r.toNat), (9, v.toNat), (9, 3), (2, q.toNat), (1, i.toNat)]
  | .lapadd r n => pack 32 [(6, 14), (5, r.toNat), (21, n.toNat)]
  | .rpass r v s q => pack 32 [(6, 15), (5, r.toNat), (9, v.toNat), (3, 0), (3, s.toNat), (3, 0), (2, q.toNat), (1, 0)]
  | .rtake r s q => pack 32 [(6, 16), (5, r.toNat), (12, 0), (3, s.toNat), (3, 0), (2, q.toNat), (1, 0)]
  | .rtakeArm r => pack 32 [(6, 16), (5, r.toNat), (21, 12)]
  | .rtakeStat r q => pack 32 [(6, 16), (5, r.toNat), (18, 2), (2, q.toNat), (1, 0)]
  | .txbegin m => pack 32 [(20, 278528), (3, m.toNat), (9, 4)]
  | .txbeginSerial m => pack 32 [(20, 278528), (3, m.toNat), (9, 12)]
  | .txend q => pack 32 [(29, 150994944), (2, q.toNat), (1, 0)]
  | .txabort m => pack 32 [(29, 159383552), (3, m.toNat)]
  | .pcommit r s q => pack 32 [(6, 20), (5, r.toNat), (17, 0), (1, s.toNat), (2, q.toNat), (1, 0)]
  | .prelease r s q => pack 32 [(6, 21), (5, r.toNat), (17, 0), (1, s.toNat), (2, q.toNat), (1, 0)]
  | .tlbinv r v s q => pack 32 [(6, 22), (5, r.toNat), (9, v.toNat), (7, 0), (2, s.toNat), (2, q.toNat), (1, 0)]
  | .tlbinvAll q => pack 32 [(29, 184549379), (2, q.toNat), (1, 0)]
  | _ => 0

/-- The X slot word of an instruction (0, the idle word, for one that the slot does not take). -/
def encodeX (i : Instr) : BitVec 32 :=
  match i with
  | .mma c l h r a b i t k => pack 32 [(6, 1), (3, c.toNat), (2, l.toNat), (3, h.toNat), (5, r.toNat), (3, a.toNat), (3, b.toNat), (1, i.toNat), (1, t.toNat), (3, 0), (2, k.toNat)]
  | .mmas c l h r a b i t => pack 32 [(6, 2), (3, c.toNat), (2, l.toNat), (3, h.toNat), (5, r.toNat), (3, a.toNat), (3, b.toNat), (1, i.toNat), (1, t.toNat), (5, 0)]
  | .mmar c l h r b i t n => pack 32 [(6, 3), (3, c.toNat), (2, l.toNat), (3, h.toNat), (5, r.toNat), (3, 0), (3, b.toNat), (1, i.toNat), (1, t.toNat), (4, 0), (1, n.toNat)]
  | .latld l h r a i => pack 32 [(9, 32), (2, l.toNat), (3, h.toNat), (5, r.toNat), (3, a.toNat), (3, 0), (1, i.toNat), (6, 0)]
  | .latldRank l h r i n => pack 32 [(9, 33), (2, l.toNat), (3, h.toNat), (5, r.toNat), (6, 0), (1, i.toNat), (6, n.toNat)]
  | .tzero c => pack 32 [(6, 5), (3, c.toNat), (23, 0)]
  | .tld c h r => pack 32 [(6, 6), (3, c.toNat), (2, 0), (3, h.toNat), (5, r.toNat), (13, 0)]
  | .tst c h r => pack 32 [(6, 7), (3, c.toNat), (2, 0), (3, h.toNat), (5, r.toNat), (13, 0)]
  | .tadd c h s => pack 32 [(6, 8), (3, c.toNat), (2, 0), (3, h.toNat), (15, 0), (3, s.toNat)]
  | .tscl c h n => pack 32 [(6, 9), (3, c.toNat), (2, 0), (3, h.toNat), (16, 0), (2, n.toNat)]
  | _ => 0

/-- The L slot word of an instruction (0, the idle word, for one that the slot does not take). -/
def encodeL (i : Instr) : BitVec 16 :=
  match i with
  | .xperm d a p => pack 16 [(4, 1), (5, d.toNat), (5, a.toNat), (2, p.toNat)]
  | .xshfl d a p => pack 16 [(4, 2), (5, d.toNat), (5, a.toNat), (2, p.toNat)]
  | .xred d a p => pack 16 [(4, 3), (5, d.toNat), (5, a.toNat), (2, p.toNat)]
  | .xscan d a p => pack 16 [(4, 4), (5, d.toNat), (5, a.toNat), (2, p.toNat)]
  | .gvsh d a p => pack 16 [(4, 5), (5, d.toNat), (5, a.toNat), (2, p.toNat)]
  | .gvred d a p => pack 16 [(4, 6), (5, d.toNat), (5, a.toNat), (2, p.toNat)]
  | .gshuf d s m => pack 16 [(4, 7), (3, d.toNat), (3, s.toNat), (4, m.toNat), (2, 0)]
  | .gred d s q => pack 16 [(4, 8), (3, d.toNat), (3, s.toNat), (4, q.toNat), (2, 0)]
  | .gbcst d s n => pack 16 [(4, 9), (3, d.toNat), (3, s.toNat), (4, n.toNat), (2, 0)]
  | _ => 0

/-- The K slot word of an instruction (0, the idle word, for one that the slot does not take). -/
def encodeK (i : Instr) : BitVec 16 :=
  match i with
  | .cbld a t => pack 16 [(4, 1), (5, a.toNat), (3, t.toNat), (4, 0)]
  | .scld a t h => pack 16 [(4, 2), (5, a.toNat), (3, t.toNat), (3, 0), (1, h.toNat)]
  | .atld a t => pack 16 [(4, 3), (5, a.toNat), (3, t.toNat), (4, 0)]
  | .xpld a t => pack 16 [(4, 4), (5, a.toNat), (3, t.toNat), (4, 0)]
  | .stbs a => pack 16 [(4, 5), (5, a.toNat), (7, 0)]
  | _ => 0

/-- A V slot word from its opcode and fields (R94). -/
def encodeVWord (op : BitVec 6) (f : VFields) : BitVec 48 :=
  pack 48 [(2, f.w.toNat), (6, op.toNat), (3, f.t.toNat), (3, f.rm.toNat), (9, f.d.toNat), (9, f.a.toNat), (9, f.b.toNat), (3, f.m.toNat), (4, f.c.toNat)]

/-- The V slot word of an instruction (0, the idle word, for one that the slot does not take). -/
def encodeV (i : Instr) : BitVec 48 :=
  match i with
  | .vadd f => encodeVWord 0x01#6 f
  | .vsub f => encodeVWord 0x02#6 f
  | .vmul f => encodeVWord 0x03#6 f
  | .vfma f => encodeVWord 0x04#6 f
  | .vfnma f => encodeVWord 0x05#6 f
  | .vmin f => encodeVWord 0x06#6 f
  | .vmax f => encodeVWord 0x07#6 f
  | .vabs f => encodeVWord 0x08#6 f
  | .vneg f => encodeVWord 0x09#6 f
  | .vand f => encodeVWord 0x0A#6 f
  | .vor f => encodeVWord 0x0B#6 f
  | .vxor f => encodeVWord 0x0C#6 f
  | .vshl f => encodeVWord 0x0D#6 f
  | .vshr f => encodeVWord 0x0E#6 f
  | .vsra f => encodeVWord 0x0F#6 f
  | .vcmp f => encodeVWord 0x10#6 f
  | .vsel f => encodeVWord 0x11#6 f
  | .vmov f => encodeVWord 0x12#6 f
  | .vxfer f => encodeVWord 0x13#6 f
  | .vcvt f => encodeVWord 0x14#6 f
  | .vdecb f => encodeVWord 0x15#6 f
  | .vencb f => encodeVWord 0x16#6 f
  | .vclass f => encodeVWord 0x17#6 f
  | .vrng f => encodeVWord 0x18#6 f
  | .vtopki f => encodeVWord 0x19#6 f
  | .viota f => encodeVWord 0x1A#6 f
  | .vmulh f => encodeVWord 0x1B#6 f
  | .vadds f => encodeVWord 0x1C#6 f
  | .vdot4 f => encodeVWord 0x1D#6 f
  | .vpopc f => encodeVWord 0x1E#6 f
  | .vclz f => encodeVWord 0x1F#6 f
  | .vext f => encodeVWord 0x20#6 f
  | .vins f => encodeVWord 0x21#6 f
  | .vladd f => encodeVWord 0x28#6 f
  | .vlsub f => encodeVWord 0x29#6 f
  | .vlshl f => encodeVWord 0x2A#6 f
  | .vlshr f => encodeVWord 0x2B#6 f
  | .vlcmp f => encodeVWord 0x2C#6 f
  | .vlmul f => encodeVWord 0x2D#6 f
  | .bind f => encodeVWord 0x2E#6 f
  | _ => 0

/-- The slot word of what a slot holds. -/
def encodeSlot {n : Nat} (enc : Instr → BitVec n) : Option Instr → BitVec n
  | none => 0
  | some i => enc i

/-- The 384 bits of a bundle (R81). -/
def encodeBundle (b : Bundle) : BundleBits :=
  pack 384 [(1, b.rp.toNat), (1, b.rx.toNat), (6, b.rcnt.toNat), (2, b.pv0.toNat), (2, b.pv1.toNat), (2, b.pv2.toNat),
    (2, b.pf.toNat), (2, b.wown.toNat), (6, 0), (32, (encodeSlot encodeS b.s0).toNat), (32, (encodeSlot encodeS b.s1).toNat),
    (48, (encodeSlot encodeV b.v0).toNat), (48, (encodeSlot encodeV b.v1).toNat), (48, (encodeSlot encodeV b.v2).toNat),
    (24, (encodeSlot encodeF b.f).toNat), (32, (encodeSlot encodeM b.m0).toNat), (32, (encodeSlot encodeM b.m1).toNat),
    (32, (encodeSlot encodeX b.x).toNat), (16, (encodeSlot encodeL b.l).toNat), (16, (encodeSlot encodeK b.k).toNat)]

/-- The 16-bit words of a bit string of n words, lowest first (R77: payload word j holds bits 16j+15:16j). -/
def wordsOf (n : Nat) (w : Nat) : List CodeWord :=
  match n with
  | 0 => []
  | n + 1 => BitVec.ofNat 16 w :: wordsOf n (w / 65536)

/-- The number that a list of 16-bit words spells, lowest first. -/
def wordsVal : List CodeWord → Nat
  | [] => 0
  | w :: ws => w.toNat + 65536 * wordsVal ws

/-- The escape code word (R76). -/
def escapeWord : CodeWord := 0xFFFE#16

/-- The 25 code words of a literal bundle (R77). -/
def literalWords (w : BundleBits) : List CodeWord := escapeWord :: wordsOf 24 w.toNat

/-- The bundle bits that the 24 payload words of a literal hold (R77). -/
def literalBits (ws : List CodeWord) : BundleBits := BitVec.ofNat 384 (wordsVal (ws.take 24))

/-- The number that a list of bytes spells, lowest first (R75, dictionary entries and every multi-byte value are little-endian). -/
def bytesVal : List Byte → Nat
  | [] => 0
  | b :: bs => b.toNat + 256 * bytesVal bs

/-- The n low bytes of a number, lowest first. -/
def bytesOf (n : Nat) (w : Nat) : List Byte :=
  match n with
  | 0 => []
  | n + 1 => BitVec.ofNat 8 w :: bytesOf n (w / 256)

/-- The instruction that the decoder reads from the nbits-bit slot word w of spec/opcode_table.json. Slot formats of one width
share words (a slot's place in the bundle tells them apart), so the widths are tried in slot order: 32 bits S, then M, then
X; 16 bits L, then K. The word is laid out in the bytes of its slot and read back. (DEDUCED, log 59) -/
def decodeTableWord (nbits w : Nat) : Option Instr :=
  if nbits = 48 then decodeV (BitVec.ofNat 48 (bytesVal (bytesOf 6 w)))
  else if nbits = 32 then
    (decodeS (BitVec.ofNat 32 (bytesVal (bytesOf 4 w)))).or
      ((decodeM (BitVec.ofNat 32 (bytesVal (bytesOf 4 w)))).or (decodeX (BitVec.ofNat 32 (bytesVal (bytesOf 4 w)))))
  else if nbits = 24 then decodeF (BitVec.ofNat 24 (bytesVal (bytesOf 3 w)))
  else if nbits = 16 then
    (decodeL (BitVec.ofNat 16 (bytesVal (bytesOf 2 w)))).or (decodeK (BitVec.ofNat 16 (bytesVal (bytesOf 2 w))))
  else none

end Sys2Proof
end

