-- ==== Sys2Proof/Machine/Sparse.lean ====
section
/-! DEFINITION. Sparse stores: lists of (key, value) pairs in one canonical form (keys strictly rising, and no value equal to
what an unlisted key reads as), under the register files, the memories and the caches of the machine. -/
namespace Sys2Proof.Machine

/-- The value listed at a key, if any. -/
def kfind {α : Type} (l : List (Nat × α)) (k : Nat) : Option α :=
  match l with
  | [] => none
  | (j, v) :: t => if j = k then some v else kfind t k

/-- The list with v at key k, in rising order of keys. -/
def kput {α : Type} (l : List (Nat × α)) (k : Nat) (v : α) : List (Nat × α) :=
  match l with
  | [] => [(k, v)]
  | (j, w) :: t => if k < j then (k, v) :: (j, w) :: t else if k = j then (k, v) :: t else (j, w) :: kput t k v

/-- The list without key k. -/
def kdel {α : Type} (l : List (Nat × α)) (k : Nat) : List (Nat × α) :=
  match l with
  | [] => []
  | (j, w) :: t => if j = k then t else (j, w) :: kdel t k

/-- The value at a key, d where none is listed. -/
def sget {α : Type} (d : α) (l : List (Nat × α)) (k : Nat) : α := (kfind l k).getD d

/-- The store with v at key k: writing what an unlisted key reads as removes the entry. -/
def sput {α : Type} [DecidableEq α] (d : α) (l : List (Nat × α)) (k : Nat) (v : α) : List (Nat × α) :=
  if v = d then kdel l k else kput l k v

/-- The keys stand in strictly rising order. -/
def keysRise {α : Type} (l : List (Nat × α)) : Bool :=
  match l with
  | [] => true
  | [_] => true
  | (j, _) :: (k, w) :: t => decide (j < k) && keysRise ((k, w) :: t)

/-- The canonical form: keys strictly rising, no entry equal to d. -/
def sparseWf {α : Type} [DecidableEq α] (d : α) (l : List (Nat × α)) : Bool :=
  keysRise l && l.all (fun e => decide (e.2 ≠ d))

/-- The list with f applied to the element at index i; unchanged where there is none. -/
def modAt {α : Type} (l : List α) (i : Nat) (f : α → α) : List α :=
  match l, i with
  | [], _ => []
  | a :: t, 0 => f a :: t
  | a :: t, n + 1 => a :: modAt t n f

/-- The numbers lo, lo+1, ... (n of them). -/
def upFrom (lo n : Nat) : List Nat :=
  match n with
  | 0 => []
  | n + 1 => lo :: upFrom (lo + 1) n

/-- The numbers 0 to n-1. -/
abbrev below (n : Nat) : List Nat := upFrom 0 n

/-- x in its place in a list in order: before the first element that does not come before it. -/
def insertBy {α : Type} (lt : α → α → Bool) (x : α) : List α → List α
  | [] => [x]
  | y :: t => if lt y x then y :: insertBy lt x t else x :: y :: t
/-- A list in order, equal elements as they stood. -/
def sortBy {α : Type} (lt : α → α → Bool) (l : List α) : List α := l.foldr (insertBy lt) []

/-- The first number below n with a property. -/
def firstBelow (n : Nat) (p : Nat → Bool) : Option Nat := (below n).find? p

end Sys2Proof.Machine
end

