-- ==== Sys2Proof/Machine/Numerics.lean ====
section
/-! DEFINITION. Number formats, exact values, rounding, conversion, the reduction tree and Philox (R112-R128). Exact reals
are dyadic: an integer times a power of two. -/
namespace Sys2Proof.Machine

/-- The floating-point formats (R112). -/
inductive FFmt where
  | fp32 | fp16 | bf16 | e4m3 | e5m2
  deriving DecidableEq, Repr

/-- The rounding modes (R94). -/
inductive RMode where
  | rne | rtz | rup | rdn | rod
  deriving DecidableEq, Repr

/-- Size in bits (R112). -/
def FFmt.size : FFmt → Nat
  | .fp32 => 32 | .fp16 => 16 | .bf16 => 16 | .e4m3 => 8 | .e5m2 => 8
/-- Width of the mantissa field (R112). -/
def FFmt.mbits : FFmt → Nat
  | .fp32 => 23 | .fp16 => 10 | .bf16 => 7 | .e4m3 => 3 | .e5m2 => 2
/-- Width of the exponent field (R112). -/
def FFmt.ebits : FFmt → Nat
  | .fp32 => 8 | .fp16 => 5 | .bf16 => 8 | .e4m3 => 4 | .e5m2 => 5
/-- Exponent bias (R112). -/
def FFmt.bias : FFmt → Nat
  | .fp32 => 127 | .fp16 => 15 | .bf16 => 127 | .e4m3 => 7 | .e5m2 => 15
/-- Significand bits with the hidden bit (R112). -/
def FFmt.prec (f : FFmt) : Nat := f.mbits + 1
/-- The exponent of the smallest normal value (R112). -/
def FFmt.emin (f : FFmt) : Int := 1 - (f.bias : Int)
/-- Whether the format has infinities: all but E4M3 (R112). -/
def FFmt.hasInf : FFmt → Bool
  | .e4m3 => false
  | _ => true
/-- The encoding of the largest finite value (R112). -/
def FFmt.maxEnc : FFmt → Nat
  | .fp32 => 0x7F7FFFFF | .fp16 => 0x7BFF | .bf16 => 0x7F7F | .e4m3 => 0x7E | .e5m2 => 0x7B
/-- The encoding of +∞ (R112); E4M3 has none and the number is not used. -/
def FFmt.infEnc : FFmt → Nat
  | .fp32 => 0x7F800000 | .fp16 => 0x7C00 | .bf16 => 0x7F80 | .e4m3 => 0x7E | .e5m2 => 0x7C
/-- The default NaN (R112, dnan of R128). -/
def FFmt.dnan : FFmt → Nat
  | .fp32 => 0x7FC00000 | .fp16 => 0x7E00 | .bf16 => 0x7FC0 | .e4m3 => 0x7F | .e5m2 => 0x7E
/-- The sign bit's weight. -/
def FFmt.signBit (f : FFmt) : Nat := 2 ^ (f.size - 1)

/-- The value of an encoding (R113): a NaN, an infinity, or (-1)^neg · mag · 2^exp. A zero (mag = 0) keeps its sign. -/
inductive FVal where
  | nan (signalling : Bool)
  | inf (neg : Bool)
  | fin (neg : Bool) (mag : Nat) (exp : Int)
  deriving DecidableEq, Repr

/-- val() of R113. -/
def fval (f : FFmt) (b : Nat) : FVal :=
  let s := decide (b / 2 ^ (f.size - 1) % 2 = 1)
  let e := b / 2 ^ f.mbits % 2 ^ f.ebits
  let m := b % 2 ^ f.mbits
  let ones := 2 ^ f.ebits - 1
  if e = ones ∧ f.hasInf then
    if m = 0 then .inf s else .nan (decide (m / 2 ^ (f.mbits - 1) = 0))
  else if f = .e4m3 ∧ e = ones ∧ m = 7 then .nan false
  else if e = 0 then .fin s m (1 - (f.bias : Int) - f.mbits)
  else .fin s (2 ^ f.mbits + m) ((e : Int) - f.bias - f.mbits)

/-- A value is a NaN. -/
def FVal.isNan : FVal → Bool
  | .nan _ => true
  | _ => false
/-- A value is a signalling NaN. -/
def FVal.isSnan : FVal → Bool
  | .nan s => s
  | _ => false
/-- The sign of a value; a NaN has none. -/
def FVal.sign : FVal → Bool
  | .nan _ => false
  | .inf n => n
  | .fin n _ _ => n
/-- A value is a zero. -/
def FVal.isZero : FVal → Bool
  | .fin _ 0 _ => true
  | _ => false
/-- A value with its sign inverted. -/
def FVal.neg : FVal → FVal
  | .nan s => .nan s
  | .inf n => .inf !n
  | .fin n m e => .fin (!n) m e

/-- isnan() of R128. -/
def isnan (f : FFmt) (b : Nat) : Bool := (fval f b).isNan

/-- The exception flags (R121), bit positions of CR_FPFLAGS. -/
def flagNV : Nat := 1
def flagDZ : Nat := 2
def flagOF : Nat := 4
def flagUF : Nat := 8
def flagNX : Nat := 16

/-- The sign and the magnitude of m · 2^e for an integer m. -/
structure Dy where
  m : Int
  e : Int
  deriving DecidableEq, Repr

/-- The integer that x is at exponent e (e at most x's own). -/
def Dy.at (x : Dy) (e : Int) : Int := x.m * 2 ^ (x.e - e).toNat
/-- Exact sum. -/
def Dy.add (x y : Dy) : Dy :=
  let e := min x.e y.e
  ⟨x.at e + y.at e, e⟩
/-- Exact product. -/
def Dy.mul (x y : Dy) : Dy := ⟨x.m * y.m, x.e + y.e⟩
/-- Exact negation. -/
def Dy.neg (x : Dy) : Dy := ⟨-x.m, x.e⟩
/-- x < y. -/
def Dy.lt (x y : Dy) : Bool :=
  let e := min x.e y.e
  decide (x.at e < y.at e)
/-- x = y as values. -/
def Dy.eqv (x y : Dy) : Bool :=
  let e := min x.e y.e
  decide (x.at e = y.at e)
/-- |x|. -/
def Dy.abs (x : Dy) : Dy := ⟨x.m.natAbs, x.e⟩
/-- An integer as an exact value. -/
def Dy.ofInt (i : Int) : Dy := ⟨i, 0⟩

/-- The exact value of a finite FVal (0 for the others). -/
def FVal.dy : FVal → Dy
  | .fin n m e => ⟨if n then -(m : Int) else m, e⟩
  | _ => ⟨0, 0⟩

/-- Rounding of the magnitude mag · 2^e to a multiple of 2^qe (R118, read on magnitudes: the same choice for both signs in
RNE, RTZ and ROD, mirrored in RUP and RDN). Answers the multiple and whether it is inexact. -/
def roundMag (neg : Bool) (mag : Nat) (e qe : Int) (rm : RMode) : Nat × Bool :=
  if qe ≤ e then (mag * 2 ^ (e - qe).toNat, false)
  else
    let d := (qe - e).toNat
    let lo := mag / 2 ^ d
    let rem := mag % 2 ^ d
    if rem = 0 then (lo, false)
    else
      let up : Bool :=
        match rm with
        | .rne => decide (2 * rem > 2 ^ d) || (decide (2 * rem = 2 ^ d) && decide (lo % 2 = 1))
        | .rtz => false
        | .rup => !neg
        | .rdn => neg
        | .rod => decide (lo % 2 = 0)
      (if up then lo + 1 else lo, true)

/-- The exponent of the leading bit of mag · 2^e. -/
def leadExp (mag : Nat) (e : Int) : Int := (Nat.log2 mag : Int) + e

/-- ulp() of R128: of 0, the smallest subnormal. -/
def Dy.ulp (f : FFmt) (x : Dy) : Dy :=
  ⟨1, (if x.m = 0 then f.emin else max (leadExp x.m.natAbs x.e) f.emin) - f.mbits⟩

/-- The encoding of a magnitude n · 2^qe that the format represents, with a sign. -/
def encMag (f : FFmt) (neg : Bool) (n : Nat) (qe : Int) : Nat :=
  let s := if neg then f.signBit else 0
  let p := f.mbits
  if n < 2 ^ p then s + n
  else if n < 2 ^ (p + 1) then s + (qe + p + f.bias).toNat * 2 ^ p + (n - 2 ^ p)
  else s + (qe + 1 + p + f.bias).toNat * 2 ^ p + (n / 2 - 2 ^ p)

/-- ovf() of R119: E4M3 saturates in every mode. -/
def ovf (f : FFmt) (neg : Bool) (rm : RMode) : Nat :=
  let s := if neg then f.signBit else 0
  if !f.hasInf then s + f.maxEnc
  else
    match rm with
    | .rne => s + f.infEnc
    | .rtz => s + f.maxEnc
    | .rup => if neg then s + f.maxEnc else f.infEnc
    | .rdn => if neg then s + f.infEnc else f.maxEnc
    | .rod => s + f.maxEnc

/-- round() of R118 on a nonzero exact value, with its flags. -/
def roundDy (f : FFmt) (rm : RMode) (x : Dy) : Nat × Nat :=
  let neg := decide (x.m < 0)
  let mag := x.m.natAbs
  let ex := leadExp mag x.e
  let e := max ex f.emin
  let qe := e - f.mbits
  let (n, inexact) := roundMag neg mag x.e qe rm
  let mx := (fval f f.maxEnc).dy
  if Dy.lt mx ⟨n, qe⟩ then (ovf f neg rm, flagOF + flagNX)
  else
    let (n2, _) := roundMag neg mag x.e (ex - f.mbits) rm
    let tiny := Dy.lt ⟨n2, ex - f.mbits⟩ ⟨1, f.emin⟩
    (encMag f neg n qe, (if inexact then flagNX else 0) + (if inexact && tiny then flagUF else 0))

/-- An exact value with the sign a zero takes: round() extended to zero. -/
def roundZ (f : FFmt) (rm : RMode) (zeroNeg : Bool) (x : Dy) : Nat × Nat :=
  if x.m = 0 then (if zeroNeg then f.signBit else 0, 0) else roundDy f rm x

/-- The sign of an exact sum that is zero (R117): terms all zero, −0 only if every term is −0; else −0 only in RDN. -/
def zeroSumSign (terms : List FVal) (rm : RMode) : Bool :=
  if terms.all FVal.isZero then terms.all FVal.sign else decide (rm = .rdn)

/-- The exact product of two values: none when it is invalid (0 · ∞). -/
def mulVal (x y : FVal) : Option FVal :=
  match x, y with
  | .nan s, .nan t => some (.nan (s || t))
  | .nan s, _ => some (.nan s)
  | _, .nan s => some (.nan s)
  | .inf n, y => if y.isZero then none else some (.inf (n ^^ y.sign))
  | x, .inf n => if x.isZero then none else some (.inf (n ^^ x.sign))
  | .fin n m e, .fin k l g => some (.fin (n ^^ k) (m * l) (e + g))

/-- The exact sum of terms, rounded once (R117, R202): any NaN, or infinities of both signs, gives the default NaN. Terms
given as none are invalid products. nvIn is set when an input of the operation is a signalling NaN. Infinities of both signs are an
invalid sum, and set NV, beside a quiet NaN too. (DEDUCED, log 71) -/
def sumRound (f : FFmt) (rm : RMode) (terms : List (Option FVal)) (nvIn : Bool) : Nat × Nat :=
  let vs := terms.filterMap id
  let invalid := terms.any Option.isNone
  let infs := vs.filterMap (fun v => match v with | .inf n => some n | _ => none)
  let clash := infs.any id && infs.any (! ·)
  let nans := vs.any FVal.isNan
  if invalid || nans || clash then
    (f.dnan, if invalid || nvIn || clash then flagNV else 0)
  else
    match infs with
    | n :: _ => ((if n then f.signBit else 0) + f.infEnc, 0)
    | [] =>
      let x := vs.foldl (fun acc v => acc.add v.dy) ⟨0, 0⟩
      roundZ f rm (zeroSumSign vs rm) x

/-- rne(x + y) in FP32 with the special values of R117, no flags (R124, R185, R125). -/
def faddBits (f : FFmt) (x y : Nat) : Nat := (sumRound f .rne [some (fval f x), some (fval f y)] false).1

/-- rne(x · y) with the special values of R117, no flags (R124). -/
def fmulBits (f : FFmt) (x y : Nat) : Nat := (sumRound f .rne [mulVal (fval f x) (fval f y)] false).1

/-- sext of R128: the w-bit pattern b as a signed integer. -/
def sextN (b w : Nat) : Int := if 2 * (b % 2 ^ w) < 2 ^ w then (b % 2 ^ w : Nat) else (b % 2 ^ w : Nat) - (2 ^ w : Nat)
/-- bits() of R128: x mod 2^w. -/
def bitsI (x : Int) (w : Nat) : Nat := (x % (2 ^ w : Nat)).toNat
/-- sats() of R128. -/
def sats (x : Int) (w : Nat) : Nat := bitsI (max (-(2 ^ (w - 1) : Nat)) (min x ((2 ^ (w - 1) : Nat) - 1))) w
/-- satu() of R128. -/
def satu (x : Int) (w : Nat) : Nat := bitsI (max 0 (min x ((2 ^ w : Nat) - 1))) w

/-- The element types of R94: floating formats and the integers I32, I16, I8. -/
inductive EType where
  | flt (f : FFmt)
  | int (w : Nat)
  deriving DecidableEq, Repr

/-- The element width of a type. -/
def EType.width : EType → Nat
  | .flt f => f.size
  | .int w => w

/-- The type that a T code of R94 names. -/
def etype (t : BitVec 3) : EType :=
  match t.toNat with
  | 0 => .flt .fp32
  | 1 => .flt .bf16
  | 2 => .flt .fp16
  | 3 => .flt .e4m3
  | 4 => .flt .e5m2
  | 5 => .int 32
  | 6 => .int 16
  | _ => .int 8

/-- The rounding mode that an RM code of R94 names; reserved codes are refused by WellFormed. -/
def rmode (rm : BitVec 3) : RMode :=
  match rm.toNat with
  | 1 => .rtz
  | 2 => .rup
  | 3 => .rdn
  | 4 => .rod
  | _ => .rne

/-- A finite value rounded to an integer (round() with q = 1, R120). -/
def roundToInt (neg : Bool) (mag : Nat) (e : Int) (rm : RMode) : Int × Bool :=
  let (n, inexact) := roundMag neg mag e 0 rm
  (if neg then -(n : Int) else n, inexact)

/-- Float to signed integer of w bits (R120). -/
def cvtFloatInt (v : FVal) (w : Nat) (rm : RMode) : Nat × Nat :=
  let lo : Int := -(2 ^ (w - 1) : Nat)
  let hi : Int := (2 ^ (w - 1) : Nat) - 1
  match v with
  | .nan _ => (0, flagNV)
  | .inf n => (bitsI (if n then lo else hi) w, flagNV)
  | .fin n m e =>
    let (y, inexact) := roundToInt n m e rm
    if y < lo then (bitsI lo w, flagNV)
    else if hi < y then (bitsI hi w, flagNV)
    else (bitsI y w, if inexact then flagNX else 0)

/-- Float to float (R120): NaN becomes the target's default NaN; E4M3 takes ±448 for an infinity. -/
def cvtFloat (v : FVal) (dst : FFmt) (rm : RMode) : Nat × Nat :=
  match v with
  | .nan s => (dst.dnan, if s then flagNV else 0)
  | .inf n =>
    if dst.hasInf then ((if n then dst.signBit else 0) + dst.infEnc, 0)
    else ((if n then dst.signBit else 0) + dst.maxEnc, flagOF + flagNX)
  | .fin n _ _ => roundZ dst rm n v.dy

/-- cvt() of R120 with its flags; sat saturates an integer narrowing (R217). -/
def cvt (b : Nat) (src dst : EType) (rm : RMode) (sat : Bool) : Nat × Nat :=
  match src, dst with
  | .flt f, .flt g => cvtFloat (fval f b) g rm
  | .flt f, .int w => cvtFloatInt (fval f b) w rm
  | .int u, .flt g => roundZ g rm false (Dy.ofInt (sextN b u))
  | .int u, .int w => (if sat then sats (sextN b u) w else bitsI (sextN b u) w, 0)

/-- enc(rne(i)) of a small integer in a type (R90). -/
def encInt (i : Int) (t : EType) : Nat :=
  match t with
  | .flt f => (roundZ f .rne false (Dy.ofInt i)).1
  | .int w => bitsI i w

/-- Floating comparison a < b of non-NaN values, zeros equal. -/
def FVal.lt (a b : FVal) : Bool :=
  match a, b with
  | .nan _, _ => false
  | _, .nan _ => false
  | .inf true, .inf true => false
  | .inf true, _ => true
  | _, .inf true => false
  | .inf false, _ => false
  | _, .inf false => true
  | a, b => a.dy.lt b.dy

/-- Floating equality of non-NaN values, +0 = −0. -/
def FVal.eqv (a b : FVal) : Bool :=
  match a, b with
  | .inf m, .inf n => m == n
  | .fin .., .fin .. => a.dy.eqv b.dy
  | _, _ => false

/-- One level of tree() of R125. -/
def treeLevel {α : Type} (op : α → α → α) : List (Option α) → List (Option α)
  | a :: b :: t =>
    (match a, b with
     | none, b => b
     | a, none => a
     | some x, some y => some (op x y)) :: treeLevel op t
  | [a] => [a]
  | [] => []

/-- tree() of R125 with fuel for its levels: the root of the reduction, none where every member is absent. -/
def treeRed {α : Type} (op : α → α → α) : Nat → List (Option α) → Option α
  | _, [] => none
  | _, [a] => a
  | 0, a :: _ => a
  | n + 1, l => treeRed op n (treeLevel op l)

/-- tree() over at most 2^10 members. -/
def tree {α : Type} (op : α → α → α) (l : List (Option α)) : Option α := treeRed op 10 l

/-- One round of philox (R126). -/
def philoxRound (c : Lane × Lane × Lane × Lane) (k0 k1 : Lane) : Lane × Lane × Lane × Lane :=
  let x := 0xD2511F53 * c.1.toNat
  let y := 0xCD9E8D57 * c.2.2.1.toNat
  (BitVec.ofNat 32 (y / 2 ^ 32) ^^^ c.2.1 ^^^ k0, BitVec.ofNat 32 y,
   BitVec.ofNat 32 (x / 2 ^ 32) ^^^ c.2.2.2 ^^^ k1, BitVec.ofNat 32 x)

/-- The rounds of philox left to run. -/
def philoxRounds : Nat → Lane × Lane × Lane × Lane → Lane → Lane → Lane × Lane × Lane × Lane
  | 0, c, _, _ => c
  | n + 1, c, k0, k1 => philoxRounds n (philoxRound c k0 k1) (k0 + 0x9E3779B9#32) (k1 + 0xBB67AE85#32)

/-- philox() of R126: Philox-4×32-10. -/
def philox (c0 c1 c2 c3 k0 k1 : Lane) : Lane × Lane × Lane × Lane := philoxRounds 10 (c0, c1, c2, c3) k0 k1

/-- enc(unitf(w), FP32) of R127. -/
def unitf (w : Lane) : Lane :=
  BitVec.ofNat 32 (roundZ .fp32 .rne false ⟨((w.toNat / 256 : Nat) : Int), -24⟩).1

end Sys2Proof.Machine
end

