-- ==== Sys2Proof/Machine/State.lean ====
section
/-! DEFINITION. The state of the package as plain data: every piece of state the spec gives the machine, the free counter of
the model, and the state right after reset. -/
namespace Sys2Proof.Machine

/-- Why the machine stops as a whole. -/
inductive Fault where
  /-- Raised by a slot instruction when no gang is resident on the core in hand: no step issues a bundle there. Safe: the
  manual gives a slot instruction no meaning without a gang. (DESIGN CHOICE, log 8) -/
  | noGang
  /-- Raised by every step after the hub has failed (R406) or while no power-good has been seen and nothing is left to happen.
  Safe: a package that has stopped runs nothing. (DEDUCED, log 6) -/
  | packageStopped
  deriving DecidableEq, Repr

/-- Why an instruction has no meaning. -/
inductive Refusal where
  /-- Raised by an arm of exec whose instruction has no meaning yet. Safe: nothing is claimed of it. -/
  | notModelled (mnemonic : String)
  deriving DecidableEq, Repr

/-- A register file: register k holds what is listed at k, 0 where nothing is listed (R30). -/
abbrev RegFile (n : Nat) := List (Nat × BitVec n)

/-- The bytes of a memory by address, in the canonical form of Sparse.lean over 0. -/
abbrev Bytes := List Host.Cell

/-- The canonical form of a memory: addresses strictly rising, no entry equal to what an unlisted address reads as.
(DESIGN CHOICE, log 2) -/
def Memory.wf (m : Bytes) : Bool := sparseWf (0 : Byte) m

/-- The fault codes of a gang (R46). -/
inductive GFault where
  | illegalCode | illegalTarget | illegalEncoding | regRange | xbarCollision | stack | splitMismatch | bindDiverge | shape
  | queueOverflow | queueUnderflow | page | permission | sparse | alignment | scratchRange | poison | timing | brk | hwFence
  deriving DecidableEq, Repr

/-- A memory fault held on a queue entry (R192, R193): code, address of the lowest faulting lane, lanes and DETAIL. -/
structure MemFault where
  code : GFault
  vaddr : Word
  lanes : BitVec 32
  detail : Nat
  /-- reason and level of the translation behind it (R358, R360) -/
  reason : Nat := 0
  level : Nat := 0
  deriving DecidableEq, Repr

/-- A fault of the bundle at PC as R47 and R48 record it. slot uses R48's codes (14: no slot, 15: release); rank is R47's
category; queue 0xFF: none. -/
structure FaultRec where
  code : GFault
  rank : Nat
  slot : Nat
  queue : Nat
  engmask : Mask
  detail : Nat
  vaddr : Word
  lanes : BitVec 32
  reason : Nat := 0
  level : Nat := 0
  deriving DecidableEq, Repr

/-- What an access does when it is performed. -/
inductive AccKind where
  | load | store
  /-- an atomic: AOP, and whether its operand is 64 bits -/
  | atom (aop : Nat) (w64 : Bool)
  /-- a SCOP: 0 ld, 1 st, 2 exch, 3 cas -/
  | scop (kind : Nat)
  /-- a counting update of n on a lap word -/
  | lapadd (n : Nat)
  | rpass | rtakeStatus | rtakeRecord | rtakeCount | rtakeArm
  /-- TXEND: the status of the transaction's lanes -/
  | txend
  | pcommit (big : Bool) | prelease (big : Bool)
  /-- a TLBINV: its size code, or all -/
  | tlbinv (size : Nat) (all : Bool)
  /-- a tile row store by the X slot's TST, or a long store -/
  | long
  deriving DecidableEq, Repr

/-- How a transaction takes part in a piece (R297, R303, R309). (DEDUCED, log 62) -/
inductive PieceTx where
  | plain
  /-- a transactional load of log id: the bytes of mask come from the write log as it stood at issue -/
  | logged (id mask : Nat)
  /-- a part of a doomed lane: it reads 0 -/
  | dead
  /-- a part of a serial member -/
  | serial
  deriving DecidableEq, Repr

/-- One piece of an access: the lane (or operation) it belongs to, its address with its tag, and its bytes. -/
structure Piece where
  lane : Nat
  addr : Word
  bytes : Nat
  /-- the data stored, low bytes first -/
  data : Nat
  tx : PieceTx := .plain
  /-- for a part of a block: the block's length, and the part's place in it, by which its alignment is checked (R181, R297) -/
  block : Option (Nat × Nat) := none
  deriving DecidableEq, Repr

/-- A cached leaf (R361): its ASID, level, first virtual address, frame and permissions. -/
structure TcEntry where
  asid : Nat
  level : Nat
  va : Nat
  frame : Nat
  rd : Bool
  wr : Bool
  sparse : Bool
  deriving DecidableEq, Repr

/-- An access of one engine: what it does, its pieces, its scope, the source operands of an atomic or SCOP, and the fields
that a fault record shows (R193). (DESIGN CHOICE, log 10) -/
structure Access where
  kind : AccKind
  opcode : Nat
  sizeCode : Nat
  write : Bool
  scope : Nat
  block : Bool
  pieces : List Piece
  /-- atomic and SCOP operands; an RPASS record; by operation -/
  data : Vec
  cmp : Vec
  /-- the transaction that a TXEND closes -/
  txid : Nat := 0
  /-- load queue of its slot (R63, R350) -/
  lq : Nat := 0
  /-- next place in program order when its region began -/
  from_ : Nat := 0
  /-- a fault that every piece meets before its address is formed (R181) -/
  pre : Option (GFault × Nat) := none
  deriving DecidableEq, Repr

/-- What a queue entry has become: its data or its fault. -/
inductive EntryResult where
  | data (v : Vec)
  | fault (f : MemFault)
  deriving DecidableEq, Repr

/-- An entry of q0, q1 or iq (R171-R173). -/
structure QEntry where
  /-- place in the engine's program order -/
  serial : Nat
  acc : Access
  issued : Nat
  /-- earliest cycle at which the access can be complete -/
  readyAt : Nat
  result : Option EntryResult
  /-- performed: its data, which arrive at readyAt -/
  held : Option Vec := none
  /-- an invalidation for it is under way; for a TXEND, it has waited for the serial lock (R309) -/
  begun : Bool := false
  /-- leaves through which it was translated before an invalidation removed them (R368) -/
  pins : List TcEntry := []
  /-- the cycle in which it arrived at the unit that performs it, where it has had to wait there (R177, R350, R364) -/
  arrived : Option Nat := none
  /-- in q1 together with entries of a gathering walker and of M1, so that no one knows which of them a pop returns (R329) -/
  mixed : Bool := false
  /-- the cycle of the bundle that popped it; retained until the next restart point -/
  popped : Option Nat
  deriving DecidableEq, Repr

/-- An entry of the store queue (R171, R192): a held store, or the marker place of an immediate operation. -/
structure SQEntry where
  serial : Nat
  acc : Access
  /-- none: a held store; some none: the empty place of an operation that did not fault; some (some f): its marker -/
  marker : Option (Option MemFault)
  /-- cycle at which a TST entry is complete, or an immediate operation can be performed; a store is complete at issue -/
  completeAt : Nat
  /-- an immediate operation has been performed -/
  finished : Bool := false
  /-- an invalidation for it is under way -/
  begun : Bool := false
  issued : Nat := 0
  /-- as for a queue entry -/
  arrived : Option Nat := none
  /-- a faulted marker whose operation a resume has it perform again, in store-queue order (R192) -/
  reopened : Bool := false
  deriving DecidableEq, Repr

/-- A fence, QSYNC or TXBEGIN in an engine's program order (R63, R65, R299, R309). kind: 0 acq, 1 rel, 2 ar, 3 QSYNC, 4 TXBEGIN,
5 TXBEGIN.serial. (DEDUCED, log 27) -/
structure FenceMark where
  serial : Nat
  kind : Nat
  scope : Nat
  /-- next place in program order when its region began -/
  from_ : Nat := 0
  /-- the event by which the stores of earlier regions are written back (R61); none while it has not started -/
  wbDone : Option Nat := none
  /-- the same for the stores of its own region that precede it -/
  ownDone : Option Nat := none
  /-- the barrier of its level that it belongs to, counted from 1; 0 for none (R73) -/
  inst : Nat := 0
  deriving DecidableEq, Repr

/-- What lands in an engine (R33). Values are whole registers, but for a V result (the bits written and their values), an
e-register (the bits written) and the flags. -/
inductive EPay where
  | e (i : Nat) (mask v : Word)
  | a (i : Nat) (inc : Bool) (v : Word)
  | st (i : Nat) (v : Lane)
  | h (i : Nat) (v : Word)
  | v (i : Nat) (mask val : Vec)
  | cb (i : Nat) (v : BitVec 256)
  | sc (i : Nat) (hi : Bool) (v : Vec)
  | att (i : Nat) (v : Vec)
  | x (i : Nat) (v : Vec)
  | sb (v : Lane)
  | flags (f : Nat)
  /-- a tile written whole, by rows of 64 FP32 -/
  | tile (i : Nat) (rows : List (BitVec 2048))
  | cr (addr : Nat) (v : Word)
  /-- a register of the walker's shadow set (R315) -/
  | iw (i : Nat) (v : Word)
  /-- the limb-chain binding (R285): base engine, engines and code -/
  | bind (base engs code : Nat)
  deriving DecidableEq, Repr

/-- A result in flight in an engine: when it was issued and the cycle in which it lands. -/
structure ELand where
  issued : Nat
  due : Nat
  pay : EPay
  deriving DecidableEq, Repr

/-- What lands in a sequencer. -/
inductive SPay where
  | s (i : Nat) (v : Word)
  | g (i : Nat) (mask v : Mask)
  | cr (addr : Nat) (v : Word)
  /-- a register of a unit's shadow set (R152): 0 CP0, 1 CP1, 3 CL -/
  | shadow (unit i : Nat) (v : Word)
  deriving DecidableEq, Repr

/-- A result in flight in a sequencer. -/
structure SLand where
  issued : Nat
  due : Nat
  pay : SPay
  deriving DecidableEq, Repr

/-- Why a bundle waits (R35). -/
inductive WaitKind where
  | queue | matrix | event | baton | barrier | merge
  deriving DecidableEq, Repr

/-- LOOP and loop-buffer state (R143): the body's first and last bundle, iterations still to begin, whether the iteration in progress
issues from the loop buffer, and whether the next bundle to issue begins a later iteration. -/
structure LoopState where
  first : Nat
  last : Nat
  remain : Nat
  buffered : Bool
  turn : Bool := false
  deriving DecidableEq, Repr

/-- What else an S0 instruction does when its bundle commits. -/
inductive CtlAct where
  | none
  /-- the spare starts on these engines at this code address (R149) -/
  | split (other : Mask) (target : Nat)
  /-- both sub-gangs merge (R151) -/
  | merge
  | exit
  | brk
  deriving DecidableEq, Repr

/-- What the S0 instruction of a bundle makes of the PC, the active mask and the stack, in force for the next bundle (R130). -/
structure SeqCtl where
  pc : Nat
  taken : Bool
  active : Mask
  stack : RegFile 64
  resident : Nat
  spilled : Nat
  callDepth : Nat
  loop : Option LoopState
  act : CtlAct := .none
  deriving DecidableEq, Repr

/-- The performance counters of a sequencer (R167). -/
structure Perf where
  issued : Word := 0
  qwait : Word := 0
  xwait : Word := 0
  swait : Word := 0
  traps : Word := 0
  longWait : Word := 0
  deriving DecidableEq, Repr

/-- One half of the gang status block (R48). -/
structure Status where
  state : Nat := 0
  fault : Nat := 0
  engmask : Mask := 0
  pc : Nat := 0
  rppc : Nat := 0
  slot : Nat := 0
  queue : Nat := 0
  traps : Nat := 0
  detail : Nat := 0
  vaddr : Word := 0
  lanes : BitVec 32 := 0
  cycle : Nat := 0
  deriving DecidableEq, Repr

/-- The sealed batch of a sequencer's engines (R39): each engine's entries in store-queue order, the cycle from which it is
translated (R365), its release fault when translating it has failed, and the place in program order at which each engine's region
ends. -/
structure Batch where
  entries : List (Nat × List SQEntry)
  sealedAt : Nat
  fault : Option FaultRec
  ends : List (Nat × Nat) := []
  deriving DecidableEq, Repr

/-- The sequencer state (R129), for the primary and for the spare. -/
structure Seq where
  pc : Nat := 0
  active : Mask := 0
  s : RegFile 64 := []
  g : RegFile 16 := []
  stack : RegFile 64 := []
  resident : Nat := 0
  spilled : Nat := 0
  callDepth : Nat := 0
  loop : Option LoopState := none
  lands : List SLand := []
  ctl : Option SeqCtl := none
  /-- cycle before which the next bundle does not issue, its literal cost apart (R80) -/
  base : Nat := 0
  /-- the last cycle in which the bundle at PC was tried and had to wait -/
  tried : Option Nat := none
  /-- the wait in progress and the cycle in which it began (R35) -/
  wait : Option (WaitKind × Nat) := none
  rppc : Nat := 0
  /-- consecutive timing traps at rppc (R42) -/
  traps : Nat := 0
  /-- an immediate operation has issued in the region (R40) -/
  immediate : Bool := false
  /-- the restart point at PC has been checkpointed and reissues (R41 step 4) -/
  reissue : Bool := false
  /-- the barrier of the bundle at PC has been counted as arrived (R160) -/
  arrived : Bool := false
  /-- the length that turns the queue wait in progress into a timing trap (R36) -/
  bound : Nat := 0
  /-- stopped at a restart point by a pre-emption request (R49) -/
  stopped : Bool := false
  /-- the cycle in which an ECC correction last delayed the array of one of its engines beyond its busy time (R41)
(DEDUCED, log 17) -/
  eccLate : Option Nat := none
  perf : Perf := {}
  batch : Option Batch := none
  status : Status := {}
  deriving DecidableEq, Repr

/-- An operation in the command queue of a copy engine or of the collective port (R153, R315): the shadow set as ENGGO copied
it, the baton it produces and those it consumes, and how far it has come. -/
structure UnitOp where
  regs : RegFile 64
  opcode : Nat
  baton : Nat
  consumes : List Nat
  issued : Nat
  /-- lowest-numbered engine active when the ENGGO issued (R318) -/
  engine : Nat
  /-- places in the program order of the engines active at issue, behind which it starts (R153, R65) -/
  marks : List (Nat × Nat) := []
  started : Option Nat := none
  /-- first element of the next chunk (R318): 65536 · (row i2·N1 + i1) + i0 -/
  chunk : Nat := 0
  /-- source lines issued for the chunks that have landed (R320) -/
  lines : Nat := 0
  /-- source lines that were translated before an invalidation removed the leaves listed, the cycle in which the last of them returns
  to the copy engine, and those whose data the copy engine held when it acknowledged (R368) -/
  pinned : Nat := 0
  pins : List TcEntry := []
  returns : Nat := 0
  caught : List (Nat × BitVec 1024) := []
  /-- source bytes that the operation has overwritten as destination bytes, as they were before: their places (global bytes by physical
address, others by squad position, engine and offset), and the bytes (R323) -/
  kept : List ((Nat × Nat × Nat × Nat) × Byte) := []
  /-- cycle in which the last landed chunk landed -/
  lastLand : Nat := 0
  /-- the fault that stopped it (R331): code, address, DETAIL bits 2:0 -/
  fault : Option MemFault := none
  deriving DecidableEq, Repr

/-- A copy engine or the collective port: its shadow set and command queue, running operation first (R153, R315). -/
structure UnitState where
  shadow : RegFile 64 := []
  queue : List UnitOp := []
  deriving DecidableEq, Repr

/-- An ENGGO.IW: the walkers it starts, the batons, and when it started (R154, R315, R330). -/
structure IwOp where
  id : Nat
  baton : Nat
  consumes : List Nat
  issued : Nat
  engines : Mask
  marks : List (Nat × Nat) := []
  started : Option Nat := none
  /-- the cycle in which the last of its walkers completed, and its fault -/
  lastDone : Nat := 0
  fault : Option MemFault := none
  deriving DecidableEq, Repr

/-- A walker operation in one engine (R327, R328): its shadow set, the tile and batch of its next push, batches pushed. -/
structure WalkOp where
  id : Nat
  regs : RegFile 64
  started : Option Nat := none
  tile : Nat := 0
  batch : Nat := 0
  pushed : Nat := 0
  done : Bool := false
  fault : Option MemFault := none
  deriving DecidableEq, Repr

/-- A baton that carries a fault (R331). -/
structure FaultedBaton where
  baton : Nat
  code : GFault
  vaddr : Word
  detail : Nat
  /-- reason and level of the translation behind it (R360) -/
  reason : Nat := 0
  level : Nat := 0
  deriving DecidableEq, Repr

/-- A SIGNAL on its way to a gang (R158): the gang named (task handle, squad, position), and the issuing core with the places in
program order behind which it is performed (R65). -/
structure PendingSignal where
  due : Nat
  who : Nat × Nat × Nat
  from_ : Nat
  marks : List (Nat × Nat) := []
  deriving DecidableEq, Repr

/-- The limb-chain binding of an engine (CR_BIND, R286): base engine, engines of the chain and its code. -/
structure BindReg where
  base : Nat := 0
  engs : Nat := 1
  code : Nat := 0
  deriving DecidableEq, Repr

/-- A scratchpad read of the tile port that is still to be made (R251, R252, R260): kind 0 plain LATLD, 1 rank-expand, 2 TLD. -/
structure XLoad where
  kind : Nat
  dst : Nat
  m : Nat
  n : Nat
  bytes : Nat
  off : Nat
  pitch : Int
  ncut : Nat
  deriving DecidableEq, Repr

/-- An X-slot operation in flight (R253-R255): the tile and latch rows it lands whole at due, or the read it makes then.
(DEDUCED, log 15) -/
structure XOp where
  issued : Nat
  due : Nat
  serial : Nat
  opcode : Nat
  rows : List (Nat × BitVec 2048)
  load : Option XLoad
  /-- the address of a poisoned word that it has read: its destination is undefined, and the gang halts (R265) -/
  bad : Option Word := none
  deriving DecidableEq, Repr

/-- A read-log entry (R300): lane, sector VA; physical address and value once the part has been performed. -/
structure TxRead where
  lane : Nat
  va : Nat
  pa : Option Nat := none
  value : Option (BitVec 256) := none
  deriving DecidableEq, Repr

/-- A write-log entry (R300). -/
structure TxWrite where
  lane : Nat
  va : Nat
  /-- address of the first lane part merged into it (R298) -/
  part : Nat := 0
  data : BitVec 256 := 0
  mask : BitVec 32 := 0
  deriving DecidableEq, Repr

/-- A transaction: members, doomed lanes with their causes, and its logs (R297-R303). -/
structure TxLog where
  id : Nat := 0
  serial : Bool := false
  members : BitVec 32 := 0
  doomed : BitVec 32 := 0
  causes : List (Nat × Nat) := []
  reads : List TxRead := []
  writes : List TxWrite := []
  deriving DecidableEq, Repr

/-- The transaction unit of an engine (R298): the current or last transaction, and closed ones whose TXEND is still to be
performed. -/
structure TxState where
  opened : Bool := false
  cur : TxLog := {}
  closing : List TxLog := []
  count : Nat := 0
  limit : Nat := 8
  fcode : Nat := 0
  flane : Nat := 0
  fva : Nat := 0
  nextId : Nat := 1
  deriving DecidableEq, Repr

/-- A scratchpad bank (R177): the first cycle free of the passes of its own engine's M0 and M1 accesses, and the first free of those of
the last other access. (DEDUCED, log 78) -/
structure Bank where
  own : Nat := 0
  until_ : Nat := 0
  deriving DecidableEq, Repr

/-- An engine of a gang: its registers (R87), queues (R171), results in flight and the times at which its units are free. -/
structure Engine where
  e : RegFile 64 := []
  a : RegFile 64 := []
  st : RegFile 32 := []
  v : RegFile 1024 := []
  /-- tiles c0-c7: row m of tile i is register 64·i + m, element n its bits 32n+31:32n -/
  c : RegFile 2048 := []
  /-- latches l0-l3: row k of latch i is register 64·i + k, 256 bytes -/
  l : RegFile 2048 := []
  h : RegFile 64 := []
  cb : RegFile 256 := []
  sc : RegFile 2048 := []
  att : RegFile 1024 := []
  /-- pattern registers as the low 272 bits of the register that XPLD copies: entries in bytes 0-31, MODE in bytes 32-33 -/
  x : RegFile 1024 := []
  /-- stencil base -/
  sb : Lane := 0
  capRows : Nat := 64
  fpflags : Nat := 0
  rcut : Nat := 64
  rthr : Word := 0
  rfill : Lane := 0
  bind : BindReg := {}
  /-- IW shadow set and the walker's operations, running first (R315, R327) -/
  iwShadow : RegFile 64 := []
  walks : List WalkOp := []
  q0 : List QEntry := []
  q1 : List QEntry := []
  iq : List QEntry := []
  sq : List SQEntry := []
  /-- CR_QOCC as the restart point that issues now found it, before it freed and sealed (R175); none at other times -/
  occSeen : Option Word := none
  fences : List FenceMark := []
  /-- next place in program order -/
  serial : Nat := 0
  /-- next place when the current region began -/
  regionFrom : Nat := 0
  /-- lines of the die cache that its released stores have reached, and those that its loads and atomics have read dirty (R65) -/
  wrote : List Nat := []
  seen : List Nat := []
  /-- the order-wheel turn in which it last performed a SCOP (R67) -/
  scopTurn : Option Nat := none
  lands : List ELand := []
  xops : List XOp := []
  /-- busy bits (R253): tile i at i, latch i at 8 + i, by the cycle in which they clear -/
  busy : List (Nat × Nat) := []
  arrayFree : Nat := 0
  portFree : Nat := 0
  /-- the 31 scratchpad banks, by number (R177) -/
  banks : List (Nat × Bank) := []
  /-- poisoned sectors of 32 bytes of the scratchpad, and of the ceiling store from 2^20 on (R194, R405) -/
  poison : RegFile 1 := []
  /-- cycle before which no ranking instruction may issue, and the destinations of the last one (R279) -/
  rankFree : Nat := 0
  rankDst : List Nat := []
  /-- the scratchpad (R56) (DESIGN CHOICE, log 2) -/
  scratch : Bytes := []
  /-- the ceiling store (R249) (DESIGN CHOICE, log 2) -/
  ceil : Bytes := []
  tx : TxState := {}
  deriving DecidableEq, Repr

/-- The step's subject: for an event the core, sequencer, engine, queue or unit and identity it concerns; for a slot instruction
the issuing sequencer, its slot and the active mask in force when its bundle issues (R130). -/
structure Ctx where
  core : Nat := 0
  spare : Bool := false
  engine : Nat := 0
  unit : Nat := 0
  id : Nat := 0
  value : Word := 0
  slot : Slot := .s0
  act : Mask := 0xFFFF
  deriving DecidableEq, Repr

/-- The checkpoint that a restart point takes of its sequencer and of the engines it drives (R38). (DEDUCED, log 14) -/
structure Ckpt where
  at_ : Nat
  seq : Seq
  engines : List (Nat × Engine)
  split : Bool
  splitTag : Nat
  splitDepth : Nat
  splitEngines : Mask
  /-- event bits and batons that the restart point's WAIT or BWAIT cleared (R157) -/
  events : Nat := 0
  batons : BitVec 32 := 0
  deriving DecidableEq, Repr

/-- What the descriptor and the placement give a gang for its life (R28, R175, R377). -/
structure GangInfo where
  asid : Nat := 0
  handle : Nat := 0
  prio : Nat := 0
  /-- linear squad number and coordinates -/
  squad : Nat := 0
  xyz : Nat × Nat × Nat := (0, 0, 0)
  grid : Nat × Nat × Nat := (1, 1, 1)
  pos : Nat := 0
  ngang : Nat := 1
  span : Bool := false
  ndie : Nat := 1
  dix : Nat := 0
  sameDie : BitVec 32 := 1
  /-- core of each squad position -/
  cores : List Nat := []
  regsA : Nat := 0
  regsB : Nat := 0
  regsC : Nat := 0
  regsS : Nat := 0
  spSize : Nat := 0
  ceilSize : Nat := 0
  lpBase : Nat := 0
  lpSize : Nat := 0
  ntile : Nat := 0
  nlatch : Nat := 0
  saveBase : Nat := 0
  autoCommit : Bool := false
  deriving DecidableEq, Repr

/-- How a gang stands. (DEDUCED, log 56) -/
inductive GangState where
  | running | faulting | halted | preempted | exiting | exited | cancelled
  deriving DecidableEq, Repr

/-- The gang resident on a core. -/
structure Gang where
  info : GangInfo := {}
  st : GangState := .running
  code : List CodeWord := []
  dict : List BundleBits := []
  stencil : List Lane := []
  live : Mask := 0xFFFF
  gangCap : Nat := 64
  prim : Seq := {}
  spare : Seq := {}
  split : Bool := false
  splitTag : Nat := 0
  splitDepth : Nat := 0
  /-- engines that the spare drives while split -/
  splitEngines : Mask := 0
  spareLive : Bool := true
  engines : List Engine := []
  ckptP : Option Ckpt := none
  ckptS : Option Ckpt := none
  events : BitVec 4 := 0
  /-- event bits that the hardware has set in this cycle: no clearing of this cycle removes them (R132) -/
  freshEvents : BitVec 4 := 0
  timer : Nat := 0
  /-- CR_TIMER has just reached 0 by decrement -/
  timerDue : Bool := false
  lapGate : Mask := 0xFFFF
  watchdog : Nat := 4096
  batons : BitVec 32 := 0
  badBatons : List FaultedBaton := []
  cp0 : UnitState := {}
  cp1 : UnitState := {}
  cl : UnitState := {}
  iwOps : List IwOp := []
  iwNext : Nat := 0
  /-- lines of the die cache that its copy engines have written (R322) -/
  copied : List Nat := []
  /-- CR_XLFAULT REASON and LEVEL (R360) -/
  xlReason : Nat := 0
  xlLevel : Nat := 0
  preempts : Nat := 0
  preemptReq : Bool := false
  /-- stopped, and the event of its release at package scope (R74, R389) -/
  saveDue : Option Nat := none
  /-- its save has been written (R389) -/
  saved : Bool := false
  /-- it has cancelled its own task: no later bundle issues (R382) -/
  selfCancelled : Bool := false
  /-- a restart has discarded a TXBEGIN.serial: the lock, or its place in the order of requests, is kept for the replay (R310) -/
  lockKept : Bool := false
  /-- its halt has been reported: the resident agent does not repair it (R374) -/
  reported : Bool := false
  /-- collective operations started on each group identity (R338): MASK + 2³²·PEN + 2³³·PEER -/
  clCount : List (Nat × Nat) := []
  /-- rings this gang watches have raised an event while it was saved (R352) -/
  ringPend : Bool := false
  /-- barriers arrived at, by level (R160) -/
  arrivals : List Nat := [0, 0, 0]
  /-- cycle of its last arrival at package level -/
  arriveAt : Nat := 0
  /-- faults raised by the bundle in hand, and the one that halts the gang -/
  raised : List FaultRec := []
  halt : Option FaultRec := none
  /-- the sub-gang that raised it -/
  haltSpare : Bool := false
  deriving DecidableEq, Repr

/-- A line of a die cache (R56, R58): the bytes it holds, those that are dirty, the data, and PREF.dcx's mark (R190). -/
structure CacheLine where
  valid : BitVec 128 := 0
  dirty : BitVec 128 := 0
  data : BitVec 1024 := 0
  first : Bool := false
  deriving DecidableEq, Repr

/-- Where bytes on their way are performed (R39): a scratchpad bank, or the die cache of a C-die at a physical address. -/
inductive Target where
  | scratch (core engine : Nat)
  | die (die : Nat)
  /-- a serial member's store, written through (R309) -/
  | home
  deriving DecidableEq, Repr

/-- The released bytes of one store-queue entry on their way to one place where they are performed (R39): the owner, its place in
program order, and the writes in ascending lane order, each an address and its bytes, low byte first. gate: it stands behind a release of
its own region that is not over (R65, R188), and due counts from the cycle in which that is. -/
structure Transit where
  due : Nat
  core : Nat
  engine : Nat
  serial : Nat
  target : Target
  writes : List (Nat × List Byte)
  gate : Bool := false
  deriving DecidableEq, Repr

/-- An optimistic commit that has begun to take its locks (R306-R308): the TXEND's core, engine, queue and place, the log it commits, its
sectors by physical address, ascending, and how many of them it has locked, its write entries with their sectors, the lanes
validated so far with their causes, and, once it holds every lock, the cycle in which it unlocks and its entry resolves. -/
structure Commit where
  core : Nat
  engine : Nat
  q : Nat
  serial : Nat
  log : TxLog
  sectors : List Nat
  taken : Nat := 0
  writes : List (TxWrite × Nat)
  causes : List Nat := []
  ends : Nat := 0
  deriving DecidableEq, Repr

/-- A line on its way from a die cache to its home slice (R61), and the number of the event that started it.
(DESIGN CHOICE, log 84) -/
structure WriteBack where
  due : Nat
  die : Nat
  line : Nat
  event : Nat := 0
  deriving DecidableEq, Repr

/-- A translation context (R359): the root table and the two pools of clean frames. -/
structure XContext where
  root : Nat
  pool64 : List Nat := []
  pool2m : List Nat := []
  deriving DecidableEq, Repr

/-- An invalidation under way (R367-R369): the operation it belongs to, what it covers, when it reaches the caches, the frames
that the removed entries named, the caches still to acknowledge (0-71 core, 72-215 copy engine, 216-223 die, 224 hub), and the
frame to return. -/
structure Invalidation where
  core : Nat
  engine : Nat
  serial : Nat
  asid : Nat
  base : Nat
  size : Nat
  arrives : Nat
  frames : List (Nat × Nat) := []
  waiting : List Nat
  lastAck : Nat
  release : Option (Nat × Bool)
  deriving DecidableEq, Repr

/-- A released frame on its way back to its pool (R367). -/
structure FrameBack where
  asid : Nat
  frame : Nat
  big : Bool
  deriving DecidableEq, Repr

/-- Bytes that the hub is to write at a virtual address once a release that covers it is over (R367). -/
structure HubWrite where
  asid : Nat
  va : Nat
  bytes : List Byte
  deriving DecidableEq, Repr

/-- A relay ring (R347): its context record and its watcher (task handle, squad, position). -/
structure Ring where
  elastic : Bool
  recsz : Nat
  asid : Nat
  base : Nat
  slots : Nat
  extlim : Nat
  extva : Nat
  head : Nat
  tail : Nat
  count : Nat
  extpages : Nat
  /-- for each committed extension page, in order, its index in EXTVA -/
  pages : List Nat := []
  /-- where each held record stands, oldest first: a primary slot or extension slot -/
  places : List (Bool × Nat) := []
  watch : Option (Nat × Nat × Nat) := none
  deriving DecidableEq, Repr

/-- A RING event on its way to a watcher (R352). -/
structure RingEvent where
  due : Nat
  watcher : Nat × Nat × Nat
  deriving DecidableEq, Repr

/-- A member of a collective instance that has started (R338): its core, rank, parameters, start and contribution. -/
structure CollMember where
  core : Nat
  pos : Nat
  rank : Nat
  started : Nat
  timeout : Nat
  params : Nat × Nat × Nat × Nat × Nat × Nat
  /-- its contribution, low byte first; none when its read faulted -/
  data : Option Nat
  /-- the cycle in which the lookups of its contribution are over (R362) -/
  ready : Nat := 0
  finished : Bool := false
  deriving DecidableEq, Repr

/-- What has become of an instance (R341): open, committed in a cycle, or failed with a cause in a cycle. -/
inductive CollFate where
  | waiting
  | done (at_ : Nat)
  | failed (cause at_ : Nat)
  deriving DecidableEq, Repr

/-- A collective instance (R338): its identity, this package's place and the packages of the group (0 when the peer context is not
installed), its members and its fate. -/
structure CollInst where
  key : CollKey
  prank : Nat := 0
  npkg : Nat := 1
  members : List CollMember := []
  fate : CollFate := .waiting
  deriving DecidableEq, Repr

/-- A peer context (R337): the package's place and the packages of the group. -/
structure PeerCtx where
  prank : Nat
  packages : List Remote
  deriving DecidableEq, Repr

/-- The package's serial lock (R309): its holder, the requests in order of arrival (core), and when it was last granted and
released. -/
structure SerialLock where
  holder : Option Nat := none
  requests : List Nat := []
  granted : Nat := 0
  released : Option Nat := none
  deriving DecidableEq, Repr

/-- A task descriptor (R377). -/
structure Descriptor where
  addr : Nat
  asid : Nat
  prio : Nat
  flags : Nat
  codeVa : Nat
  codeLen : Nat
  dictLen : Nat
  ngang : Nat
  dictVa : Nat
  gx : Nat
  gy : Nat
  gz : Nat
  mincap : Nat
  saved : Nat
  regs : Nat
  scratch : Nat
  ceiling : Nat
  lpSize : Nat
  lpVa : Nat
  saveVa : Nat
  ceilVa : Nat
  ceilLen : Nat
  stenLen : Nat
  stenVa : Nat
  complVa : Nat
  xextVa : Nat
  regionVa : Nat
  nregion : Nat
  edges : List Nat
  deriving DecidableEq, Repr

/-- How a squad stands. -/
inductive SquadState where
  /-- its cores are chosen and its images loaded; it starts in this cycle at the earliest -/
  | placed (starts : Nat)
  | running
  | stopping
  | preempted
  | complete
  deriving DecidableEq, Repr

/-- A squad of a task (R387): its number, state, cores by position, placement cycle, priority there, pre-emptions, and saved gangs by
position. -/
structure Squad where
  num : Nat
  state : SquadState := .running
  cores : List Nat := []
  placedAt : Nat := 0
  /-- effective priority at its placement (R385) -/
  prio : Nat := 0
  preempts : Nat := 0
  /-- its gangs as pre-emption saved them (R391) (DESIGN CHOICE, log 37) -/
  saves : List Gang := []
  deriving DecidableEq, Repr

/-- A task's state (R381). -/
inductive TaskState where
  | queued | ready | running | done | cancelled | failed
  deriving DecidableEq, Repr

/-- A task (R382): its handle, descriptor, launch queue, state, priority with its aging clock, squads, the C-dies it ran on, the
images as decoded at the first placement, and the cleans under way. -/
structure Task where
  handle : Nat
  desc : Descriptor
  queue : Nat
  state : TaskState := .queued
  eff : Nat
  raised : Bool := false
  /-- start of the aging clock while a squad waits -/
  ageFrom : Option Nat := none
  squads : List Squad := []
  dies : BitVec 8 := 0
  code : List CodeWord := []
  dict : List BundleBits := []
  stencil : List Lane := []
  loaded : Bool := false
  accepted : Nat := 0
  /-- regions by group, as the region table gave them (R378) -/
  regions : List (Nat × List (Nat × Nat)) := []
  /-- what its exited gangs' squads gave them, by which their save areas are known (R412) -/
  gone : List GangInfo := []
  /-- edges whose clean has begun, and the event of its write-backs (R383) -/
  cleans : List (Nat × Nat) := []
  /-- the number of the next squad to be placed for the first time, and the squads completed -/
  nextSquad : Nat := 0
  doneSquads : Nat := 0
  /-- the ceiling image, read with the others -/
  ceilImage : List Byte := []
  /-- the last squad has completed, and the event by which its stores are written back (R384) -/
  finishDue : Option Nat := none
  deriving DecidableEq, Repr

/-- A descriptor in a launch queue (R376). -/
structure QueuedSub where
  sub : Submission
  entered : Nat
  deriving DecidableEq, Repr

/-- A submission on its way to its queue (R376), behind the marks of its core's engines (R65). -/
structure Coming where
  due : Nat
  sub : Submission
  marks : List (Nat × Nat) := []
  deriving DecidableEq, Repr

/-- A SYS CANCEL on its way to the scheduler (R164). -/
structure ComingCancel where
  due : Nat
  handle : Nat
  asid : Nat
  core : Nat
  marks : List (Nat × Nat) := []
  deriving DecidableEq, Repr

/-- The scheduler (R376-R389). -/
structure Sched where
  queues : List (List QueuedSub) := List.replicate 64 []
  /-- submissions and cancels on their way -/
  coming : List Coming := []
  cancels : List ComingCancel := []
  lastQueue : Nat := 63
  serveAt : Nat := 0
  tasks : List Task := []
  nextHandle : Nat := 1
  /-- handles of the completed tasks, newest first, whose dies are still known -/
  recent : List Nat := []
  age : Nat := 0
  dropped : Nat := 0
  rejected : Nat := 0
  preemptions : Nat := 0
  placements : Nat := 0
  /-- tasks completed with a notice to the host, oldest first (DESIGN CHOICE, log 58) -/
  notices : List Nat := []
  /-- the cycle until which the resident agent is busy with a halt (R374) -/
  agentFree : Nat := 0
  deriving DecidableEq, Repr

/-- A frame sent and not yet acknowledged (R395). -/
structure TxFrame where
  frame : Frame
  sent : Nat
  times : Nat
  deriving DecidableEq, Repr

/-- A connection (R395): its remote end, the next SEQ to perform, the frames held, the next SEQ to send and the frames sent and
not acknowledged, whether an ACK is owed, and the cycle in which the lookup of the operation to be performed next began. -/
structure Conn where
  remote : Remote
  next : Nat := 0
  held : List Frame := []
  sendSeq : Nat := 0
  unacked : List TxFrame := []
  ackOwed : Option Nat := none
  lookFrom : Option Nat := none
  deriving DecidableEq, Repr

/-- A record of the containment log (R411). -/
structure LogRec where
  level : Nat
  cause : Nat
  unit : Nat
  count : Nat
  cycle : Nat
  addr : Nat
  deriving DecidableEq, Repr

/-- The hub (R393-R406): connections, counters, logs, units fenced, firmware slots. -/
structure Hub where
  /-- BOOTSTAT bits 2:0 and 15:8 -/
  boot : Nat := 0
  bootStep : Nat := 0
  portsUp : List Bool := [false, false, false, false]
  conns : List (Nat × Conn) := []
  /-- the frames sent, oldest first (R393) (DESIGN CHOICE, log 58) -/
  outbox : List Wire := []
  /-- frames dropped and counted (R393, R394) -/
  dropped : Nat := 0
  log : List LogRec := []
  /-- FENCEMAP bits of channels, dies and ports; those of engines and cores are kept with the cores -/
  fences : List (Nat × BitVec 1) := []
  svn : Nat := 0
  fusedSvn : Nat := 0
  /-- the image in the active slot (none: the one the package was delivered with), the bytes written to the inactive slot, its announced
  length, and whether it becomes active at the next reset (R404) -/
  active : Option (List Byte) := none
  image : List (Nat × Byte) := []
  imageLen : Option Nat := none
  imageNext : Bool := false
  /-- messages answered by the mailboxes since reset, newest first: status and reply -/
  replies : List (Nat × List Byte) := []
  deriving DecidableEq, Repr

/-- A core of the package. -/
structure Core where
  gang : Option Gang := none
  fenced : Bool := false
  spareFailed : Bool := false
  /-- rows lost by each engine of the 64 (R19) -/
  lostRows : List (Nat × Nat) := []
  fencedEngines : Mask := 0
  /-- CR_TCMISS (R360), and the cycle in which a MOVTC to it last landed (R135) -/
  tcMiss : Word := 0
  tcSet : Nat := 0
  /-- the core's translation cache and those of its two copy engines -/
  tc : List TcEntry := []
  tcCp0 : List TcEntry := []
  tcCp1 : List TcEntry := []
  deriving DecidableEq, Repr

/-- How far the package has come up (R399). -/
inductive BootStage where
  | off | primer | up | failed | tripped | stopped
  deriving DecidableEq, Repr

/-- The package. (DESIGN CHOICE, log 58) -/
structure State where
  cycle : Nat := 0
  /-- the model's own: the number of the step, under which free values are drawn (DESIGN CHOICE, log 9) -/
  free : Nat := 0
  ctx : Ctx := {}
  /-- the model's own: what the outside world does next, and scheduling choices the manual leaves open (DESIGN CHOICE, log 4) -/
  inputs : List Instr := []
  cores : List Core := List.replicate 72 {}
  /-- bytes at the home slices and LPDDR 5X by physical address (DESIGN CHOICE, log 2) -/
  mem : Bytes := []
  /-- poisoned sectors by number (R194) -/
  poison : RegFile 1 := []
  /-- lines present in their home slice: a matter of timing only (R178) -/
  homeLines : RegFile 1 := []
  dieCaches : List (List (Nat × CacheLine)) := List.replicate 8 []
  transit : List Transit := []
  writeBacks : List WriteBack := []
  /-- the model's own: the number of the next event that starts write-backs, by which its waiter knows them (DESIGN CHOICE, log 84) -/
  wbNext : Nat := 1
  signals : List PendingSignal := []
  stage : BootStage := .off
  /-- translation caches of the dies and of the hub -/
  dieTc : List (List TcEntry) := List.replicate 8 []
  hubTc : List TcEntry := []
  contexts : List (Nat × XContext) := []
  invs : List Invalidation := []
  framesBack : List FrameBack := []
  /-- writes of the hub that wait for a release under way, oldest first (R367) -/
  hubLater : List HubWrite := []
  rings : List (Nat × Ring) := []
  ringEvents : List RingEvent := []
  coll : List CollInst := []
  peers : List (Nat × PeerCtx) := []
  lock : SerialLock := {}
  /-- commits that hold sector locks, oldest first (R308) -/
  commits : List Commit := []
  sched : Sched := {}
  hub : Hub := {}
  deriving DecidableEq, Repr

/-- The machine right after reset (R4, R399): power-good has not been seen, nothing is resident, no memory byte is listed.
(DESIGN CHOICE, log 1) -/
def State.reset : State := {}

end Sys2Proof.Machine
end

