-- ==== Sys2Proof/Machine/Ops.lean ====
section
/-! DEFINITION. The named operations over the package's state: reaching cores, gangs, sequencers and engines; results that land
at their published latencies (R33, R34); free values; taking a gang fault (R43-R48) and resuming from one (R45). -/
namespace Sys2Proof.Machine

/-- The outcome of a step of this machine. -/
abbrev Out := Host.Outcome State Fault Refusal

/-! ## Reaching into the state -/

/-- Core i. -/
def State.core (s : State) (i : Nat) : Core := s.cores.getD i {}
/-- s with core i changed by f. -/
def State.modCore (s : State) (i : Nat) (f : Core → Core) : State := { s with cores := modAt s.cores i f }
/-- The gang resident on core i. -/
def State.gang (s : State) (i : Nat) : Option Gang := (s.core i).gang
/-- s with the gang on core i changed by f. -/
def State.modGang (s : State) (i : Nat) (f : Gang → Gang) : State :=
  s.modCore i (fun c => { c with gang := c.gang.map f })
/-- s with g as the gang on core i. -/
def State.putGang (s : State) (i : Nat) (g : Gang) : State := s.modCore i (fun c => { c with gang := some g })
/-- The sequencer that drives a sub-gang. -/
def Gang.seq (g : Gang) (spare : Bool) : Seq := if spare then g.spare else g.prim
/-- g with the sequencer of a sub-gang changed by f. -/
def Gang.modSeq (g : Gang) (spare : Bool) (f : Seq → Seq) : Gang :=
  if spare then { g with spare := f g.spare } else { g with prim := f g.prim }
/-- Engine i of a gang. -/
def Gang.eng (g : Gang) (i : Nat) : Engine := g.engines.getD i {}
/-- g with engine i changed by f. -/
def Gang.modEng (g : Gang) (i : Nat) (f : Engine → Engine) : Gang := { g with engines := modAt g.engines i f }
/-- Engine e is in a set of engines. -/
def inMask (m : Mask) (e : Nat) : Bool := m.getLsbD e
/-- The engines of a set, ascending. -/
def maskList (m : Mask) : List Nat := (below 16).filter (inMask m)
/-- The set of a list of engines. -/
def maskOf (l : List Nat) : Mask := l.foldl (fun m e => m ||| (1#16 <<< e)) 0
/-- Each engine of the list that stands in a set, changed by f (its number, the engine). -/
def mapEngs (act : Mask) (i : Nat) (l : List Engine) (f : Nat → Engine → Engine) : List Engine :=
  match l with
  | [] => []
  | en :: t => (if inMask act i then f i en else en) :: mapEngs act (i + 1) t f
/-- g with every engine of a set changed by f. -/
def Gang.mapAct (g : Gang) (act : Mask) (f : Nat → Engine → Engine) : Gang :=
  { g with engines := mapEngs act 0 g.engines f }
/-- The engines that a sequencer drives: all live ones, or its sub-gang's while split (R150). -/
def Gang.driven (g : Gang) (spare : Bool) : Mask :=
  if spare then (if g.split then g.splitEngines else 0)
  else if g.split then g.live &&& ~~~ g.splitEngines else g.live

/-- A slot meaning: it acts on the gang of the core in hand, and stops where there is none. (DESIGN CHOICE, log 8) -/
def slotGang (s : State) (f : Gang → Gang) : Out :=
  match s.gang s.ctx.core with
  | none => .fault .noGang
  | some g => .next (s.putGang s.ctx.core (f g))

/-- A slot meaning that also acts on the package. -/
def slotState (s : State) (f : Gang → State) : Out :=
  match s.gang s.ctx.core with
  | none => .fault .noGang
  | some g => .next (f g)

/-! ## Free values -/

/-- A tag that tells the places free values are drawn for apart. -/
def freeTag (kind core engine reg : Nat) : Nat := ((kind * 128 + core) * 16 + engine) * 4096 + reg

/-! ## Results in flight (R33, R34) -/

/-- Engine en with a result issued now that lands lat cycles later. -/
def Engine.land (en : Engine) (now lat : Nat) (p : EPay) : Engine :=
  { en with lands := en.lands ++ [⟨now, now + lat, p⟩] }
/-- A sequencer with a result issued now that lands lat cycles later. -/
def Seq.land (q : Seq) (now lat : Nat) (p : SPay) : Seq := { q with lands := q.lands ++ [⟨now, now + lat, p⟩] }

/-- Whether two results write one register of an engine. Post-increments of M0 and M1 do not clash: M1's stands (R168). -/
def EPay.clash (p q : EPay) : Bool :=
  match p, q with
  | .e i _ _, .e j _ _ => i == j
  | .a i m _, .a j n _ => i == j && !(m && n)
  | .st i _, .st j _ => i == j
  | .h i _, .h j _ => i == j
  | .v i _ _, .v j _ _ => i == j
  | .cb i _, .cb j _ => i == j
  | .sc i m _, .sc j n _ => i == j && m == n
  | .att i _, .att j _ => i == j
  | .x i _, .x j _ => i == j
  | .sb _, .sb _ => true
  | .tile i _, .tile j _ => i == j
  | .cr i _, .cr j _ => i == j
  | .iw i _, .iw j _ => i == j
  | .bind _ _ _, .bind _ _ _ => true
  | _, _ => false

/-- Whether two results write one register of a sequencer (g-registers by bit are one register). -/
def SPay.clash (p q : SPay) : Bool :=
  match p, q with
  | .s i _, .s j _ => i == j
  | .g i _ _, .g j _ _ => i == j
  | .cr i _, .cr j _ => i == j
  | .shadow u i _, .shadow v j _ => u == v && i == j
  | _, _ => false

/-- old with the bits of mask taken from val. -/
def mergeBits {n : Nat} (old mask val : BitVec n) : BitVec n := (old &&& ~~~ mask) ||| (val &&& mask)

/-- The rows of a tile written at its place in the file. -/
def putRows (c : RegFile 2048) (base : Nat) (rows : List (BitVec 2048)) : RegFile 2048 :=
  match rows with
  | [] => c
  | r :: t => putRows (sput 0 c base r) (base + 1) t

/-- A write to a per-engine control register (R121, R271, R298), field by field: reserved bits are dropped and limits applied; CR_RCUT is clamped
to 1-64, CR_FPFLAGS takes bits 4:0. -/
def Engine.writeCr (en : Engine) (addr : Nat) (v : Word) : Engine :=
  if addr = 0x00A then { en with fpflags := v.toNat % 32 }
  else if addr = 0x200 then { en with rcut := max 1 (min 64 (v.toNat % 128)) }
  else if addr = 0x201 then { en with rthr := v &&& 0x1FFFFFFFF#64 }
  else if addr = 0x202 then { en with rfill := v.setWidth 32 }
  else if addr = 0x302 then { en with tx := { en.tx with count := v.toNat % 65536 } }
  else if addr = 0x303 then { en with tx := { en.tx with limit := v.toNat % 65536 } }
  else en

/-- One result takes its place (R33). -/
def Engine.apply (en : Engine) (p : EPay) : Engine :=
  match p with
  | .e i m v => { en with e := sput 0 en.e i (mergeBits (sget 0 en.e i) m v) }
  | .a i _ v => { en with a := sput 0 en.a i v }
  | .st i v => { en with st := sput 0 en.st i v }
  | .h i v => { en with h := sput 0 en.h i v }
  | .v i m v => { en with v := sput 0 en.v i (mergeBits (sget 0 en.v i) m v) }
  | .cb i v => { en with cb := sput 0 en.cb i v }
  | .sc i hi v =>
    let old := sget 0 en.sc i
    { en with sc := sput 0 en.sc i (if hi then v ++ old.extractLsb' 0 1024 else old.extractLsb' 1024 1024 ++ v) }
  | .att i v => { en with att := sput 0 en.att i v }
  | .x i v => { en with x := sput 0 en.x i v }
  | .sb v => { en with sb := v }
  | .flags f => { en with fpflags := en.fpflags ||| f }
  | .tile i rows => { en with c := putRows en.c (64 * i) rows }
  | .cr a v => en.writeCr a v
  | .iw i v => { en with iwShadow := sput 0 en.iwShadow i v }
  | .bind b n c => { en with bind := { base := b, engs := n, code := c } }

/-- The register of a result holds an undefined value (R34). -/
def Engine.spoil (en : Engine) (epoch tag : Nat) (p : EPay) : Engine :=
  match p with
  | .e i _ _ => { en with e := sput 0 en.e i (Config.freeWord epoch (tag + i)) }
  | .a i _ _ => { en with a := sput 0 en.a i (Config.freeWord epoch (tag + 16 + i)) }
  | .st i _ => { en with st := sput 0 en.st i ((Config.freeWord epoch (tag + 48 + i)).setWidth 32) }
  | .h i _ => { en with h := sput 0 en.h i (Config.freeWord epoch (tag + 80 + i)) }
  | .v i _ _ => { en with v := sput 0 en.v i (Config.freeVec epoch (tag + i)) }
  | .cb i _ => { en with cb := sput 0 en.cb i ((Config.freeVec epoch (tag + 320 + i)).setWidth 256) }
  | .sc i _ _ => { en with sc := sput 0 en.sc i (Config.freeVec epoch (tag + 324 + i) ++ Config.freeVec epoch (tag + 328 + i)) }
  | .att i _ => { en with att := sput 0 en.att i (Config.freeVec epoch (tag + 332 + i)) }
  | .x i _ => { en with x := sput 0 en.x i (Config.freeVec epoch (tag + 336 + i)) }
  | .sb _ => { en with sb := (Config.freeWord epoch (tag + 340)).setWidth 32 }
  | .flags _ => en
  | .tile i _ =>
    { en with c := putRows en.c (64 * i) ((below 64).map fun m =>
        Config.freeVec epoch (tag + 512 + 128 * i + 2 * m) ++ Config.freeVec epoch (tag + 513 + 128 * i + 2 * m)) }
  | .cr a _ => en.writeCr a (Config.freeWord epoch (tag + 341 + a))
  | .iw i _ => { en with iwShadow := sput 0 en.iwShadow i (Config.freeWord epoch (tag + 64 + i)) }
  | .bind _ _ _ => en

/-- Results that land in one cycle: each takes its place; a register that two of them write is undefined (R34). -/
def Engine.applyAll (en : Engine) (epoch tag : Nat) : List ELand → Engine
  | [] => en
  | L :: t =>
    let en' := (en.apply L.pay).applyAll epoch tag t
    if t.any (fun M => L.pay.clash M.pay) then en'.spoil epoch tag L.pay else en'

/-- A flags contribution. -/
def EPay.isFlags : EPay → Bool
  | .flags _ => true
  | _ => false

/-- The results due by a cycle take their places: flags after the writes of control registers (R122). -/
def Engine.landDue (en : Engine) (now epoch tag : Nat) : Engine :=
  let due := en.lands.filter (fun L => decide (L.due ≤ now))
  let en := { en with lands := en.lands.filter (fun L => !decide (L.due ≤ now)) }
  let en := en.applyAll epoch tag (due.filter (fun L => !L.pay.isFlags))
  en.applyAll epoch tag (due.filter (fun L => L.pay.isFlags))

/-! ## Reading registers (R33: undefined while a write is in flight) -/

/-- A write to a register, issued in an earlier cycle, is still in flight. -/
def Engine.inFlight (en : Engine) (now : Nat) (p : EPay) : Bool :=
  en.lands.any (fun L => decide (L.issued < now) && L.pay.clash p)
/-- A write to a sequencer register, issued in an earlier cycle, is still in flight. -/
def Seq.inFlight (q : Seq) (now : Nat) (p : SPay) : Bool :=
  q.lands.any (fun L => decide (L.issued < now) && L.pay.clash p)

/-- s-register i as a bundle reads it: s0 reads 0 (R87). (DESIGN CHOICE, log 9) -/
def readS (s : State) (q : Seq) (i : Nat) : Word :=
  if i = 0 then 0
  else if q.inFlight s.cycle (.s i 0) then Config.freeWord s.free (freeTag 0 s.ctx.core 0 i)
  else sget 0 q.s i
/-- g-register i as a bundle reads it. -/
def readG (s : State) (g : Gang) (q : Seq) (i : Nat) : Mask :=
  if i = 0 then g.live
  else if q.inFlight s.cycle (.g i 0 0) then (Config.freeWord s.free (freeTag 1 s.ctx.core 0 i)).setWidth 16
  else sget 0 q.g i
/-- e-register i of engine k: e0 is the engine index (R30). (DESIGN CHOICE, log 9) -/
def readE (s : State) (k : Nat) (en : Engine) (i : Nat) : Word :=
  if i = 0 then BitVec.ofNat 64 k
  else if en.inFlight s.cycle (.e i 0 0) then Config.freeWord s.free (freeTag 2 s.ctx.core k i)
  else sget 0 en.e i
/-- a-register i of engine k. -/
def readA (s : State) (k : Nat) (en : Engine) (i : Nat) : Word :=
  if en.inFlight s.cycle (.a i false 0) then Config.freeWord s.free (freeTag 3 s.ctx.core k i) else sget 0 en.a i
/-- st-register i of engine k. -/
def readSt (s : State) (k : Nat) (en : Engine) (i : Nat) : Lane :=
  if en.inFlight s.cycle (.st i 0) then (Config.freeWord s.free (freeTag 4 s.ctx.core k i)).setWidth 32 else sget 0 en.st i
/-- h-register i of engine k. -/
def readH (s : State) (k : Nat) (en : Engine) (i : Nat) : Word :=
  if en.inFlight s.cycle (.h i 0) then Config.freeWord s.free (freeTag 5 s.ctx.core k i) else sget 0 en.h i
/-- v-register i of engine k. (DESIGN CHOICE, log 9) -/
def readV (s : State) (k : Nat) (en : Engine) (i : Nat) : Vec :=
  if en.inFlight s.cycle (.v i 0 0) then Config.freeVec s.free (freeTag 6 s.ctx.core k i) else sget 0 en.v i
/-- Codebook i of engine k. -/
def readCb (s : State) (k : Nat) (en : Engine) (i : Nat) : BitVec 256 :=
  if en.inFlight s.cycle (.cb i 0) then (Config.freeVec s.free (freeTag 7 s.ctx.core k i)).setWidth 256 else sget 0 en.cb i
/-- Scale vector i of engine k. -/
def readSc (s : State) (k : Nat) (en : Engine) (i : Nat) : BitVec 2048 :=
  if en.inFlight s.cycle (.sc i false 0) || en.inFlight s.cycle (.sc i true 0) then
    Config.freeVec s.free (freeTag 8 s.ctx.core k i) ++ Config.freeVec s.free (freeTag 8 s.ctx.core k (i + 8))
  else sget 0 en.sc i
/-- Attenuation table i of engine k. -/
def readAtt (s : State) (k : Nat) (en : Engine) (i : Nat) : Vec :=
  if en.inFlight s.cycle (.att i 0) then Config.freeVec s.free (freeTag 9 s.ctx.core k i) else sget 0 en.att i
/-- Pattern register i of engine k. -/
def readX (s : State) (k : Nat) (en : Engine) (i : Nat) : Vec :=
  if en.inFlight s.cycle (.x i 0) then Config.freeVec s.free (freeTag 10 s.ctx.core k i) else sget 0 en.x i
/-- The stencil base of engine k. -/
def readSb (s : State) (k : Nat) (en : Engine) : Lane :=
  if en.inFlight s.cycle (.sb 0) then (Config.freeWord s.free (freeTag 11 s.ctx.core k 0)).setWidth 32 else en.sb
/-- Tile i of engine k by rows, as an L tile form reads it: undefined while the tile is busy (R242, R255). -/
def readTile (s : State) (k : Nat) (en : Engine) (i : Nat) : List (BitVec 2048) :=
  if decide (s.cycle < sget 0 en.busy i) then
    (below 64).map fun m => Config.freeVec s.free (freeTag 12 s.ctx.core k (128 * i + 2 * m)) ++
      Config.freeVec s.free (freeTag 12 s.ctx.core k (128 * i + 2 * m + 1))
  else (below 64).map fun m => sget 0 en.c (64 * i + m)

/-! ## Events -/

/-- The hardware sets event bits: they stay set whatever else clears them in this cycle (R132, R156, R159). -/
def Gang.setEvent (g : Gang) (m : BitVec 4) : Gang := { g with events := g.events ||| m, freshEvents := g.freshEvents ||| m }
/-- A clearing of event bits: bits set in this cycle stay. -/
def Gang.clearEvent (g : Gang) (m : BitVec 4) : Gang := { g with events := (g.events &&& ~~~ m) ||| g.freshEvents }

/-! ## Taking a gang fault -/

/-- The code of a gang fault (R46). -/
def GFault.code : GFault → Nat
  | .illegalCode => 0x01 | .illegalTarget => 0x02 | .illegalEncoding => 0x03 | .regRange => 0x04 | .xbarCollision => 0x05
  | .stack => 0x06 | .splitMismatch => 0x07 | .bindDiverge => 0x08 | .shape => 0x09 | .queueOverflow => 0x0A
  | .queueUnderflow => 0x0B | .page => 0x10 | .permission => 0x11 | .sparse => 0x12 | .alignment => 0x13
  | .scratchRange => 0x14 | .poison => 0x15 | .timing => 0x20 | .brk => 0x21 | .hwFence => 0x22

/-- The number of a slot in the gang status block (R48). -/
def slotNum : Slot → Nat
  | .s0 => 0 | .s1 => 1 | .v0 => 2 | .v1 => 3 | .v2 => 4 | .f => 5 | .m0 => 6 | .m1 => 7 | .x => 8 | .l => 9 | .k => 10

/-- The place of a fault in R47's order: release, code and target, encoding, popped entries q0 q1 iq, then other synchronous
faults by slot. (DEDUCED, log 13) -/
def faultRank (code : GFault) (slot : Slot) (queue : Nat) : Nat :=
  match code with
  | .illegalCode => 1
  | .illegalTarget => 1
  | .illegalEncoding => 2
  | _ => if queue = 0 then 3 else if queue = 1 then 4 else if queue = 3 then 5 else 6 + slotNum slot

/-- A synchronous fault of the slot in hand is raised: the bundle will commit nothing (R44). -/
def Gang.raise (g : Gang) (s : State) (code : GFault) (engmask : Mask) (detail : Nat) (vaddr : Word) : Gang :=
  { g with raised := g.raised ++ [{ code, rank := faultRank code s.ctx.slot 0xFF, slot := slotNum s.ctx.slot, queue := 0xFF,
                                     engmask, detail, vaddr, lanes := 0 }] }

/-- The fault that a faulted baton brings on the gang that meets it in S0 (R331, R360). -/
def FaultedBaton.record (b : FaultedBaton) : FaultRec :=
  { code := b.code, rank := faultRank b.code .s0 0xFF, slot := 0, queue := 0xFF, engmask := 0, detail := b.detail, vaddr := b.vaddr,
    lanes := 0, reason := b.reason, level := b.level }

/-- A fault of the gang begins to halt it (R43): nothing issues any more, and the halt itself follows once every result in
flight has landed. -/
def Gang.beginHalt (g : Gang) (spare : Bool) (r : FaultRec) : Gang :=
  { g with st := .faulting, halt := some r, haltSpare := spare, raised := [] }

/-- The sub-gang that drives an engine (R150). -/
def Gang.driver (g : Gang) (e : Nat) : Bool := g.split && inMask g.splitEngines e

/-- The gang has halted, or is to halt, at an uncorrectable word that its X slot read: its halt is not exact, and it is not resumed (R265).
(DEDUCED, log 47) -/
def Gang.inexact (g : Gang) : Bool :=
  match g.halt with
  | some r => r.code == .poison && r.slot == 8
  | none => false

/-- The gang halts with POISON for an engine's word, in the half of the sequencer that drives the engine, with DETAIL 0 (R265, R405); where it
halts or has halted for another cause, with POISON in its place, but for a POISON of its X slot. (DEDUCED, log 47) -/
def Gang.poisonHalt (g : Gang) (engine slot : Nat) (va : Word) : Gang :=
  if g.st = .running ∨ g.st = .exiting ∨ ((g.st = .faulting ∨ g.st = .halted) ∧ !g.inexact) then
    g.beginHalt (g.driver engine) { code := .poison, rank := 0, slot, queue := 0xFF, engmask := maskOf [engine], detail := 0, vaddr := va, lanes := 0 }
  else g

/-- A wait ends: its cycles are counted (R167). -/
def Seq.endWait (q : Seq) (now : Nat) : Seq :=
  match q.wait with
  | none => q
  | some (k, t) =>
    let n := BitVec.ofNat 64 (now - t)
    { q with wait := none, perf := match k with
        | .queue => { q.perf with qwait := q.perf.qwait + n }
        | .matrix => { q.perf with xwait := q.perf.xwait + n }
        | _ => { q.perf with swait := q.perf.swait + n } }

/-- The status half of a sequencer whose gang halts with fault r (R48). -/
def haltStatus (q : Seq) (r : FaultRec) (cycle : Nat) : Status :=
  { state := if r.code = .brk then 2 else 1, fault := r.code.code, engmask := r.engmask, pc := q.pc, rppc := q.rppc,
    slot := r.slot, queue := r.queue, traps := q.traps, detail := r.detail, vaddr := r.vaddr, lanes := r.lanes, cycle }

/-- Taking a gang fault (R43, R48): the gang halts, resident, with its queues, held stores and sealed batch as they are; the half
of the raising sequencer records the fault, and while a split is outstanding the other half records the same code at its own
PC. A wait in progress ends, and its cycles count (R167). -/
def haltGang (g : Gang) (r : FaultRec) (cycle : Nat) : Gang :=
  let other : FaultRec := { r with slot := 14, queue := 0xFF, engmask := 0, detail := 0, vaddr := 0, lanes := 0 }
  let halts (q : Seq) (r : FaultRec) : Seq := { q.endWait cycle with status := haltStatus q r cycle, tried := none }
  let g := { g with st := .halted, halt := some r, xlReason := r.reason, xlLevel := r.level }
  if g.haltSpare then { g with spare := halts g.spare r, prim := halts g.prim other }
  else if g.split then { g with prim := halts g.prim r, spare := halts g.spare other }
  else { g with prim := halts g.prim r }

/-- An unpopped or popped entry with a fault is performed again on resume (R45): its result is forgotten. -/
def QEntry.replay (q : QEntry) (now : Nat) : QEntry :=
  match q.result with
  | some (.fault _) => { q with result := none, pins := [], arrived := none, readyAt := max q.readyAt now }
  | _ => q

/-- The queues of an engine with their faulting entries to be performed again; its walker forms the faulting batch anew (R332). -/
def Engine.replay (en : Engine) (now : Nat) : Engine :=
  { en with q0 := en.q0.map (·.replay now), q1 := en.q1.map (·.replay now), iq := en.iq.filter (fun e => match e.result with
      | some (.fault _) => false
      | _ => true) }

/-- A faulted marker's operation is performed again on resume (R192). -/
def SQEntry.reopen (e : SQEntry) (now : Nat) : SQEntry :=
  match e.marker with
  | some (some _) => { e with marker := some none, finished := false, completeAt := now, arrived := none, reopened := true }
  | _ => e
/-- A batch that is to be released again: its fault forgotten, its markers' operations to be performed again. -/
def Batch.reopen (b : Batch) (now : Nat) : Batch :=
  { b with fault := none, entries := b.entries.map (fun e => (e.1, e.2.map (·.reopen now))) }

/-- A sequencer whose loop iteration in progress is fetched again from the code-word cache (R143). -/
def Seq.refetch (q : Seq) : Seq := { q with loop := q.loop.map (fun l => { l with buffered := false }) }

/-- A checkpoint of a gang that is resumed: the faulting batches of its walkers are formed anew after a restart too (R332). -/
def Ckpt.resume (c : Ckpt) : Ckpt :=
  { c with engines := c.engines.map (fun e => (e.1, { e.2 with
      iq := e.2.iq.filter (fun x => match x.result with
        | some (.fault _) => false
        | _ => true)
      walks := e.2.walks.map (fun w => { w with fault := none }) })) }

/-- Returning from a gang fault (R45): faulting entries and markers are performed again, the sealed batches are translated again, and the bundle
at PC issues from the next cycle on. Faulted marks of batons are removed and their operations go on (R331). -/
def resumeGang (g : Gang) (now : Nat) : Gang :=
  let wake (q : Seq) : Seq :=
    { q.refetch with
      base := now + 1, tried := none, wait := none, stopped := false, status := { q.status with state := 0, fault := 0 }
      batch := q.batch.map (·.reopen now) }
  let goOn (u : UnitState) : UnitState := { u with queue := u.queue.map (fun o => { o with fault := none, pinned := 0, pins := [] }) }
  { g with st := .running, halt := none, reported := false, raised := [], badBatons := [], ckptP := g.ckptP.map Ckpt.resume, ckptS := g.ckptS.map Ckpt.resume
           prim := wake g.prim, spare := if g.split then wake g.spare else { g.spare with batch := g.spare.batch.map (·.reopen now) }
           cp0 := goOn g.cp0, cp1 := goOn g.cp1, cl := goOn g.cl, iwOps := g.iwOps.map (fun o => { o with fault := none })
           engines := g.engines.map (fun en => { en.replay now with sq := en.sq.map (·.reopen now), walks := en.walks.map (fun w => { w with fault := none }) }) }

end Sys2Proof.Machine
end

