-- ==== Sys2Proof/WellFormed.lean ====
section
/-! DEFINITION. The static rules of R79: the field values an instruction accepts (R86, R93-R101 and the units' chapters), the
register codes a slot may name (R87, R88, R170, R199), and the limits that span the slots of a bundle (R82-R85, R89, R215,
R283, R288). The registers past a task's allocation (R91) are found here too. -/
namespace Sys2Proof

/-! ## Control registers (R92) -/

/-- The addresses that some chapter defines. -/
def crDefined (a : Nat) : Bool :=
  (1 ≤ a && a ≤ 0x11) || (0x20 ≤ a && a ≤ 0x3F) || (0x100 ≤ a && a ≤ 0x105) || (0x200 ≤ a && a ≤ 0x202) ||
    (0x300 ≤ a && a ≤ 0x304) || a == 0x400 || (0x500 ≤ a && a ≤ 0x502) || (0x600 ≤ a && a ≤ 0x604) || (0x700 ≤ a && a ≤ 0x706)

/-- The registers of which each engine has a copy (R20, R121, R175, R271, R286, R298). -/
def crPerEngine (a : Nat) : Bool :=
  a == 0x002 || a == 0x00A || a == 0x101 || (0x200 ≤ a && a ≤ 0x202) || (0x300 ≤ a && a ≤ 0x304) || a == 0x400

/-! ## V-slot codes (R88) -/

/-- The cluster of a register code: 0 A, 1 B, 2 C, 3 shared; none when it names no register. -/
def clusterOf (c : Nat) : Option Nat :=
  if c < 96 then some 0 else if c < 192 then some 1 else if c < 288 then some 2 else if c < 320 then some 3 else none

/-- The cluster that a V slot owns. -/
def slotCluster : Slot → Nat
  | .v1 => 1
  | .v2 => 2
  | _ => 0

/-- A code that is legal as a register source in a V slot. -/
def regSrcOk (sl : Slot) (c : Nat) : Bool := clusterOf c == some (slotCluster sl) || clusterOf c == some 3

/-- A code that is legal as a source in a V slot: a register of its cluster or the shared file, a pop or peek, an e-register
or an inline integer. -/
def srcOk (sl : Slot) (c : Nat) : Bool :=
  regSrcOk sl c || (384 ≤ c && c ≤ 388) || (416 ≤ c && c ≤ 431) || (480 ≤ c && c ≤ 511)

/-- A code that is legal as a destination in a V slot. -/
def dstOk (sl : Slot) (c : Nat) : Bool := regSrcOk sl c

/-- A V slot. -/
def isVSlot (sl : Slot) : Bool := sl == .v0 || sl == .v1 || sl == .v2

/-- A type code of R94 is FP32, BF16 or FP16. -/
def tFP (t : Nat) : Bool := t ≤ 2
/-- E4M3 or E5M2. -/
def tF8 (t : Nat) : Bool := t == 3 || t == 4
/-- I32, I16 or I8. -/
def tInt (t : Nat) : Bool := 5 ≤ t
/-- The element size in bits of a type code. -/
def tBits (t : Nat) : Nat := if t == 0 || t == 5 then 32 else if t == 1 || t == 2 || t == 6 then 16 else 8
/-- The width in bits of a width code. -/
def wBits (w : Nat) : Nat := if w == 1 then 256 else if w == 2 then 512 else if w == 3 then 1024 else 0

/-- A defined rounding mode (R94). -/
def rmOk (rm : Nat) : Bool := rm ≤ 4

/-- VCVT's part (R217) and VDECB's (R218): an inline code of a value 0 to r − 1. -/
def partOk (b r : Nat) : Bool := 496 ≤ b && b < 496 + r

/-- VCVT's ratio of widths. -/
def cvtRatio (f : VFields) : Nat :=
  let ws := tBits (f.c.toNat % 8)
  let wd := tBits f.t.toNat
  if ws ≤ wd then wd / ws else ws / wd

/-- The fields common to V instructions: a nonzero width, A a source, D a destination, RM 000. -/
def vPlain (sl : Slot) (f : VFields) : Bool :=
  f.w.toNat != 0 && f.rm.toNat == 0 && srcOk sl f.a.toNat && dstOk sl f.d.toNat

/-- The fields of VADD and its kind (R200, R202). -/
def vArith (sl : Slot) (f : VFields) : Bool :=
  f.w.toNat != 0 && dstOk sl f.d.toNat && srcOk sl f.b.toNat && srcOk sl f.a.toNat && f.c.toNat == 0 &&
    ((tFP f.t.toNat && rmOk f.rm.toNat) || (tInt f.t.toNat && f.rm.toNat == 0))

/-- A register and its follower in one cluster (R199). -/
def pairOk (c : Nat) : Bool := (clusterOf c).isSome && clusterOf (c + 1) == clusterOf c

/-- A block of n registers in one cluster (R199, R170). -/
def blockOk (c n : Nat) : Bool := (clusterOf c).isSome && clusterOf (c + n - 1) == clusterOf c

/-- The fields of a VL* instruction that all of them share (R288): W 11, T 101, RM 000. -/
def vlHead (f : VFields) : Bool := f.w.toNat == 3 && f.t.toNat == 5 && f.rm.toNat == 0

/-! ## S-slot fields (R93, R131) -/

/-- A destination field: any s-register with E = 0; e1-e15 with E = 1. -/
def sDst (e : BitVec 1) (d : BitVec 6) : Bool := e.toNat == 0 || (1 ≤ d.toNat && d.toNat ≤ 15)

/-- The stack blocks' base registers (R148). -/
def stkBase (d : BitVec 6) : Bool := d.toNat % 8 == 0 && 8 ≤ d.toNat && d.toNat ≤ 56

/-- An ENGW register number that the unit's chapter defines (R316, R327, R335). -/
def engwReg (unit d : Nat) : Bool :=
  if unit ≤ 1 then d ≤ 6 else d ≤ 5

/-! ## M-slot fields (R96, R170, R179) -/

/-- The queue of a result: 00 in M0, 01 in M1. -/
def qOk (sl : Slot) (q : Nat) : Bool := (q == 0 && sl == .m0) || (q == 1 && sl == .m1)
/-- As qOk, or no result. -/
def qOrNone (sl : Slot) (q : Nat) : Bool := qOk sl q || q == 2
/-- An M slot. -/
def isM (sl : Slot) : Bool := sl == .m0 || sl == .m1
/-- A register that an M slot names. -/
def mReg (v : BitVec 9) : Bool := v.toNat < 320

/-! ## X-slot types (R247) -/

/-- The type pairs of MMA: code 6 of FB is CB4. -/
def mmaPair (a b : Nat) : Bool :=
  ((a == 3 || a == 4) && (b == 3 || b == 4 || b == 6)) || (a == 7 && b == 7) || (a == 1 && b == 1)
/-- The type pairs of MMAS. -/
def mmasPair (a b : Nat) : Bool := ((a == 3 || a == 4) && (b == 3 || b == 4)) || (a == 7 && b == 7)

/-- F-slot functions of R225: a nonzero width and a floating type. -/
def fFun (sl : Slot) (w t : BitVec 2) : Bool := sl == .f && w.toNat != 0 && t.toNat != 3

/-- Registers of a ranking list: 3 for the 32-bit types, 2 for the others (R269). -/
def listRegs (t : Nat) : Nat := if t == 0 || t == 3 then 3 else 2

/-- The slots S0 and S1. -/
def isS (sl : Slot) : Bool := sl == .s0 || sl == .s1

/-! ## The fields of each instruction -/

/-- The slot takes the instruction and every field has a value it accepts (R86, R93-R101). Events stand in no slot. SHP.K, which
names no register that E could choose, takes E = 0 alone. (DEDUCED, log 67) VTOPKI's blocks follow R222 where row 15 of R224 says
otherwise: five registers from v90 are accepted. (DESIGN CHOICE, log 90) -/
def fieldsOk (sl : Slot) (i : Instr) : Bool :=
  match i with
  | .addSr e d _ _ | .subSr e d _ _ | .mulSr e d _ _ | .andSr e d _ _ | .orSr e d _ _ | .xorSr e d _ _ | .andnSr e d _ _
  | .shlSr e d _ _ | .shrSr e d _ _ | .sraSr e d _ _ | .rolSr e d _ _ => isS sl && sDst e d
  | .mulhSr e d _ _ _ | .divSr e d _ _ _ | .remSr e d _ _ _ | .minSr e d _ _ _ | .maxSr e d _ _ _ | .extSr e d _ _ _ =>
    isS sl && sDst e d
  | .addSi e d _ _ | .subSi e d _ _ | .mulSi e d _ _ | .mulhSi e d _ _ | .divSi e d _ _ | .remSi e d _ _ | .andSi e d _ _
  | .orSi e d _ _ | .xorSi e d _ _ | .andnSi e d _ _ | .minSi e d _ _ | .maxSi e d _ _ => isS sl && sDst e d
  | .shlSi e d _ n | .shrSi e d _ n | .sraSi e d _ n | .rolSi e d _ n => isS sl && sDst e d && n.toNat ≤ 63
  | .cmpSr e d _ _ c => isS sl && sDst e d && c.toNat ≤ 5
  | .cmpSi e d _ c _ => isS sl && sDst e d && c.toNat ≤ 5
  | .sel e d _ _ _ => isS sl && sDst e d
  | .bitcClz e d _ | .bitcCtz e d _ | .bitcPopc e d _ | .bitcBrev e d _ => isS sl && sDst e d
  | .extSi e d _ _ _ => isS sl && sDst e d
  | .li e d _ | .lis e d _ => isS sl && sDst e d
  | .movc e d c => isS sl && sDst e d && crDefined c.toNat
  | .movtc e _ c => isS sl && crDefined c.toNat && (e.toNat == 0 || crPerEngine c.toNat)
  | .gpredSet d _ => isS sl && 1 ≤ d.toNat && d.toNat ≤ 7
  | .gpredAnd d a b | .gpredOr d a b | .gpredAndn d a b | .gpredXor d a b =>
    isS sl && 1 ≤ d.toNat && d.toNat ≤ 7 && a.toNat ≤ 7 && b.toNat ≤ 7
  | .gpredNot d a => isS sl && 1 ≤ d.toNat && d.toNat ≤ 7 && a.toNat ≤ 7
  | .gpredFroms d _ => isS sl && 1 ≤ d.toNat && d.toNat ≤ 7
  | .gpredRange d a _ _ => isS sl && 1 ≤ d.toNat && d.toNat ≤ 7 && a.toNat ≤ 7
  | .gqryMask _ a | .gqryCount _ a | .gqryAny _ a | .gqryAll _ a | .gqryFirst _ a => isS sl && a.toNat ≤ 7
  | .gqryMaskE d a => isS sl && 1 ≤ d.toNat && d.toNat ≤ 15 && a.toNat ≤ 7
  | .gqryAct _ => isS sl
  | .gqryBit _ a _ => isS sl && a.toNat ≤ 7
  | .egetSr _ _ b => isS sl && b.toNat ≤ 15
  | .egetSi .. => isS sl
  | .eputSr d _ _ | .eputSi d _ _ => isS sl && 1 ≤ d.toNat && d.toNat ≤ 15
  | .shpSr _ d _ => isS sl && d.toNat ≤ 7
  | .shpK e d k => isS sl && e.toNat == 0 && d.toNat ≤ 7 && 1 ≤ k.toNat && k.toNat ≤ 1024
  | .asetSr _ d _ _ | .asetSi _ d _ _ | .astrSr _ d _ _ | .astrSi _ d _ _ => isS sl && d.toNat ≤ 31
  | .engwSr e d _ _ u => isS sl && u.toNat ≤ 3 && engwReg u.toNat d.toNat && (e.toNat == 0 || u.toNat == 2)
  | .engwSi e d _ u _ => isS sl && engwReg u.toNat d.toNat && (e.toNat == 0 || u.toNat == 2)
  | .enggoCp0 p x y z | .enggoCp1 p x y z | .enggoIw p x y z | .enggoCl p x y z =>
    isS sl && p.toNat ≤ 31 && x.toNat ≤ 31 && y.toNat ≤ 31 && z.toNat ≤ 31
  | .bwait .. => sl == .s0
  | .wait _ _ _ m => sl == .s0 && m.toNat != 0
  | .signalSr _ | .signalSi _ | .signalOthers | .lapsetSr _ | .lapsetSi _ _ => isS sl
  | .jmp _ | .bz _ _ | .bnz _ _ | .bltz _ _ | .call _ | .ret | .gelse _ | .gjoin | .gmerge | .sysExit | .sysBrk => sl == .s0
  | .loop _ o => sl == .s0 && 0 < o.toInt
  | .bmz a _ => sl == .s0 && 1 ≤ a.toNat && a.toNat ≤ 15
  | .gif a _ | .gsplit a _ => sl == .s0 && a.toNat ≤ 7
  | .bar l => sl == .s0 && l.toNat ≤ 2
  | .sysLaunch _ _ | .sysCancel _ => sl == .s0
  | .sysStkspill d => sl == .s0 && stkBase d
  | .sysStkfill a => sl == .s0 && stkBase a
  | .vadd f | .vsub f | .vmul f => isVSlot sl && vArith sl f
  | .vfma f | .vfnma f => isVSlot sl && vArith sl f && pairOk f.a.toNat
  | .vmin f | .vmax f =>
    isVSlot sl && vPlain sl f && srcOk sl f.b.toNat && (f.c.toNat == 0 || (f.c.toNat == 1 && tInt f.t.toNat))
  | .vabs f | .vneg f => isVSlot sl && vPlain sl f && f.b.toNat == 0 && f.c.toNat == 0
  | .vand f | .vor f | .vxor f | .vshl f | .vshr f | .vsra f | .viota f =>
    isVSlot sl && vPlain sl f && tInt f.t.toNat && srcOk sl f.b.toNat && f.c.toNat == 0
  | .vcmp f =>
    isVSlot sl && f.w.toNat != 0 && f.rm.toNat == 0 && srcOk sl f.a.toNat && srcOk sl f.b.toNat && 1 ≤ f.d.toNat &&
      f.d.toNat ≤ 15 && (8 ≤ f.c.toNat || !(tBits f.t.toNat == 8 && f.w.toNat == 3))
  | .vsel f =>
    isVSlot sl && vPlain sl f && srcOk sl f.b.toNat && 1 ≤ f.c.toNat && !(tBits f.t.toNat == 8 && f.w.toNat == 3)
  | .vmov f => isVSlot sl && vPlain sl f && f.b.toNat == 0 && f.c.toNat == 0
  | .vxfer f =>
    isVSlot sl && f.w.toNat != 0 && f.rm.toNat == 0 && f.a.toNat < 320 && dstOk sl f.d.toNat && f.b.toNat == 0
  | .vcvt f =>
    isVSlot sl && f.w.toNat != 0 && srcOk sl f.a.toNat && dstOk sl f.d.toNat && f.c.toNat % 8 != f.t.toNat &&
      partOk f.b.toNat (cvtRatio f) &&
      (if tInt f.t.toNat && tInt (f.c.toNat % 8) then f.rm.toNat == 0 else rmOk f.rm.toNat && f.c.toNat < 8)
  | .vdecb f | .vencb f =>
    isVSlot sl && vPlain sl f && f.t.toNat ≤ 1 && f.c.toNat ≤ 3 && partOk f.b.toNat (tBits f.t.toNat / 4)
  | .vclass f => isVSlot sl && vPlain sl f && f.t.toNat ≤ 4 && f.b.toNat == 0 && f.c.toNat == 0
  | .vrng f =>
    isVSlot sl && vPlain sl f && (f.t.toNat == 0 || f.t.toNat == 5) && f.b.toNat ≤ 62 && pairOk f.a.toNat
  | .vtopki f =>
    isVSlot sl && f.w.toNat != 0 && f.rm.toNat == 0 && (f.t.toNat == 0 || f.t.toNat == 5) && srcOk sl f.b.toNat &&
      clusterOf f.a.toNat == some (slotCluster sl) && clusterOf f.d.toNat == some (slotCluster sl) &&
      blockOk f.a.toNat (2 * (f.c.toNat % 8) + 3) && blockOk f.d.toNat (2 * (f.c.toNat % 8) + 3) &&
      (f.a.toNat + 2 * (f.c.toNat % 8) + 3 ≤ f.d.toNat || f.d.toNat + 2 * (f.c.toNat % 8) + 3 ≤ f.a.toNat)
  | .vmulh f => isVSlot sl && vPlain sl f && tInt f.t.toNat && srcOk sl f.b.toNat && f.c.toNat ≤ 1
  | .vadds f => isVSlot sl && vPlain sl f && tInt f.t.toNat && srcOk sl f.b.toNat && f.c.toNat ≤ 3
  | .vdot4 f =>
    isVSlot sl && f.w.toNat != 0 && dstOk sl f.d.toNat && srcOk sl f.a.toNat && srcOk sl f.b.toNat && pairOk f.a.toNat &&
      ((f.t.toNat == 7 && f.rm.toNat == 0 && f.c.toNat ≤ 1) || (tF8 f.t.toNat && rmOk f.rm.toNat && f.c.toNat == 0))
  | .vpopc f | .vclz f => isVSlot sl && vPlain sl f && tInt f.t.toNat && f.b.toNat == 0 && f.c.toNat == 0
  | .vext f =>
    isVSlot sl && f.w.toNat != 0 && f.rm.toNat == 0 && srcOk sl f.a.toNat && srcOk sl f.b.toNat && 1 ≤ f.d.toNat &&
      f.d.toNat ≤ 15 && f.m.toNat == 0 && f.c.toNat ≤ 1
  | .vins f => isVSlot sl && vPlain sl f && srcOk sl f.b.toNat
  | .vladd f | .vlsub f =>
    isVSlot sl && vlHead f && regSrcOk sl f.a.toNat && regSrcOk sl f.b.toNat && dstOk sl f.d.toNat
  | .vlshl f => isVSlot sl && vlHead f && regSrcOk sl f.a.toNat && srcOk sl f.b.toNat && dstOk sl f.d.toNat && f.c.toNat == 0
  | .vlshr f => isVSlot sl && vlHead f && regSrcOk sl f.a.toNat && srcOk sl f.b.toNat && dstOk sl f.d.toNat && f.c.toNat ≤ 1
  | .vlcmp f =>
    isVSlot sl && vlHead f && regSrcOk sl f.a.toNat && regSrcOk sl f.b.toNat && f.d.toNat == 0 && 1 ≤ f.c.toNat
  | .vlmul f =>
    isVSlot sl && vlHead f && regSrcOk sl f.a.toNat && srcOk sl f.b.toNat && dstOk sl f.d.toNat && pairOk f.d.toNat &&
      f.c.toNat == 0
  | .bind f =>
    isVSlot sl && f.w.toNat == 3 && f.t.toNat == 0 && f.rm.toNat == 0 && f.d.toNat == 0 && f.a.toNat == 0 &&
      f.b.toNat == 0 && f.m.toNat == 0 && f.c.toNat ≤ 9
  | .rcp w t _ _ _ | .rsq w t _ _ _ | .sqrt w t _ _ _ | .exp2 w t _ _ _ | .log2 w t _ _ _ | .tanh w t _ _ _
  | .sint w t _ _ _ | .cost w t _ _ _ | .erf w t _ _ _ => fFun sl w t
  | .rank _ _ a _ g => sl == .f && a.toNat + 2 ^ g.toNat ≤ 32
  | .rankv t d a _ g => sl == .f && a.toNat + 2 ^ g.toNat ≤ 32 && d.toNat + listRegs t.toNat ≤ 32
  | .rankc t d a e g => sl == .f && e.toNat != 0 && a.toNat + 2 ^ g.toNat ≤ 32 && d.toNat + listRegs t.toNat ≤ 32
  | .rmerge t d a _ => sl == .f && a.toNat + 2 * listRegs t.toNat ≤ 32 && d.toNat + listRegs t.toNat ≤ 32
  | .unrank t d _ _ _ g => sl == .f && t.toNat != 3 && d.toNat + 2 ^ g.toNat ≤ 32
  | .ld _ m z q _ => isM sl && z.toNat ≤ 5 && (3 ≤ z.toNat || m.toNat == 0) && qOk sl q.toNat
  | .ldg _ v _ z q _ => isM sl && 3 ≤ z.toNat && z.toNat ≤ 5 && qOk sl q.toNat && mReg v
  | .st _ v m z _ => isM sl && z.toNat ≤ 5 && (3 ≤ z.toNat || m.toNat == 0) && mReg v
  | .sts _ v _ z _ => isM sl && 3 ≤ z.toNat && z.toNat ≤ 5 && mReg v && blockOk v.toNat 2
  | .ldl _ _ q _ => isM sl && qOk sl q.toNat
  | .stl _ v _ _ => isM sl && mReg v
  | .atom _ v o w c q | .atomg _ v o w c q =>
    isM sl && o.toNat ≤ 10 && (o.toNat != 10 || w.toNat == 0) && c.toNat ≤ 3 && qOrNone sl q.toNat && mReg v &&
      blockOk v.toNat (if o.toNat == 9 then 3 else 2)
  | .qsync => isM sl
  | .fence k c => isM sl && k.toNat ≤ 2 && c.toNat ≤ 3
  | .aadd .. => isM sl
  | .pref _ z h _ => isM sl && z.toNat ≤ 2 && h.toNat ≤ 2
  | .scopLd _ q _ => isM sl && qOk sl q.toNat
  | .scopSt _ v _ => isM sl && mReg v
  | .scopExch _ v q _ | .scopCas _ v q _ => isM sl && mReg v && qOrNone sl q.toNat
  | .lapadd .. => isM sl
  | .rpass _ v z q => isM sl && mReg v && z.toNat ≤ 2 && qOrNone sl q.toNat
  | .rtake _ z q => isM sl && z.toNat ≤ 2 && qOk sl q.toNat
  | .rtakeArm _ => isM sl
  | .rtakeStat _ q => isM sl && qOk sl q.toNat
  | .txbegin _ | .txbeginSerial _ => isM sl
  | .txend q => isM sl && qOk sl q.toNat
  | .txabort _ => isM sl
  | .pcommit _ _ q | .prelease _ _ q => isM sl && qOrNone sl q.toNat
  | .tlbinv _ v z q => isM sl && mReg v && z.toNat ≤ 2 && qOrNone sl q.toNat
  | .tlbinvAll q => isM sl && qOrNone sl q.toNat
  | .mma _ _ _ _ a b _ _ k => sl == .x && mmaPair a.toNat b.toNat && (b.toNat == 6 || k.toNat == 0)
  | .mmas _ _ _ _ a b _ _ => sl == .x && mmasPair a.toNat b.toNat
  | .mmar _ _ _ _ b _ _ _ => sl == .x && (b.toNat == 3 || b.toNat == 4 || b.toNat == 7 || b.toNat == 1)
  | .latld _ _ _ a _ => sl == .x && (a.toNat == 3 || a.toNat == 4 || a.toNat == 7 || a.toNat == 1)
  | .latldRank .. | .tzero _ | .tld .. | .tst .. | .tadd .. | .tscl .. => sl == .x
  | .xperm .. | .xshfl .. | .xred .. | .xscan .. | .gvsh .. | .gvred .. | .gshuf .. | .gred .. | .gbcst .. => sl == .l
  | .cbld _ t | .scld _ t _ | .xpld _ t => sl == .k && t.toNat ≤ 3
  | .atld _ t => sl == .k && t.toNat ≤ 1
  | .stbs _ => sl == .k
  | _ => false

/-- The slots of a bundle in program order. -/
def allSlots : List Slot := [.s0, .s1, .v0, .v1, .v2, .f, .m0, .m1, .x, .l, .k]

/-- A well-formed instruction: some slot takes it with the field values it has. -/
def Instr.wf (i : Instr) : Bool := allSlots.any (fun sl => fieldsOk sl i)

/-! ## Registers that an instruction names or implies (R91) -/

/-- The fields of a V-slot instruction. -/
def vFieldsOf (i : Instr) : Option VFields :=
  match i with
  | .vadd f | .vsub f | .vmul f | .vfma f | .vfnma f | .vmin f | .vmax f | .vabs f | .vneg f | .vand f | .vor f | .vxor f
  | .vshl f | .vshr f | .vsra f | .vcmp f | .vsel f | .vmov f | .vxfer f | .vcvt f | .vdecb f | .vencb f | .vclass f
  | .vrng f | .vtopki f | .viota f | .vmulh f | .vadds f | .vdot4 f | .vpopc f | .vclz f | .vext f | .vins f | .vladd f
  | .vlsub f | .vlshl f | .vlshr f | .vlcmp f | .vlmul f | .bind f => some f
  | _ => none

/-- The n registers from c on. -/
def regRun (c n : Nat) : List Nat := (List.range n).map (c + ·)

/-- Registers written by a V-slot instruction: none for those that write an e-register or nothing. -/
def vDests (i : Instr) : List Nat :=
  match i with
  | .vcmp _ | .vext _ | .vlcmp _ | .bind _ => []
  | .vtopki f => regRun f.d.toNat (2 * (f.c.toNat % 8) + 3)
  | .vlmul f => [f.d.toNat, f.d.toNat + 1]
  | i => match vFieldsOf i with
    | some f => [f.d.toNat]
    | none => []

/-- Whether B of a V-slot instruction is a source. -/
def vUsesB (i : Instr) : Bool :=
  match i with
  | .vabs _ | .vneg _ | .vmov _ | .vxfer _ | .vcvt _ | .vdecb _ | .vencb _ | .vclass _ | .vrng _ | .vpopc _ | .vclz _
  | .bind _ => false
  | _ => true

/-- Registers that a V-slot instruction reads beyond A and B (R199). -/
def vImplied (i : Instr) : List Nat :=
  match i with
  | .vfma f | .vfnma f | .vdot4 f | .vrng f => [f.a.toNat + 1]
  | .vtopki f => (regRun f.a.toNat (2 * (f.c.toNat % 8) + 3)).drop 1
  | _ => []

/-- The codes in the source fields of a V-slot instruction. -/
def vSources (i : Instr) : List Nat :=
  match i with
  | .bind _ => []
  | i => match vFieldsOf i with
    | some f => f.a.toNat :: (if vUsesB i then [f.b.toNat] else [])
    | none => []

/-- The registers of an instruction in the order of R91: D, A, B, then the implied ones. Among the implied ones the manual gives no
order: VTOPKI's block of A stands before its block of D, and D's block before A's elsewhere. (DESIGN CHOICE, log 66) -/
def namedRegs (i : Instr) : List Nat :=
  match i with
  | .rcp _ _ d a _ | .rsq _ _ d a _ | .sqrt _ _ d a _ | .exp2 _ _ d a _ | .log2 _ _ d a _ | .tanh _ _ d a _
  | .sint _ _ d a _ | .cost _ _ d a _ | .erf _ _ d a _ => [288 + d.toNat, 288 + a.toNat]
  | .rank _ d a _ g => [288 + d.toNat, 288 + a.toNat] ++ regRun (288 + a.toNat) (2 ^ g.toNat)
  | .rankv t d a _ g | .rankc t d a _ g =>
    [288 + d.toNat, 288 + a.toNat] ++ regRun (288 + d.toNat) (listRegs t.toNat) ++ regRun (288 + a.toNat) (2 ^ g.toNat)
  | .rmerge t d a _ =>
    [288 + d.toNat, 288 + a.toNat] ++ regRun (288 + d.toNat) (listRegs t.toNat) ++
      regRun (288 + a.toNat) (2 * listRegs t.toNat)
  | .unrank _ d a _ _ g => [288 + d.toNat, 288 + a.toNat] ++ regRun (288 + d.toNat) (2 ^ g.toNat)
  | .ldg _ v _ _ _ _ | .st _ v _ _ _ | .stl _ v _ _ | .scopSt _ v _ | .scopExch _ v _ _ | .scopCas _ v _ _
  | .rpass _ v _ _ | .tlbinv _ v _ _ => [v.toNat]
  | .sts _ v _ _ _ => [v.toNat, v.toNat + 1]
  | .atom _ v o _ _ _ => [v.toNat, v.toNat + 1] ++ (if o.toNat == 9 then [v.toNat + 2] else [])
  | .atomg _ v o _ _ _ => [v.toNat, v.toNat + 1] ++ (if o.toNat == 9 then [v.toNat + 2] else [])
  | .xperm d a _ | .xshfl d a _ | .xred d a _ | .xscan d a _ | .gvsh d a _ | .gvred d a _ => [288 + d.toNat, 288 + a.toNat]
  | .cbld a _ | .scld a _ _ | .atld a _ | .xpld a _ | .stbs a => [288 + a.toNat]
  | i => ((vDests i).take 1 ++ vSources i ++ vImplied i ++ (vDests i).drop 1).filter (fun c => c < 320)

/-- A cluster's allocation: the declared count rounded up to a multiple of 8 (R91). -/
def allocOf (declared : Nat) : Nat := (declared + 7) / 8 * 8

/-- A register lies inside the allocation of its cluster, given the declared counts of A, B, C and shared. -/
def inAlloc (a b c sh r : Nat) : Bool :=
  if r < 96 then r < allocOf a else if r < 192 then r - 96 < allocOf b else if r < 288 then r - 192 < allocOf c
  else r - 288 < allocOf sh

/-! ## Bundles -/

/-- What a slot of a bundle holds. -/
def Bundle.at (b : Bundle) (sl : Slot) : Option Instr :=
  match sl with
  | .s0 => b.s0 | .s1 => b.s1 | .v0 => b.v0 | .v1 => b.v1 | .v2 => b.v2 | .f => b.f | .m0 => b.m0 | .m1 => b.m1
  | .x => b.x | .l => b.l | .k => b.k

/-- Distinct shared registers that a V-slot instruction reads (R83); an indirect VXFER counts one (R215). -/
def sharedReads (i : Instr) : Nat :=
  match i with
  | .vxfer f => if f.c.toNat != 0 then 1 else if 288 ≤ f.a.toNat then 1 else 0
  | i => (((vSources i ++ vImplied i).filter (fun c => 288 ≤ c && c < 320)).eraseDups).length

/-- Whether an F-slot instruction reads the shared file: all of them do. -/
def Bundle.pfOk (b : Bundle) : Bool := if b.f.isSome then 1 ≤ b.pf.toNat else b.pf.toNat == 0

/-- The port allotment of a V slot (R83). -/
def portOk (pv : BitVec 2) (o : Option Instr) : Bool :=
  match o with
  | none => pv.toNat == 0
  | some i => sharedReads i ≤ pv.toNat

/-- A V slot writes a shared register (R84, R222, R288). -/
def sharedDest (o : Option Instr) : Bool :=
  match o with
  | none => false
  | some i => (vDests i).any (fun r => 288 ≤ r)

/-- The width of a V slot (R85). -/
def slotWidth (o : Option Instr) : Nat :=
  match o with
  | none => 0
  | some i => match vFieldsOf i with
    | some f => wBits f.w.toNat
    | none => 0

/-- An X instruction that the repeat prefix may repeat (R246). -/
def repeatable (o : Option Instr) : Bool :=
  match o with
  | some (.mma ..) | some (.mmas ..) | some (.mmar ..) => true
  | _ => false

/-- A VXFER that reads a cluster other than its slot's, or is indirect (R215). -/
def crossXfer (sl : Slot) (o : Option Instr) : Nat :=
  match o with
  | some (.vxfer f) =>
    if f.c.toNat != 0 then 1
    else if clusterOf f.a.toNat == some (slotCluster sl) || clusterOf f.a.toNat == some 3 then 0 else 1
  | _ => 0

/-- A VL* instruction (R288). -/
def isVL (o : Option Instr) : Nat :=
  match o with
  | some (.vladd _) | some (.vlsub _) | some (.vlshl _) | some (.vlshr _) | some (.vlcmp _) | some (.vlmul _) => 1
  | _ => 0

/-- A BIND (R283). -/
def isBind (o : Option Instr) : Nat :=
  match o with
  | some (.bind _) => 1
  | _ => 0

/-- How often a code stands in the source fields of the V slots (R89). -/
def Bundle.codeCount (b : Bundle) (c : Nat) : Nat :=
  (([b.v0, b.v1, b.v2].map (fun o => match o with
    | some i => (vSources i).count c
    | none => 0)).foldl (· + ·) 0)

/-- Every slot but S0 is idle. -/
def Bundle.onlyS0 (b : Bundle) : Bool :=
  b.s1.isNone && b.v0.isNone && b.v1.isNone && b.v2.isNone && b.f.isNone && b.m0.isNone && b.m1.isNone && b.x.isNone &&
    b.l.isNone && b.k.isNone

/-- The rules of the header, bits 383:360 (R82, R83, R84): the repeat count register, the sum of the port allotments, and that WOWN
names no slot but one that writes a shared register. -/
def Bundle.headerOk (b : Bundle) : Bool :=
  (b.rx || b.rcnt.toNat == 0) && b.pv0.toNat + b.pv1.toNat + b.pv2.toNat + b.pf.toNat ≤ 4 &&
    (match b.wown.toNat with
     | 1 => sharedDest b.v0
     | 2 => sharedDest b.v1
     | 3 => sharedDest b.v2
     | _ => true)

/-- An S0 instruction that must stand at a restart point (R151, R155, R156, R160). -/
def needsRp (i : Instr) : Bool :=
  match i with
  | .gmerge | .bwait .. | .wait .. | .bar _ => true
  | _ => false

/-- A slot of the bundle keeps its own static rules and those that name it: its fields, its ports, its share of WOWN, the repeat
prefix, the restart point that a BIND or an S0 instruction asks for, an EXIT's solitude. A breach of the repeat prefix (R82) is the X
slot's, though RX stands in the header. (DEDUCED, log 13) -/
def Bundle.slotOk (b : Bundle) (sl : Slot) : Bool :=
  (match b.at sl with
   | some i => fieldsOk sl i
   | none => true) &&
  (match sl with
   | .s0 => (match b.s0 with
      | some .sysExit => b.onlyS0
      | some i => b.rp || !needsRp i
      | none => true)
   | .v0 => portOk b.pv0 b.v0 && (!sharedDest b.v0 || b.wown.toNat == 1) && (isBind b.v0 == 0 || b.rp)
   | .v1 => portOk b.pv1 b.v1 && (!sharedDest b.v1 || b.wown.toNat == 2) && (isBind b.v1 == 0 || b.rp)
   | .v2 => portOk b.pv2 b.v2 && (!sharedDest b.v2 || b.wown.toNat == 3) && (isBind b.v2 == 0 || b.rp)
   | .f => b.pfOk
   | .x => !b.rx || repeatable b.x
   | _ => true)

/-- The limits that span the V slots (R85, R89, R215, R283, R288). -/
def Bundle.spanOk (b : Bundle) : Bool :=
  slotWidth b.v0 + slotWidth b.v1 + slotWidth b.v2 ≤ 2048 &&
    b.codeCount 384 ≤ 1 && b.codeCount 385 ≤ 1 && b.codeCount 388 ≤ 1 &&
    crossXfer .v0 b.v0 + crossXfer .v1 b.v1 + crossXfer .v2 b.v2 ≤ 1 &&
    isVL b.v0 + isVL b.v1 + isVL b.v2 ≤ 1 && isBind b.v0 + isBind b.v1 + isBind b.v2 ≤ 1

/-- The static rules of R79 but for the granule rule of R91. -/
def Bundle.wf (b : Bundle) : Bool := b.headerOk && b.spanOk && allSlots.all b.slotOk

/-- The registers of a slot that lie past their cluster's allocation, in the order of R91. -/
def pastAlloc (a b c sh : Nat) (o : Option Instr) : List Nat :=
  match o with
  | none => []
  | some i => (namedRegs i).filter (fun r => !inAlloc a b c sh r)

/-- The first slot that names a register past its allocation, and the register (R91). -/
def Bundle.granule (bd : Bundle) (a b c sh : Nat) : Option (Slot × Nat) :=
  allSlots.findSome? (fun sl => match pastAlloc a b c sh (bd.at sl) with
    | [] => none
    | r :: _ => some (sl, r))

/-- The first slot that breaks a static rule, where the breach belongs to one; a span breach belongs to V0. -/
def Bundle.firstBad (b : Bundle) : Option Slot :=
  match allSlots.find? (fun sl => !b.slotOk sl) with
  | some sl => some sl
  | none => if b.spanOk then none else some .v0

end Sys2Proof
end

