-- ==== Sys2Proof/Machine/Operands.lean ====
section
/-! DEFINITION. Operand forms: S-slot registers in uniform and E-mode (R93, R131), lane masks (R197), V-slot sources (R88, R90,
R196), elements of registers (R116), and pops of the queues with their faults (R89, R172, R173, R192, R198). -/
namespace Sys2Proof.Machine

/-! ## S-slot operands -/

/-- The engines in force for the slot in hand (R130). -/
abbrev State.act (s : State) : Mask := s.ctx.act

/-- The sequencer that issues the slot in hand. -/
def Gang.me (g : Gang) (s : State) : Seq := g.seq s.ctx.spare

/-- g with the issuing sequencer changed by f. -/
def Gang.modMe (g : Gang) (s : State) (f : Seq → Seq) : Gang := g.modSeq s.ctx.spare f

/-- A source field under E = 1 in engine k: 0-15 name e-registers, 16-63 name s0-s47 (R93). -/
def readField (s : State) (g : Gang) (k : Nat) (en : Engine) (f : Nat) : Word :=
  if f < 16 then readE s k en f else readS s (g.me s) (f - 16)

/-- g with a result for s-register d that lands lat cycles on; a write to s0 is discarded (R87). -/
def Gang.writeS (g : Gang) (s : State) (lat d : Nat) (v : Word) : Gang :=
  if d = 0 then g else g.modMe s (fun q => q.land s.cycle lat (.s d v))

/-- g with a g-register result: the bits of mask (R139). -/
def Gang.writeG (g : Gang) (s : State) (d : Nat) (mask v : Mask) : Gang :=
  g.modMe s (fun q => q.land s.cycle 1 (.g d mask v))

/-- Engine en with a whole e-register result. -/
def Engine.writeE (en : Engine) (now lat d : Nat) (v : Word) : Engine := en.land now lat (.e d (BitVec.allOnes 64) v)

/-- The effect shared by the ALU instructions (R133): for the sequencer under E = 0, for each active engine under E = 1, the
operation on the context's source reader gives the destination's new value. -/
def aluOp (s : State) (e : BitVec 1) (d : BitVec 6) (lat : Nat) (op : (BitVec 6 → Word) → Word) : Out :=
  slotGang s (fun g =>
    if e = 0 then g.writeS s lat d.toNat (op (fun f => readS s (g.me s) f.toNat))
    else g.mapAct s.act (fun k en => en.writeE s.cycle lat d.toNat (op (fun f => readField s g k en f.toNat))))

/-! ## Lanes and elements -/

/-- Lane l of an engine is enabled by mask field m: 0 enables all, 1-7 name e1-e7 (R197). -/
def laneOn (s : State) (k : Nat) (en : Engine) (m : BitVec 3) (l : Nat) : Bool :=
  if m = 0 then true else (readE s k en m.toNat).getLsbD l

/-- Element i of w bits of a register (R116). -/
def elemAt (v : Vec) (w i : Nat) : Nat := v.toNat / 2 ^ (w * i) % 2 ^ w

/-- Element i of w bits of a wide register. -/
def fieldAt {n : Nat} (v : BitVec n) (w i : Nat) : Nat := v.toNat / 2 ^ (w * i) % 2 ^ w

/-- The bits of w-bit elements given by index and value. -/
def packElems (w : Nat) (l : List (Nat × Nat)) : Vec :=
  BitVec.ofNat 1024 (l.foldl (fun acc p => acc ||| (p.2 % 2 ^ w) <<< (w * p.1)) 0)

/-- The bits that w-bit elements of these indices occupy. -/
def maskElems (w : Nat) (l : List (Nat × Nat)) : Vec := packElems w (l.map (fun p => (p.1, 2 ^ w - 1)))

/-- A w-bit pattern in every element. -/
def splat (w : Nat) (x : Nat) : Vec := packElems w ((below (1024 / w)).map (fun i => (i, x)))

/-! ## Queues as a bundle sees them -/

/-- Queue c of an engine: 0 q0, 1 q1, 3 iq. -/
def Engine.queue (en : Engine) (c : Nat) : List QEntry := if c = 0 then en.q0 else if c = 1 then en.q1 else en.iq
/-- en with queue c changed by f. -/
def Engine.modQueue (en : Engine) (c : Nat) (f : List QEntry → List QEntry) : Engine :=
  if c = 0 then { en with q0 := f en.q0 } else if c = 1 then { en with q1 := f en.q1 } else { en with iq := f en.iq }

/-- The head of a queue as the bundle of cycle now sees it: the first entry not popped by an earlier bundle (R173). -/
def headEntry (q : List QEntry) (now : Nat) : Option QEntry :=
  q.find? (fun e => e.popped.isNone || e.popped == some now)

/-- The queue whose head a bundle pops: its head is marked popped in this cycle and retained (R38, R173). -/
def popHead (q : List QEntry) (now : Nat) : List QEntry :=
  match q with
  | [] => []
  | e :: t => if e.popped.isNone || e.popped == some now then { e with popped := some now } :: t else e :: popHead t now

/-- The queue that a source code names, if any (R88). -/
def codeQueue (c : Nat) : Option Nat :=
  if c = 384 ∨ c = 386 then some 0 else if c = 385 ∨ c = 387 then some 1 else if c = 388 then some 3 else none

/-- Whether a source code pops. -/
def codePops (c : Nat) : Bool := c == 384 || c == 385 || c == 388

/-- The 1024 bits at the head of a queue: a resolved entry's data; undefined bits where it has none, or where it is mixed with entries of
another source (R329). -/
def headData (s : State) (k : Nat) (en : Engine) (c : Nat) : Vec :=
  match headEntry (en.queue c) s.cycle with
  | some { result := some (.data v), mixed := false, .. } => v
  | _ => Config.freeVec s.free (freeTag 13 s.ctx.core k c)

/-- A V-slot source as 1024 bits whose elements of w bits are those the field supplies (R196): a register, a queue head, an
e-register broadcast or an inline integer converted to type t. -/
def vSource (s : State) (k : Nat) (en : Engine) (t : EType) (code : Nat) : Vec :=
  if code < 320 then readV s k en code
  else match codeQueue code with
    | some q => headData s k en q
    | none =>
      if code < 480 then splat t.width (readE s k en (code - 416)).toNat
      else splat t.width (encInt ((code : Int) - 496) t)

/-- A fault that one engine reports. -/
abbrev EngFault := Nat × MemFault

/-- A fault without address and lanes. -/
def plainFault (code : GFault) (detail : Nat) : MemFault := { code, vaddr := 0, lanes := 0, detail }

/-- Engine faults of one slot are raised together: the lowest engine decides the code, and the engines that report it are listed
(R47). Nothing is raised where there is none. -/
def Gang.raiseEngs (g : Gang) (s : State) (queue : Nat) (l : List EngFault) : Gang :=
  match l with
  | [] => g
  | (_, f) :: _ =>
    let eng := maskOf ((l.filter (fun r => r.2.code == f.code)).map (fun r => r.1))
    { g with raised := g.raised ++
        [{ code := f.code, rank := faultRank f.code s.ctx.slot queue, slot := slotNum s.ctx.slot, queue, engmask := eng,
           detail := f.detail, vaddr := f.vaddr, lanes := f.lanes, reason := f.reason, level := f.level }] }

/-- Whether the mask of a V instruction enables some lane below W/32 (R198). -/
def anyLane (s : State) (k : Nat) (en : Engine) (w : BitVec 2) (m : BitVec 3) : Bool :=
  (below (wBits w.toNat / 32)).any (laneOn s k en m)

/-- What the queue codes of a V instruction raise in engine k: QUEUE_UNDERFLOW on a queue that holds no entry (iq not while its
walker runs, R174), and the fault of the entry at the head unless the mask enables no lane (R172, R192, R198). -/
def popFaults (s : State) (k : Nat) (en : Engine) (anyOn : Bool) (codes : List Nat) : List (Nat × EngFault) :=
  (codes.filterMap codeQueue).filterMap (fun q =>
    match headEntry (en.queue q) s.cycle with
    | none =>
      if q = 3 ∧ en.walks.any (fun w => !w.done) then none
      else some (0xFF, k, plainFault .queueUnderflow q)
    | some e =>
      match e.result with
      | some (.fault f) => if anyOn then some (q, k, f) else none
      | _ => none)

/-- The faults of the queue codes of a V instruction over the active engines, with what else its engines report, raised by queue;
among the faults of the slot itself the lowest engine decides (R47). -/
def Gang.raisePopsWith (g : Gang) (s : State) (anyOn : Nat → Bool) (codes : List Nat) (own : Nat → List MemFault) : Gang :=
  let all := (maskList s.act).flatMap (fun k =>
    (own k).map (fun f => (0xFF, k, f)) ++ popFaults s k (g.eng k) (anyOn k) codes)
  let raiseQ (g : Gang) (q : Nat) : Gang := g.raiseEngs s q ((all.filter (fun r => r.1 == q)).map (·.2))
  raiseQ (raiseQ (raiseQ (raiseQ g 0) 1) 3) 0xFF

/-- The faults of the queue codes of a V instruction whose lane mask may enable no lane (R198). -/
def Gang.raisePops (g : Gang) (s : State) (w : BitVec 2) (m : BitVec 3) (codes : List Nat) : Gang :=
  g.raisePopsWith s (fun k => anyLane s k (g.eng k) w m) codes (fun _ => [])

/-- An engine after the pops of a V instruction's source codes (R89): performed whatever the lane mask. -/
def Engine.pops (en : Engine) (now : Nat) (codes : List Nat) : Engine :=
  codes.foldl (fun en c => if codePops c then
    match codeQueue c with
    | some q => en.modQueue q (fun l => popHead l now)
    | none => en
    else en) en

/-- The frame of every V-slot meaning: its queue codes raise their faults, or each active engine computes and its pops are
performed. -/
def vSlot (s : State) (w : BitVec 2) (m : BitVec 3) (codes : List Nat) (f : Gang → Nat → Engine → Engine) : Out :=
  slotGang s (fun g =>
    let g' := g.raisePops s w m codes
    if g'.raised.length ≠ g.raised.length then g'
    else g.mapAct s.act (fun k en => (f g k en).pops s.cycle codes))

/-- Engine en with elements of w bits of register d that land lat cycles on; nothing lands where no element is written. -/
def Engine.writeElems (en : Engine) (now lat d w : Nat) (l : List (Nat × Nat)) : Engine :=
  if l.isEmpty then en else en.land now lat (.v d (maskElems w l) (packElems w l))

/-- The indices of the w-bit elements below n whose lane is enabled (en(i) of R202). -/
def onElems (s : State) (k : Nat) (en : Engine) (m : BitVec 3) (w n : Nat) : List Nat :=
  (below n).filter (fun i => laneOn s k en m (i * w / 32))

end Sys2Proof.Machine
end

