-- ==== Sys2Proof/Machine/Memory.lean ====
section
/-! DEFINITION. Memory: the bytes at the home slices and in the die caches (R56-R62), poison (R194), lap words (R69, R70),
page walks and translation caches (R356-R362), and stores on their way (R39, R61). -/
namespace Sys2Proof.Machine

/-! ## Bytes -/

/-- n bytes of a memory from an address, the first least significant. -/
def loadBytes (m : Bytes) (a n : Nat) : Nat :=
  match n with
  | 0 => 0
  | n + 1 => (sget 0 m a).toNat + 256 * loadBytes m (a + 1) n

/-- A memory with bytes written from an address; a missing byte is left alone. -/
def storeBytes (m : Bytes) (a : Nat) (bs : List (Option Byte)) : Bytes :=
  match bs with
  | [] => m
  | b :: t => storeBytes (match b with
    | some v => sput 0 m a v
    | none => m) (a + 1) t

/-- The parts of n bytes from an address, one for each unit of u bytes: offset and length. -/
def partsBy (u a n : Nat) : List (Nat × Nat) :=
  if n = 0 then []
  else (below ((a + n - 1) / u - a / u + 1)).map (fun i =>
    let lo := u * i - (if i = 0 then 0 else a % u)
    (lo, min n (u * (i + 1) - a % u) - lo))

/-- The n low bytes of a value, as bytes that are all written. -/
def someBytes (n v : Nat) : List (Option Byte) := (bytesOf n v).map some

/-! ## Physical memory: home slices and die caches -/

/-- The C-die of a core. -/
def dieOf (core : Nat) : Nat := core / 9

/-- Line l of a die cache; an absent line holds nothing. -/
def State.line (s : State) (die l : Nat) : CacheLine := sget {} (s.dieCaches.getD die []) l
/-- s with line l of a die cache set; a line without bytes is absent. -/
def State.setLine (s : State) (die l : Nat) (c : CacheLine) : State :=
  { s with dieCaches := modAt s.dieCaches die (fun m => sput {} m l c) }

/-- The byte at a physical address as the home slice holds it. (DESIGN CHOICE, log 2) -/
def State.homeByte (s : State) (pa : Nat) : Byte := sget 0 s.mem pa

/-- The byte at a physical address as observers on a C-die read it (R61, R62). -/
def State.dieByte (s : State) (die pa : Nat) : Byte :=
  let c := s.line die (pa / 128)
  if c.valid.getLsbD (pa % 128) then c.data.extractLsb' (8 * (pa % 128)) 8 else s.homeByte pa

/-- n bytes as a die reads them, or as the home slices hold them. -/
def State.dieBytes (s : State) (die pa n : Nat) : Nat :=
  match n with
  | 0 => 0
  | n + 1 => (s.dieByte die pa).toNat + 256 * s.dieBytes die (pa + 1) n
def State.homeBytes (s : State) (pa n : Nat) : Nat := loadBytes s.mem pa n

/-- The mask of n bytes from byte b of a line. -/
def byteMask (b n : Nat) : BitVec 128 := BitVec.ofNat 128 ((2 ^ n - 1) <<< b)

/-- The home slice and the channel of a physical address (R58). -/
def sliceOf (pa : Nat) : Nat := (pa / 2 ^ 8 % 64) ^^^ (pa / 2 ^ 14 % 64) ^^^ (pa / 2 ^ 20 % 64)
def channelOf (pa : Nat) : Nat := 2 * sliceOf pa + pa / 128 % 2
/-- A bit of FENCEMAP that the hub keeps (R397): channels from 1,224, C-dies from 1,352, M-dies from 1,360, ports from 1,364. -/
def State.fenceBit (s : State) (b : Nat) : Bool := sget 0 s.hub.fences b == 1#1
/-- The address lies on a fenced channel or M-die: its sectors are poisoned until reset (R406, R407). -/
def State.lostMem (s : State) (pa : Nat) : Bool := s.fenceBit (1224 + channelOf pa) || s.fenceBit (1360 + sliceOf pa / 16)
/-- The C-die of a core is fenced: an access through it never completes normally (R407). -/
def State.deadDie (s : State) (die : Nat) : Bool := s.fenceBit (1352 + die)

/-- The sectors that a commit has locked so far. -/
def Commit.holds (c : Commit) : List Nat := c.sectors.take c.taken
/-- A commit has locked a sector under n bytes from a physical address (R308). (DEDUCED, log 22) -/
def State.locked (s : State) (pa n : Nat) : Bool :=
  s.commits.any (fun c => c.holds.any (fun x => decide (x < pa + n) && decide (pa < x + 32)))

/-- A poisoned sector lies under n bytes from a physical address. -/
def State.poisoned (s : State) (pa n : Nat) : Bool :=
  (upFrom (pa / 32) ((pa + n - 1) / 32 + 1 - pa / 32)).any (fun k => sget 0 s.poison k == 1#1 || s.lostMem (32 * k))
/-- The sectors that n bytes write whole lose their poison (R194). -/
def State.heal (s : State) (pa n : Nat) : State :=
  let lo := (pa + 31) / 32
  { s with poison := (upFrom lo ((pa + n) / 32 - lo)).foldl (fun p k => sput 0 p k 0) s.poison }
/-- A set of writes, each an address and its bytes, covers a byte. -/
def covers (ws : List (Nat × List Byte)) (a : Nat) : Bool := ws.any (fun w => decide (w.1 ≤ a) && decide (a < w.1 + w.2.length))
/-- The sectors that the writes of one store write whole. -/
def wholeSectors (ws : List (Nat × List Byte)) : List Nat :=
  let secs := (ws.flatMap (fun w => upFrom (w.1 / 32) ((w.1 + w.2.length + 31) / 32 - w.1 / 32))).eraseDups
  secs.filter (fun k => (upFrom (32 * k) 32).all (covers ws))
/-- They lose their poison (R194). -/
def State.healWrites (s : State) (ws : List (Nat × List Byte)) : State :=
  { s with poison := (wholeSectors ws).foldl (fun p k => sput 0 p k 0) s.poison }
/-- A sector is poisoned. -/
def State.hurt (s : State) (sector : Nat) : State := { s with poison := sput 0 s.poison sector 1 }
/-- n sectors are poisoned. -/
def State.hurtAll (s : State) (sector n : Nat) : State := (upFrom sector n).foldl State.hurt s

/-- The lines a home slice holds: 6 MiB (R15). -/
def sliceLines : Nat := 49152
/-- The lines a die cache holds: 48 MiB (R12). -/
def dieLines : Nat := 393216

/-- A line stands in its home slice from now on; a full slice gives up a line of its own, which the manual does not choose (R15, R178).
(DESIGN CHOICE, log 77) -/
def State.homeTouch (s : State) (l : Nat) : State :=
  if sget 0 s.homeLines l = 1 then s
  else
    let mine := s.homeLines.filter (fun e => sliceOf (128 * e.1) == sliceOf (128 * l))
    let gone := if mine.length < sliceLines then none else some (mine.getD (Config.freeNat s.free 2008 % mine.length) (l, 0)).1
    let kept := match gone with
      | some v => sput 0 s.homeLines v 0
      | none => s.homeLines
    { s with homeLines := sput 0 kept l 1 }

/-- A die drops its copy of a line: clean bytes go; dirty ones stay unless they too are dropped. -/
def State.dropClean (s : State) (die l : Nat) : State :=
  let c := s.line die l
  s.setLine die l { c with valid := c.dirty, data := if c.dirty = 0 then 0 else c.data, first := c.first && c.dirty != 0 }
def State.dropLine (s : State) (die l : Nat) : State := s.setLine die l {}

/-- A line's dirty bytes reach the home slice, merged by byte mask; every other die drops its clean copy first (R61, R62). -/
def State.writeBackLine (s : State) (die l : Nat) : State :=
  let c := s.line die l
  if c.dirty = 0 then s
  else
    let bs := (below 128).map (fun o => if c.dirty.getLsbD o then some (c.data.extractLsb' (8 * o) 8 : Byte) else none)
    let s := (below 8).foldl (fun s d => if d = die then s else s.dropClean d l) s
    { (s.setLine die l { c with dirty := 0 }).homeTouch l with mem := storeBytes s.mem (128 * l) bs }

/-- The line that a full die cache gives up (R61): one that PREF.dcx has marked (R190), else one that the manual does not choose; none
whose sectors a commit has locked. (DESIGN CHOICE, log 77) -/
def State.victim (s : State) (die : Nat) : Option Nat :=
  let ok := (s.dieCaches.getD die []).filter (fun e => !s.locked (128 * e.1) 128)
  match ok.find? (·.2.first) with
  | some e => some e.1
  | none => (ok[Config.freeNat s.free (2000 + die) % ok.length]?).map (·.1)

/-- A die cache has room for a line: a full one evicts another (R12, R61). (DESIGN CHOICE, log 77) -/
def State.makeRoom (s : State) (die l : Nat) : State :=
  let lines := s.dieCaches.getD die []
  if lines.any (fun e => e.1 == l) || decide (lines.length < dieLines) then s
  else match s.victim die with
    | some v => (s.writeBackLine die v).dropLine die v
    | none => s

/-- A die cache brings a line in: every byte is valid, dirty bytes keep their data (R58). -/
def State.fill (s : State) (die l : Nat) : State :=
  if (s.line die l).valid = BitVec.allOnes 128 then s
  else
    let s := s.makeRoom die l
    let c := s.line die l
    let data := BitVec.ofNat 1024 (s.dieBytes die (128 * l) 128)
    (s.setLine die l { c with valid := BitVec.allOnes 128, data }).homeTouch l

/-- A store reaches the die cache: one byte, valid and dirty. -/
def State.dieStore (s : State) (die pa : Nat) (b : Byte) : State :=
  let s := s.makeRoom die (pa / 128)
  let c := s.line die (pa / 128)
  let o := pa % 128
  s.setLine die (pa / 128) { c with valid := c.valid ||| byteMask o 1, dirty := c.dirty ||| byteMask o 1
                                    data := mergeBits c.data (BitVec.ofNat 1024 (255 <<< (8 * o))) (BitVec.ofNat 1024 (b.toNat <<< (8 * o))) }

/-- Stores of consecutive bytes reach the die cache. -/
def State.dieStores (s : State) (die pa : Nat) (bs : List (Option Byte)) : State :=
  match bs with
  | [] => s
  | b :: t => (match b with
    | some v => s.dieStore die pa v
    | none => s).dieStores die (pa + 1) t

/-- Before an access at the home slice: every die cache writes the line's dirty bytes back and drops its copy (R66), the dies in ascending
order. (DESIGN CHOICE, log 76) -/
def State.recall (s : State) (l : Nat) : State :=
  (below 8).foldl (fun s d => (s.writeBackLine d l).dropLine d l) s

/-- Bytes written at the home slices: every die cache's copy is dropped, as in R61, and the lines stand in their slices. -/
def State.homeStores (s : State) (pa : Nat) (bs : List (Option Byte)) : State :=
  let lines := (upFrom (pa / 128) ((pa + bs.length - 1) / 128 + 1 - pa / 128))
  let s := lines.foldl (fun s l => (below 8).foldl (fun s d => s.dropClean d l) (s.homeTouch l)) s
  { s with mem := storeBytes s.mem pa bs }

/-- The lines that a die cache holds dirty, in ascending order. -/
def State.dirtyLines (s : State) (die : Nat) : List Nat :=
  ((s.dieCaches.getD die []).filter (fun e => e.2.dirty != 0)).map (·.1)

/-- The write-backs that one event starts, each die with its lines in ascending order: the i-th line of a die arrives 240 + i cycles
after the event (R61). -/
def writeBacksOf (now event : Nat) (parts : List (Nat × List Nat)) : List WriteBack :=
  parts.flatMap (fun p => ((below p.2.length).zip p.2).map (fun x => { due := now + 240 + x.1, die := p.1, line := x.2, event }))
/-- An event starts the write-back of lines of die caches; its number, by which its waiter asks for their arrival. late: the
cycles until then. (DEDUCED, log 27) (DESIGN CHOICE, log 84) -/
def State.startWriteBack (s : State) (parts : List (Nat × List Nat)) (late : Nat := 0) : State × Nat :=
  ({ s with writeBacks := s.writeBacks ++ writeBacksOf (s.cycle + late) s.wbNext parts, wbNext := s.wbNext + 1 }, s.wbNext)
/-- Every write-back that an event started has arrived (R61). (DEDUCED, log 27; DESIGN CHOICE, log 84) -/
def State.writtenBack (s : State) (event : Nat) : Bool := s.writeBacks.all (fun w => w.event != event)

/-- A write-back arrives by now: it is due, and no commit has locked a sector of its line (R308). -/
def WriteBack.lands (w : WriteBack) (s : State) : Bool := decide (w.due ≤ s.cycle) && !s.locked (128 * w.line) 128
/-- Write-backs arrive, in order of their arrival. -/
def State.landWriteBacks (s : State) : State :=
  (s.writeBacks.filter (·.lands s)).foldl (fun s w => s.writeBackLine w.die w.line)
    { s with writeBacks := s.writeBacks.filter (fun w => !w.lands s) }

/-! ## Scratchpads and lap words -/

/-- The scratchpad of an engine. -/
def State.scratch (s : State) (core e : Nat) : Bytes :=
  match s.gang core with
  | some g => (g.eng e).scratch
  | none => []
/-- s with the scratchpad of an engine changed. -/
def State.modScratch (s : State) (core e : Nat) (f : Bytes → Bytes) : State :=
  s.modGang core (fun g => g.modEng e (fun en => { en with scratch := f en.scratch }))

/-- The number of the first sector of an engine's ceiling store. -/
def ceilSector : Nat := 2 ^ 20
/-- A scratchpad or ceiling store of a fenced engine, core or C-die: an access to it poisons or faults, and never completes normally (R407).
(DEDUCED, log 46) -/
def State.deadSram (s : State) (core e : Nat) : Bool :=
  s.deadDie (dieOf core) || (s.core core).fenced || inMask (s.core core).fencedEngines e
/-- A poisoned sector lies under n bytes from an offset of an engine's scratchpad, or of its ceiling store from sector `base` on (R194,
R405), or the engine is fenced. (DEDUCED, log 47) -/
def State.sramPoisoned (s : State) (core e base off n : Nat) : Bool :=
  s.deadSram core e || match s.gang core with
  | some g => (upFrom (base + off / 32) ((off + n - 1) / 32 + 1 - off / 32)).any (fun k => sget 0 (g.eng e).poison k == 1#1)
  | none => false
/-- Sectors of an engine's scratchpad or ceiling store lose their poison (R194). -/
def Engine.healSectors (en : Engine) (l : List Nat) : Engine := { en with poison := l.foldl (fun p k => sput 0 p k 0) en.poison }
/-- Those that n bytes from an offset write whole do. (DEDUCED, log 47) -/
def State.healSram (s : State) (core e base off n : Nat) : State :=
  let lo := (off + 31) / 32
  s.modGang core (fun g => g.modEng e (fun en => en.healSectors (upFrom (base + lo) ((off + n) / 32 - lo))))

/-- One counting update of n on the lap word at an offset of an engine's scratchpad (R70): count modulo TARGET is reached by that
many matches; a match with WAKE sets LAP where CR_LAPGATE admits the engine (R132). (DESIGN CHOICE, log 70) -/
def State.lapCount (s : State) (core e off n : Nat) : State :=
  let m := s.scratch core e
  let tgt := loadBytes m off 4
  let c := loadBytes m (off + 4) 4 + n
  let lap := loadBytes m (off + 8) 4
  let flags := loadBytes m (off + 12) 4
  let sat := decide (2 ^ 32 ≤ c)
  let c := if sat then 2 ^ 32 - 1 else c
  let hits := if tgt = 0 then 0 else c / tgt
  let count := if tgt = 0 then c else c % tgt
  let flags' := if sat ∧ flags / 2 % 2 = 0 then flags + 2 else flags
  let word := count + (lap + hits) % 2 ^ 32 * 2 ^ 32 + flags' * 2 ^ 64
  let s := s.modScratch core e (fun m => storeBytes m (off + 4) (someBytes 12 word))
  if hits ≠ 0 ∧ flags % 2 = 1 then
    s.modGang core (fun g => if inMask g.lapGate e then g.setEvent 1#4 else g)
  else s

/-! ## Page tables (R356-R358) -/

/-- The index of a virtual address at a level. -/
def tblIndex (level va : Nat) : Nat :=
  if level = 1 then va / 2 ^ 39 % 512 else if level = 2 then va / 2 ^ 30 % 512 else if level = 3 then va / 2 ^ 21 % 512
  else va / 2 ^ 16 % 32

/-- The bits of the offset under a leaf of a level. -/
def pageBits (level : Nat) : Nat := if level = 2 then 30 else if level = 3 then 21 else 16

/-- The format of an entry (R357): reserved bits, LEAF by level, a pointer's zero bits, SPARSE on a 1 GiB leaf, alignment. -/
def entryOk (level ent : Nat) : Bool :=
  let leaf := ent / 2 % 2 == 1
  let addr := ent / 256 % 2 ^ 32 * 256
  ent / 2 ^ 40 == 0 && ent / 32 % 8 == 0 &&
    (if leaf then level != 1 && addr % 2 ^ pageBits level == 0 && !(level == 2 && ent / 16 % 2 == 1)
     else level != 4 && ent / 4 % 8 == 0 && (level == 3 || addr % 4096 == 0))

/-- Where a walk stopped short: code, reason and level (R358, R360). -/
structure XFault where
  code : GFault
  reason : Nat
  level : Nat
  deriving DecidableEq, Repr

/-- The leaf for an address: its level, the place of the entry and the entry; the leaf's own VALID and permissions are not
applied (R358, R366). -/
def walkLeaf (s : State) (va ptr : Nat) (levels : List Nat) : Except XFault (Nat × Nat × Nat) :=
  match levels with
  | [] => .error ⟨.page, 2, 4⟩
  | level :: t =>
    let at_ := ptr + 8 * tblIndex level va
    let ent := s.homeBytes at_ 8
    if s.poisoned at_ 8 then .error ⟨.page, 5, level⟩
    else if !entryOk level ent then .error ⟨.page, 2, level⟩
    else if ent / 2 % 2 = 1 then .ok (level, at_, ent)
    else if ent % 2 = 0 then .error ⟨.page, 1, level⟩
    else walkLeaf s va (ent / 256 % 2 ^ 32 * 256) t

/-- The leaf that a context maps an address with. -/
def State.leaf (s : State) (asid va : Nat) : Except XFault (Nat × Nat × Nat) :=
  match kfind s.contexts asid with
  | some c => walkLeaf s va c.root [1, 2, 3, 4]
  | none => .error ⟨.page, 1, 1⟩

/-- A walk of R358, giving the leaf in the form a cache keeps. -/
def State.walk (s : State) (asid va : Nat) : Except XFault TcEntry :=
  match s.leaf asid va with
  | .error f => .error f
  | .ok (level, _, ent) =>
    if ent % 2 = 0 then
      if ent / 16 % 2 = 1 then .error ⟨.sparse, 3, level⟩ else .error ⟨.page, 1, level⟩
    else .ok { asid, level, va := va / 2 ^ pageBits level * 2 ^ pageBits level, frame := ent / 256 % 2 ^ 32 * 256,
               rd := ent / 4 % 2 == 1, wr := ent / 8 % 2 == 1, sparse := ent / 16 % 2 == 1 }

/-- A leaf as the access needs it: its frame address plus the offset, or PERMISSION. -/
def TcEntry.use (e : TcEntry) (va : Nat) (rd wr : Bool) : Except XFault Nat :=
  if (rd && !e.rd) || (wr && !e.wr) then .error ⟨.permission, 4, e.level⟩
  else .ok (e.frame + va % 2 ^ pageBits e.level)

/-! ## Translation caches (R361, R362) -/

/-- The cached leaf that covers an address. -/
def tcFind (l : List TcEntry) (asid va : Nat) : Option TcEntry :=
  l.find? (fun e => e.asid == asid && va / 2 ^ pageBits e.level == e.va / 2 ^ pageBits e.level)

/-- Translation caches by number: 0-71 core, 72-215 copy engines (two a core), 216-223 C-die, 224 hub. -/
def State.tcOf (s : State) (id : Nat) : List TcEntry :=
  if id < 72 then (s.core id).tc
  else if id < 216 then (if id % 2 = 0 then (s.core ((id - 72) / 2)).tcCp0 else (s.core ((id - 72) / 2)).tcCp1)
  else if id < 224 then s.dieTc.getD (id - 216) []
  else s.hubTc
/-- s with a translation cache changed. -/
def State.modTc (s : State) (id : Nat) (f : List TcEntry → List TcEntry) : State :=
  if id < 72 then s.modCore id (fun c => { c with tc := f c.tc })
  else if id < 216 then
    s.modCore ((id - 72) / 2) (fun c => if id % 2 = 0 then { c with tcCp0 := f c.tcCp0 } else { c with tcCp1 := f c.tcCp1 })
  else if id < 224 then { s with dieTc := modAt s.dieTc (id - 216) f }
  else { s with hubTc := f s.hubTc }

/-- The entries a translation cache holds. -/
def tcSize (id : Nat) : Nat := if id < 72 then 512 else if id < 216 then 64 else if id < 224 then 8192 else 256

/-- A cache takes a leaf; a full one replaces an entry that the manual does not specify (R361). (DESIGN CHOICE, log 63) -/
def State.tcPut (s : State) (id : Nat) (e : TcEntry) : State :=
  s.modTc id (fun l =>
    if l.length < tcSize id then e :: l else e :: l.eraseIdx (Config.freeNat s.free (id + 1000) % l.length))

/-- The die cache of translations behind a cache; none behind the hub's. -/
def tcBehind (id : Nat) : Option Nat :=
  if id < 72 then some (216 + dieOf id) else if id < 216 then some (216 + dieOf ((id - 72) / 2)) else none

/-- A lookup: the state with the caches filled, and the physical address or the fault (R358, R361). A miss of a core cache is
counted (R360). -/
def State.translate (s : State) (id asid va : Nat) (rd wr : Bool) : State × Except XFault Nat :=
  match tcFind (s.tcOf id) asid va with
  | some e => (s, e.use va rd wr)
  | none =>
    let s := if id < 72 then s.modCore id (fun c => if c.tcSet = s.cycle then c else { c with tcMiss := c.tcMiss + 1 }) else s
    match (match tcBehind id with
      | some d => tcFind (s.tcOf d) asid va
      | none => none) with
    | some e => (s.tcPut id e, e.use va rd wr)
    | none =>
      match s.walk asid va with
      | .error f => (s, .error f)
      | .ok e =>
        let s := s.tcPut id e
        ((match tcBehind id with
          | some d => s.tcPut d e
          | none => s), e.use va rd wr)

/-- The cycles that a lookup adds on the uncontended path (R362). -/
def State.missCost (s : State) (id asid va : Nat) : Nat :=
  match tcFind (s.tcOf id) asid va with
  | some _ => if id = 224 then 24 else 0
  | none =>
    match (match tcBehind id with
      | some d => tcFind (s.tcOf d) asid va
      | none => none) with
    | some _ => 24
    | none => 24 + 240 * (match s.leaf asid va with
      | .ok (level, _, _) => level
      | .error f => f.level)

/-- A lookup of the address waits while a release that covers it is under way (R367). -/
def State.releasing (s : State) (asid va : Nat) : Bool :=
  s.invs.any (fun v => v.release.isSome && v.asid == asid && decide (v.arrives ≤ s.cycle) && decide (v.base ≤ va) &&
    decide (va < v.base + v.size))

/-- A lookup of one of n bytes does. -/
def State.releasingAny (s : State) (asid va n : Nat) : Bool :=
  !s.invs.isEmpty && (partsBy 65536 va n).any (fun p => s.releasing asid (va + p.1))

/-- What the lookups of n bytes add to a time that holds hits in the hub cache (R362). (DEDUCED, log 80) -/
def State.hubMiss (s : State) (asid va n : Nat) : Nat :=
  (partsBy 65536 va n).foldl (fun m p => max m (s.missCost 224 asid ((va + p.1) % 2 ^ 48) - 24)) 0

/-- A lookup that first uses leaves through which the access was translated before an invalidation removed them (R368). -/
def State.translatePinned (s : State) (pins : List TcEntry) (id asid va : Nat) (rd wr : Bool) : State × Except XFault Nat :=
  match tcFind pins asid va with
  | some e => (s, e.use va rd wr)
  | none => s.translate id asid va rd wr

/-! ## Scratchpad banks (R176, R177) -/

/-- Passes of a scratchpad access over the units it touches: the most distinct rows in one bank (R176). -/
def passes (units : List Nat) : Nat :=
  let us := units.eraseDups
  us.foldl (fun m u => max m (us.filter (fun w => w % 31 == u % 31)).length) 1

/-- The 32 B units of n bytes from an offset. -/
def unitsOf (off n : Nat) : List Nat := upFrom (off / 32) ((off + n - 1) / 32 + 1 - off / 32)

/-- The cycle from now on in which an M0 or M1 access of the engine itself finds its banks free: it is served before the other
requesters of a cycle, and waits for passes that began earlier (R177). (DEDUCED, log 78) -/
def Engine.bankStart (en : Engine) (now : Nat) (units : List Nat) : Nat :=
  units.foldl (fun m u =>
    let b := sget {} en.banks (u % 31)
    max m (max b.own b.until_)) now

/-- An access of the engine itself holds its banks until its last pass. -/
def Engine.bankOwn (en : Engine) (start : Nat) (units : List Nat) : Engine :=
  { en with banks := units.foldl (fun m u => sput {} m (u % 31) { sget {} m (u % 31) with own := start + passes units }) en.banks }

/-- The banks of some units are free for an access from outside: of another engine, a lap count, a released store, a copy engine. Its first
pass is that of the cycle just over, in which every access of the engine itself is known (R177). (DEDUCED, log 78) -/
def Engine.banksFree (en : Engine) (now : Nat) (units : List Nat) : Bool :=
  units.all (fun u => let b := sget {} en.banks (u % 31); decide (b.own ≤ now - 1) && decide (b.until_ ≤ now - 1))

/-- An access from outside takes its banks from the cycle just over on and holds them until its last pass. -/
def Engine.bankTake (en : Engine) (now : Nat) (units : List Nat) : Engine :=
  { en with banks := units.foldl (fun m u =>
      sput {} m (u % 31) { sget {} m (u % 31) with until_ := now - 1 + passes units }) en.banks }

/-- The banks under units of a scratchpad are free for an access from outside; s with them taken. -/
def State.banksFree (s : State) (core e : Nat) (units : List Nat) : Bool :=
  match s.gang core with
  | some g => (g.eng e).banksFree s.cycle units
  | none => true
/-- Passes of an engine's scratchpad are taken in this cycle (R177). (DEDUCED, log 78) -/
def State.bankTake (s : State) (core e : Nat) (units : List Nat) : State :=
  s.modGang core (fun g => g.modEng e (fun en => en.bankTake s.cycle units))

/-! ## Stores on their way (R39) -/

/-- The scratchpad units under a transit's writes. -/
def Transit.units (t : Transit) : List Nat := t.writes.flatMap (fun w => unitsOf w.1 w.2.length)

/-- The lines of a die cache that an engine's own stores and atomics have reached. -/
def State.noteLines (s : State) (core k : Nat) (lines : List Nat) : State :=
  s.modGang core (fun g => g.modEng k (fun en => { en with wrote := (en.wrote ++ lines).eraseDups }))

/-- The sectors that writes touch. -/
def sectorsOf (ws : List (Nat × List Byte)) : List Nat :=
  ws.flatMap (fun w => upFrom (w.1 / 32) ((w.1 + w.2.length + 31) / 32 - w.1 / 32))

/-- Bytes that a store written through has reached at their home slice: older bytes of its own die's cache there are gone (R64, R309). -/
def State.dropBytes (s : State) (die pa n : Nat) : State :=
  (upFrom (pa / 128) ((pa + n - 1) / 128 + 1 - pa / 128)).foldl (fun s l =>
    let c := s.line die l
    let m := (upFrom pa n).foldl (fun (m : BitVec 128) a => if a / 128 = l then m ||| byteMask (a % 128) 1 else m) 0
    let d := c.dirty &&& ~~~ m
    s.setLine die l { c with valid := c.valid &&& ~~~ m, dirty := d, data := mergeBits c.data (spread m) 0, first := c.first && d != 0 }) s
where
  /-- The bits of the bytes of a mask. -/
  spread (m : BitVec 128) : BitVec 1024 :=
    (below 128).foldl (fun (x : BitVec 1024) i => if m.getLsbD i then x ||| (255#1024 <<< (8 * i)) else x) 0

/-- Released bytes reach the place where they are performed; at a fenced unit they poison it (R407). (DEDUCED, log 46) -/
def State.landTransit (s : State) (t : Transit) : State :=
  match t.target with
  | .scratch core e =>
    if s.deadSram core e then
      s.modGang core (fun g => g.modEng e (fun en => { en with poison := (sectorsOf t.writes).foldl (fun p k => sput 0 p k 1) en.poison }))
    else ((t.writes.foldl (fun s w => s.modScratch core e (fun m => storeBytes m w.1 (w.2.map some))) s).modGang core (fun g =>
      g.modEng e (fun en => en.healSectors (wholeSectors t.writes)))).bankTake core e t.units
  | .die d =>
    if s.deadDie d then (sectorsOf t.writes).foldl State.hurt s
    else ((t.writes.foldl (fun s w => s.dieStores d w.1 (w.2.map some)) s).healWrites t.writes).noteLines t.core t.engine
      (t.writes.map (fun w => w.1 / 128))
  | .home =>
    if s.deadDie (dieOf t.core) then (sectorsOf t.writes).foldl State.hurt s
    else (t.writes.foldl (fun s w => (s.homeStores w.1 (w.2.map some)).dropBytes (dieOf t.core) w.1 w.2.length) s).healWrites t.writes

/-- Two transits write a byte in common. -/
def Transit.overlaps (t u : Transit) : Bool :=
  t.writes.any (fun w => u.writes.any (fun x => decide (w.1 < x.1 + x.2.length) && decide (x.1 < w.1 + w.2.length)))

/-- Two places are the same scratchpad, or both global memory. -/
def Target.same : Target → Target → Bool
  | .scratch c e, .scratch d f => c == d && e == f
  | .scratch _ _, _ => false
  | _, .scratch _ _ => false
  | _, _ => true

/-- A transit that is still on its way holds up those behind it of its own engine to the same place, and those of its gang's higher
engines that write its bytes (R64, R182). -/
def Transit.blocks (t u : Transit) : Bool := t.core == u.core && t.target.same u.target && (t.engine == u.engine || t.overlaps u)

end Sys2Proof.Machine
end

