-- ==== Sys2Proof/Machine/Access.lean ====
section
/-! DEFINITION. The access unit at issue (R168-R194): addresses and their checks (R52-R55, R181), path times (R54, R176-R178),
pushes into the queues (R171, R172), loads, stores, atomics, fences, SCOP, LAPADD and PREF; the parts that belong to an open
transaction (R297-R303). -/
namespace Sys2Proof.Machine

/-- addr_add (R168): the space tag is kept, the other bits wrap. -/
def addrAdd (a off : Word) : Word := (a &&& 0xF000000000000000#64) ||| ((a + off) &&& 0x0FFFFFFFFFFFFFFF#64)

/-- The space tag of an address (R52). -/
def tagOf (a : Word) : Nat := (a.extractLsb' 60 4).toNat

/-! ## Where an address leads (R52-R55, R181) -/

/-- The place of an access: a scratchpad with its latency class (0: own), or a virtual address. -/
inductive Route where
  | scr (core engine off cls : Nat)
  | va (va : Nat)
  deriving DecidableEq, Repr

/-- The spaces an instruction allows: tags 0-3, tag 0 alone, or tags 1-3. -/
inductive SpaceSet where
  | all | globalOnly | scratchOnly
  deriving DecidableEq, Repr

def SpaceSet.allows (sp : SpaceSet) (tag : Nat) : Bool :=
  match sp with
  | .all => tag ≤ 3
  | .globalOnly => tag == 0
  | .scratchOnly => 1 ≤ tag && tag ≤ 3

/-- The route of n bytes at an address for engine k of the gang on a core, or its fault and DETAIL bits, in the order of R193:
address format, space, SCRATCH_RANGE, ALIGNMENT. skew is the place of a part in the block whose alignment is asked. -/
def routeOf (s : State) (core : Nat) (g : Gang) (k : Nat) (sp : SpaceSet) (a : Word) (n align : Nat) (skew : Nat := 0) :
    Except (GFault × Nat) Route :=
  let tag := tagOf a
  let off := (a.extractLsb' 0 22).toNat
  let eng := (a.extractLsb' 24 4).toNat
  let pos := (a.extractLsb' 28 5).toNat
  let offOk := off + n ≤ g.info.spSize
  let aligned (r : Route) : Except (GFault × Nat) Route := if a.toNat % align = skew then .ok r else .error (.alignment, 0)
  if 6 ≤ tag ∨ ((tag = 0 ∨ tag = 5) ∧ (a.extractLsb' 48 12) ≠ 0) then .error (.page, 1)
  else if tag = 4 then .error (.scratchRange, 0)
  else if !sp.allows tag then .error (.page, 2)
  else if tag = 0 then aligned (.va a.toNat)
  else if tag = 1 then
    if (a.extractLsb' 22 38) ≠ 0 ∨ !offOk then .error (.scratchRange, 0) else aligned (.scr core k off 0)
  else if tag = 2 then
    if (a.extractLsb' 28 32) ≠ 0 ∨ (a.extractLsb' 22 2) ≠ 0 ∨ !offOk ∨ !inMask g.live eng then .error (.scratchRange, 0)
    else aligned (.scr core eng off 1)
  else
    let tc := g.info.cores.getD pos core
    if (a.extractLsb' 33 27) ≠ 0 ∨ (a.extractLsb' 22 2) ≠ 0 ∨ !offOk ∨ g.info.ngang ≤ pos ∨
        !(match s.gang tc with
          | some t => inMask t.live eng
          | none => true) then .error (.scratchRange, 0)
    else aligned (.scr tc eng off (if pos = g.info.pos then 1 else if g.info.sameDie.getLsbD pos then 2 else 3))

/-- Cycles of a latency class (R111). -/
def classCost (cls : Nat) : Nat := if cls = 0 then 14 else if cls = 1 then 24 else if cls = 2 then 60 else 140

/-! ## Path times (R176-R178) -/

/-- The path of a line (R178): die-cache hit, home-slice hit or LPDDR 5X. -/
def linePath (s : State) (die line : Nat) (home : Bool) : Nat :=
  if !home && (s.line die line).valid == BitVec.allOnes 128 then 96
  else if sget 0 s.homeLines line = 1 then 240 else 520

/-- The physical address that a lookup of a virtual address in a translation cache would find now; none where the lookup fails. -/
def peekPa (s : State) (id asid va : Nat) (rd wr : Bool) : Option Nat :=
  match (match tcFind (s.tcOf id) asid va with
    | some e => e.use va rd wr
    | none => match s.walk asid va with
      | .ok e => e.use va rd wr
      | .error f => .error f) with
  | .ok pa => some pa
  | .error _ => none
/-- Its line. -/
def peekLine (s : State) (id asid va : Nat) (rd wr : Bool) : Option Nat := (peekPa s id asid va rd wr).map (· / 128)

/-- The cycles from a request to the data of a virtual address's line: the lookup, and the path of R178 unless the lookup fails,
which ends the access with its fault (R41, outcome B). -/
def pathTo (s : State) (core id asid va : Nat) (rd wr home : Bool) : Nat :=
  s.missCost id asid va + (match peekLine s id asid va rd wr with
    | some l => linePath s (dieOf core) l home
    | none => 0)

/-- The distinct keys of a list in ascending order. -/
def ascending (l : List Nat) : List Nat := (sortBy (fun a b => decide (a < b)) l).eraseDups

/-- The cycle in which the data of an access can be there (R178): scratchpad passes, lines one per cycle, misses, and contention
beyond the own scratchpad. -/
def accessReady (s : State) (core : Nat) (g : Gang) (k : Nat) (sp : SpaceSet) (home atomic : Bool) (align : Nat)
    (ps : List Piece) : Nat :=
  let routes := ps.map (fun p => (p, routeOf s core g k sp p.addr p.bytes align))
  let scr := routes.filterMap (fun r => match r.2 with
    | .ok (.scr c e off cls) => some ((c, e), cls, unitsOf off r.1.bytes)
    | _ => none)
  let scrCost := scr.map (fun x =>
    let us := (scr.filter (fun y => y.1 == x.1)).flatMap (fun y => y.2.2)
    classCost x.2.1 + passes us - 1 + (if atomic then 2 else 0))
  let lines := ascending (routes.filterMap (fun r => match r.2 with
    | .ok (.va a) => some (a / 128)
    | _ => none))
  let lineCost := ((below lines.length).zip lines).map (fun p =>
    p.1 + pathTo s core core g.info.asid (128 * p.2) true atomic home)
  let far := !lines.isEmpty || scr.any (fun x => x.2.1 != 0)
  let t := (scrCost ++ lineCost).foldl max 0
  s.cycle + t + (if far then Config.contention s.free (freeTag 20 core k 0) else 0)

/-- The units of an access's pieces in the engine's own scratchpad under tag 1, and the access's place in its banks: the cycle in which
its data can be there, given the cycle ready that the rest of it needs, and the engine with its banks held (R177).
(DEDUCED, log 78) -/
def ownUnits (s : State) (core : Nat) (g : Gang) (k : Nat) (sp : SpaceSet) (align : Nat) (ps : List Piece) : List Nat :=
  ps.flatMap (fun p => match routeOf s core g k sp p.addr p.bytes align with
    | .ok (.scr _ _ off 0) => unitsOf off p.bytes
    | _ => [])
def Engine.ownPath (en : Engine) (now : Nat) (units : List Nat) (atomic : Bool) (ready : Nat) : Nat × Engine :=
  let start := en.bankStart now units
  if units.isEmpty then (ready, en)
  else (max ready (start + 13 + passes units + if atomic then 2 else 0), en.bankOwn start units)

/-! ## Transactions at issue (R297-R303) -/

/-- The address of a piece is not aligned: to its own bytes, or for a part of a block to the block (R181, R297). -/
def Piece.misaligned (p : Piece) : Bool :=
  match p.block with
  | some (n, o) => p.addr.toNat % n != o
  | none => p.addr.toNat % max 1 p.bytes != 0

/-- Lane l of log t becomes doomed, with its first cause. -/
def TxLog.doom (t : TxLog) (l cause : Nat) : TxLog :=
  if t.members.getLsbD l && !t.doomed.getLsbD l then
    { t with doomed := t.doomed ||| (1#32 <<< l), causes := t.causes ++ [(l, cause)] }
  else t

/-- Lane l of the transaction id becomes doomed, wherever its log stands; the first cause 3 since TXBEGIN fills CR_TXFAULT. -/
def TxState.doom (t : TxState) (id l cause code va : Nat) : TxState :=
  let fresh := t.cur.id == id && t.cur.members.getLsbD l && !t.cur.doomed.getLsbD l && cause == 3 && t.fcode == 0
  let t := { t with cur := if t.cur.id = id then t.cur.doom l cause else t.cur
                    closing := t.closing.map (fun c => if c.id = id then c.doom l cause else c) }
  if fresh then { t with fcode := code, flane := l, fva := va % 2 ^ 48 } else t

/-- The write-log entry of a lane for a sector. -/
def TxLog.write? (t : TxLog) (l va : Nat) : Option TxWrite := t.writes.find? (fun w => w.lane == l && w.va == va)
/-- The read-log entry of a lane for a sector. -/
def TxLog.read? (t : TxLog) (l va : Nat) : Option TxRead := t.reads.find? (fun r => r.lane == l && r.va == va)

/-- A load part at issue under an open transaction: the part as its entry keeps it, and the transaction with the read entry it
takes (R300, R301). A part whose address breaks R53 or R181 dooms its lane (R303). -/
def txLoadPart (t : TxState) (p : Piece) : Piece × TxState :=
  if tagOf p.addr ≠ 0 ∨ !t.opened ∨ !t.cur.members.getLsbD p.lane then (p, t)
  else if t.cur.serial then ({ p with tx := .serial }, t)
  else if t.cur.doomed.getLsbD p.lane then ({ p with tx := .dead }, t)
  else if p.addr.extractLsb' 48 12 ≠ 0 then ({ p with tx := .dead }, t.doom t.cur.id p.lane 3 GFault.page.code p.addr.toNat)
  else if p.misaligned then ({ p with tx := .dead }, t.doom t.cur.id p.lane 3 GFault.alignment.code p.addr.toNat)
  else
    let va := p.addr.toNat % 2 ^ 48
    let sec := va / 32 * 32
    let (mask, data) := match t.cur.write? p.lane sec with
      | some w => (w.mask.toNat / 2 ^ (va % 32) % 2 ^ p.bytes, w.data.toNat / 2 ^ (8 * (va % 32)) % 2 ^ (8 * p.bytes))
      | none => (0, 0)
    let q := { p with tx := .logged t.cur.id mask, data }
    if mask = 2 ^ p.bytes - 1 ∨ (t.cur.read? p.lane sec).isSome then (q, t)
    else if 256 ≤ t.cur.reads.length + (t.closing.map (fun l => l.reads.length)).sum then
      ({ p with tx := .dead }, t.doom t.cur.id p.lane 2 0 0)
    else (q, { t with cur := { t.cur with reads := t.cur.reads ++ [{ lane := p.lane, va := sec }] } })

/-- Bytes merged into a write entry. -/
def TxWrite.merge (w : TxWrite) (o n data : Nat) : TxWrite :=
  { w with data := mergeBits w.data (BitVec.ofNat 256 ((2 ^ (8 * n) - 1) <<< (8 * o))) (BitVec.ofNat 256 (data <<< (8 * o)))
           mask := w.mask ||| BitVec.ofNat 32 ((2 ^ n - 1) <<< o) }

/-- A store part at issue: held when it is plain or serial, else merged into the write log or discarded (R302, R303). -/
def txStorePart (t : TxState) (p : Piece) : Option Piece × TxState :=
  if tagOf p.addr ≠ 0 ∨ !t.opened ∨ !t.cur.members.getLsbD p.lane then (some p, t)
  else if t.cur.serial then (some { p with tx := .serial }, t)
  else if t.cur.doomed.getLsbD p.lane then (none, t)
  else if p.addr.extractLsb' 48 12 ≠ 0 then (none, t.doom t.cur.id p.lane 3 GFault.page.code p.addr.toNat)
  else if p.misaligned then (none, t.doom t.cur.id p.lane 3 GFault.alignment.code p.addr.toNat)
  else
    let va := p.addr.toNat
    let sec := va / 32 * 32
    match t.cur.write? p.lane sec with
    | some _ => (none, { t with cur := { t.cur with writes := t.cur.writes.map (fun w =>
        if w.lane = p.lane ∧ w.va = sec then w.merge (va % 32) p.bytes p.data else w) } })
    | none =>
      if 128 ≤ t.cur.writes.length + (t.closing.map (fun l => l.writes.length)).sum then (none, t.doom t.cur.id p.lane 2 0 0)
      else (none, { t with cur := { t.cur with
        writes := t.cur.writes ++ [TxWrite.merge { lane := p.lane, va := sec, part := va } (va % 32) p.bytes p.data] } })

/-- A part per 4 B lane of a block access (R297). -/
def blockParts (p : Piece) : List Piece :=
  (below (p.bytes / 4)).map (fun l =>
    { lane := l, addr := addrAdd p.addr (BitVec.ofNat 64 (4 * l)), bytes := 4, data := p.data / 2 ^ (32 * l) % 2 ^ 32,
      block := some (p.bytes, 4 * l) })

/-- The parts of an access while a transaction may be open. -/
def partsFor (t : TxState) (block : Bool) (ps : List Piece) : List Piece :=
  if t.opened && block && ps.any (fun p => tagOf p.addr == 0) then ps.flatMap blockParts else ps

/-- Load parts in ascending lane order. -/
def txLoads (t : TxState) : List Piece → List Piece × TxState
  | [] => ([], t)
  | p :: r =>
    let x := txLoadPart t p
    let y := txLoads x.2 r
    (x.1 :: y.1, y.2)
/-- Store parts in ascending lane order. -/
def txStores (t : TxState) : List Piece → List Piece × TxState
  | [] => ([], t)
  | p :: r =>
    let x := txStorePart t p
    let y := txStores x.2 r
    ((match x.1 with
      | some q => [q]
      | none => []) ++ y.1, y.2)

/-! ## Pushes (R171, R172) -/

/-- Entries that an M instruction takes: which queue (0 q0, 1 q1, 2 store queue), and how many. -/
def Engine.room (en : Engine) (q n : Nat) : Bool :=
  (if q = 0 then en.q0.length else if q = 1 then en.q1.length else en.sq.length) + n ≤ 64

/-- The frame of an M-slot meaning: QUEUE_OVERFLOW where the entries do not fit (R172), else f in each active engine and then post. -/
def mSlotThen (s : State) (q n : Nat) (f : Gang → Nat → Engine → Engine) (post : Gang → Gang) : Out :=
  slotGang s (fun g =>
    let bad := (maskList s.act).filter (fun k => !(g.eng k).room q n)
    if bad = [] then post (g.mapAct s.act (fun k en => f g k en))
    else g.raiseEngs s 0xFF (bad.map (fun k => (k, plainFault .queueOverflow q))))

/-- An M-slot meaning that touches the active engines only. -/
def mSlot (s : State) (q n : Nat) (f : Gang → Nat → Engine → Engine) : Out := mSlotThen s q n f (fun g => g)

/-- The walker operation gathers values (R328): ESIZE is not 0. -/
def WalkOp.gathers (w : WalkOp) : Bool := (sget 0 w.regs 5).toNat % 4 != 0

/-- An entry of an instruction joins queue q while a gathering walker runs or waits in the engine: which entry a pop of q1 returns is then
undefined, until every entry that was there is popped (R329). (DEDUCED, log 19) -/
def Engine.mixes (en : Engine) (q opcode : Nat) : Bool := q == 1 && opcode != 0x23 && en.walks.any (·.gathers)

/-- A queue with an entry more; mix: it and the entries not yet popped have no known order. -/
def pushEntry (l : List QEntry) (mix : Bool) (e : QEntry) : List QEntry :=
  let l := if mix then l.map (fun x => { x with mixed := x.mixed || x.popped.isNone }) else l
  l ++ [{ e with mixed := mix || l.any (fun x => x.popped.isNone && x.mixed) }]

/-- An entry at the end of a load-data queue. -/
def Engine.push (en : Engine) (s : State) (q : Nat) (acc : Access) (ready : Nat) : Engine :=
  { en.modQueue q (fun l => pushEntry l (en.mixes q acc.opcode) {
      serial := en.serial, acc := { acc with from_ := en.regionFrom }, issued := s.cycle,
      readyAt := ready, result := none, popped := none }) with serial := en.serial + 1 }

/-- A held store at the end of the store queue, complete at issue. -/
def Engine.hold (en : Engine) (s : State) (acc : Access) : Engine :=
  { en with sq := en.sq ++ [{ serial := en.serial, acc, marker := none, completeAt := s.cycle, issued := s.cycle }]
            serial := en.serial + 1 }

/-- The place of an immediate operation without a result (R172, R192). (DEDUCED, log 24) -/
def Engine.place (en : Engine) (s : State) (acc : Access) (ready : Nat) : Engine :=
  { en with sq := en.sq ++ [{ serial := en.serial, acc := { acc with from_ := en.regionFrom }, marker := some none,
                              completeAt := ready, issued := s.cycle }]
            serial := en.serial + 1 }

/-- A fence mark in the engine's program order. -/
def Engine.mark (en : Engine) (kind scope : Nat) (inst : Nat := 0) : Engine :=
  { en with fences := en.fences ++ [{ serial := en.serial, kind, scope, from_ := en.regionFrom, inst }], serial := en.serial + 1 }

/-- The post-increment of an M instruction (R168). -/
def Engine.postInc (en : Engine) (s : State) (k r : Nat) (i : BitVec 1) (a : Word) : Engine :=
  if i = 0 then en else en.land s.cycle 1 (.a r true (addrAdd a ((readSt s k en r).signExtend 64)))

/-- The load queue of a slot. -/
def lqOf (sl : Slot) : Nat := if sl = .m1 then 1 else 0

/-- The issuing region holds an immediate operation (R40). -/
def Gang.immediate (g : Gang) (s : State) : Gang := g.modMe s (fun q => { q with immediate := true })

/-- An M-slot meaning of an immediate operation: it marks the region (R40). -/
def mImmediate (s : State) (q n : Nat) (f : Gang → Nat → Engine → Engine) : Out := mSlotThen s q n f (·.immediate s)

/-! ## Loads and stores (R179-R183) -/

/-- The bytes of a size code: block or per lane. -/
def szBytes (z : BitVec 3) : Nat := match z.toNat with
  | 0 => 32 | 1 => 64 | 2 => 128 | 3 => 1 | 4 => 2 | _ => 4
def szBlock (z : BitVec 3) : Bool := z.toNat ≤ 2

/-- The enabled lanes of an engine. -/
def lanesOn (s : State) (k : Nat) (en : Engine) (m : BitVec 3) : List Nat := (below 32).filter (laneOn s k en m)

/-- The pieces of LD and ST (contiguous), LDG and STS (offsets). -/
def ldPieces (s : State) (k : Nat) (en : Engine) (a : Word) (m z : BitVec 3) (off : Option Vec) (data : Vec) : List Piece :=
  let n := szBytes z
  if szBlock z then [{ lane := 0, addr := a, bytes := n, data := data.toNat % 2 ^ (8 * n) }]
  else (lanesOn s k en m).map (fun l =>
    { lane := l, bytes := n, data := elemAt data 32 l % 2 ^ (8 * n),
      addr := match off with
        | none => addrAdd a (BitVec.ofNat 64 (l * n))
        | some v => addrAdd a (BitVec.ofInt 64 (sextN (elemAt v 32 l) 32)) })

/-- An access with the fields its fault record shows. -/
def accessOf (kind : AccKind) (opcode size : Nat) (write : Bool) (block : Bool) (sl : Slot) (ps : List Piece) : Access :=
  { kind, opcode, sizeCode := size, write, scope := 0, block, pieces := ps, data := 0, cmp := 0, lq := lqOf sl }

/-- A load without a transaction is pushed: it takes its path and its banks. -/
def plainLoad (s : State) (g : Gang) (k : Nat) (en : Engine) (q opcode : Nat) (z : BitVec 3) (home : Bool) (ps parts : List Piece) :
    Engine :=
  let core := s.ctx.core
  let x := en.ownPath s.cycle (ownUnits s core g k .all (szBytes z) ps) false (accessReady s core g k .all home false (szBytes z) ps)
  x.2.push s q (accessOf .load opcode z.toNat false (szBlock z) s.ctx.slot parts) x.1

/-- A load is pushed: its transactional parts take their log entries, and the path is that of a home-slice access when there are
any (R301). -/
def pushLoad (s : State) (g : Gang) (k : Nat) (en : Engine) (q opcode : Nat) (z : BitVec 3) (ps : List Piece) : Engine :=
  let x := txLoads en.tx (partsFor en.tx (szBlock z) ps)
  plainLoad s g k { en with tx := x.2 } q opcode z (x.1.any (fun p => p.tx != .plain)) ps x.1

/-- A store is held: its transactional parts go to the log (R302). -/
def holdStore (s : State) (en : Engine) (opcode : Nat) (z : BitVec 3) (ps : List Piece) : Engine :=
  let x := txStores en.tx (partsFor en.tx (szBlock z) ps)
  ({ en with tx := x.2 }).hold s (accessOf .store opcode z.toNat true (szBlock z) s.ctx.slot x.1)

/-- LD. -/
def execLd (r : BitVec 5) (m z : BitVec 3) (q : BitVec 2) (i : BitVec 1) (s : State) : Out :=
  mSlot s q.toNat 1 (fun g k en =>
    let a := readA s k en r.toNat
    (pushLoad s g k en q.toNat 0x01 z (ldPieces s k en a m z none 0)).postInc s k r.toNat i a)

/-- LDG. -/
def execLdg (r : BitVec 5) (v : BitVec 9) (m z : BitVec 3) (q : BitVec 2) (i : BitVec 1) (s : State) : Out :=
  mSlot s q.toNat 1 (fun g k en =>
    let a := readA s k en r.toNat
    (pushLoad s g k en q.toNat 0x02 z (ldPieces s k en a m z (some (readV s k en v.toNat)) 0)).postInc s k r.toNat i a)

/-- ST. -/
def execSt (r : BitVec 5) (v : BitVec 9) (m z : BitVec 3) (i : BitVec 1) (s : State) : Out :=
  mSlot s 2 1 (fun _ k en =>
    let a := readA s k en r.toNat
    (holdStore s en 0x03 z (ldPieces s k en a m z none (readV s k en v.toNat))).postInc s k r.toNat i a)

/-- STS: offsets in V, data in V + 1. -/
def execSts (r : BitVec 5) (v : BitVec 9) (m z : BitVec 3) (i : BitVec 1) (s : State) : Out :=
  mSlot s 2 1 (fun _ k en =>
    let a := readA s k en r.toNat
    (holdStore s en 0x04 z (ldPieces s k en a m z (some (readV s k en v.toNat)) (readV s k en (v.toNat + 1)))).postInc
      s k r.toNat i a)

/-- The pieces of LDL and STL (R55, R180): the tag 0 address of each thread's word; under another tag than 5 a piece keeps the
register's own address, which the fault shows (R193). -/
def lanePieces (s : State) (g : Gang) (k : Nat) (en : Engine) (a : Word) (m : BitVec 3) (data : Vec) : List Piece :=
  let p := a.toNat % 2 ^ 48
  (lanesOn s k en m).map (fun l =>
    { lane := l, bytes := 4, data := elemAt data 32 l,
      addr := if tagOf a = 5 then BitVec.ofNat 64 (g.info.lpBase + p / 4 * 2048 + 4 * (32 * k + l)) else a })

/-- The fault that every lane of an LDL or STL meets before its address is formed (R181, R193). -/
def laneFault (g : Gang) (a : Word) : Option (GFault × Nat) :=
  let p := a.toNat % 2 ^ 48
  if 6 ≤ tagOf a ∨ ((tagOf a = 0 ∨ tagOf a = 5) ∧ (a.extractLsb' 48 12) ≠ 0) then some (.page, 1)
  else if tagOf a = 4 then some (.scratchRange, 0)
  else if tagOf a ≠ 5 then some (.page, 2)
  else if g.info.lpSize ≤ p then some (.scratchRange, 0)
  else if p % 4 ≠ 0 then some (.alignment, 0)
  else none

/-- LDL. -/
def execLdl (r : BitVec 5) (m : BitVec 3) (q : BitVec 2) (i : BitVec 1) (s : State) : Out :=
  mSlot s q.toNat 1 (fun g k en =>
    let a := readA s k en r.toNat
    let ps := lanePieces s g k en a m 0
    let acc := accessOf .load 0x05 5 false false s.ctx.slot ps
    (en.push s q.toNat { acc with pre := laneFault g a }
      (if (laneFault g a).isSome then s.cycle else accessReady s s.ctx.core g k .all false false 4 ps)).postInc
      s k r.toNat i a)

/-- STL. -/
def execStl (r : BitVec 5) (v : BitVec 9) (m : BitVec 3) (i : BitVec 1) (s : State) : Out :=
  mSlot s 2 1 (fun g k en =>
    let a := readA s k en r.toNat
    let acc := accessOf .store 0x06 5 true false s.ctx.slot (lanePieces s g k en a m (readV s k en v.toNat))
    (en.hold s { acc with pre := laneFault g a }).postInc s k r.toNat i a)

/-! ## Atomics (R184-R186) -/

/-- The operations of ATOM and ATOMG: index of the first lane of each operand, and its address. -/
def atomOps (a : Word) (w64 : BitVec 1) (off : Option Vec) : List (Nat × Word) :=
  match off with
  | none => [(0, a)]
  | some v =>
    let step := if w64 = 1 then 2 else 1
    (below (32 / step)).filterMap (fun j =>
      let o := elemAt v 32 (j * step)
      if o = 0x80000000 then none else some (j * step, addrAdd a (BitVec.ofInt 64 (sextN o 32))))

/-- ATOM and ATOMG: one entry, or one place when there is no result. With Q = none, too, it is ordered in the load queue of its M slot,
and later loads of that slot wait for it. (DESIGN CHOICE, log 89) -/
def atomic (opcode : Nat) (r : BitVec 5) (v : BitVec 9) (o : BitVec 4) (w : BitVec 1) (sc q : BitVec 3) (gather : Bool)
    (s : State) : Out :=
  let none := q.toNat = 2
  mImmediate s q.toNat 1 (fun g k en =>
    let a := readA s k en r.toNat
    let n := if w = 1 then 8 else 4
    let d := readV s k en (v.toNat + 1)
    let c := if o.toNat = 9 then readV s k en (v.toNat + 2) else 0
    let ps := (atomOps a w (if gather then some (readV s k en v.toNat) else Option.none)).map (fun x =>
      ({ lane := x.1, addr := x.2, bytes := n, data := 0 } : Piece))
    let acc : Access := { kind := .atom o.toNat (w == 1), opcode, sizeCode := o.toNat, write := true, scope := sc.toNat,
                          block := !gather, pieces := ps, data := d, cmp := c, lq := lqOf s.ctx.slot }
    let x := en.ownPath s.cycle (ownUnits s s.ctx.core g k .all n ps) true (accessReady s s.ctx.core g k .all (2 ≤ sc.toNat) true n ps)
    if none then x.2.place s acc x.1 else x.2.push s q.toNat acc x.1)

/-- ATOM (R185): Performs one atomic operation at the address. -/
def execAtom (r : BitVec 5) (v : BitVec 9) (o : BitVec 4) (w : BitVec 1) (sc q : BitVec 3) (s : State) : Out :=
  atomic 0x07 r v o w sc q false s
/-- ATOMG (R185): Performs an atomic at each lane offset. -/
def execAtomg (r : BitVec 5) (v : BitVec 9) (o : BitVec 4) (w : BitVec 1) (sc q : BitVec 3) (s : State) : Out :=
  atomic 0x08 r v o w sc q true s

/-- aop of R185. -/
def aop (o : Nat) (old d c : Nat) (w : Nat) : Nat :=
  match o with
  | 0 => (old + d) % 2 ^ w
  | 1 => if sextN d w < sextN old w then d else old
  | 2 => if sextN old w < sextN d w then d else old
  | 3 => min old d
  | 4 => max old d
  | 5 => old &&& d
  | 6 => old ||| d
  | 7 => old ^^^ d
  | 8 => d
  | 9 => if old = c then d else old
  | _ => if isnan .fp32 old ∨ isnan .fp32 d then FFmt.dnan .fp32 else faddBits .fp32 old d

/-! ## Ordering, SCOP, LAPADD and prefetch (R169, R187-R191) -/

/-- QSYNC. -/
def execQsync (s : State) : Out := slotGang s (fun g => g.mapAct s.act (fun _ en => en.mark 3 0))
/-- FENCE. -/
def execFence (kd sc : BitVec 3) (s : State) : Out :=
  slotGang s (fun g => g.mapAct s.act (fun _ en => en.mark kd.toNat sc.toNat))

/-- AADD: latency 1. -/
def execAadd (r : BitVec 5) (i : BitVec 21) (s : State) : Out :=
  slotGang s (fun g => g.mapAct s.act (fun k en =>
    en.land s.cycle 1 (.a r.toNat false (addrAdd (readA s k en r.toNat) (i.signExtend 64)))))

/-- The first cycle from t on in which a tick of a core begins (R189). -/
def nextTick (core t : Nat) : Nat := t + (2 * core + 144 - t % 144) % 144

/-- The cycles that the lookup of a global address adds (R362): none for an address that faults before it. -/
def lookupCost (s : State) (core asid : Nat) (a : Word) : Nat :=
  if tagOf a = 0 ∧ a.extractLsb' 48 12 = 0 then s.missCost core asid (a.toNat % 2 ^ 48) else 0

/-- SCOP: held until a tick of the issuing core that begins 120 cycles on or later, and after a lookup that misses. -/
def scop (kind : Nat) (r : BitVec 5) (v : Nat) (q : Nat) (i : BitVec 1) (s : State) : Out :=
  mImmediate s q 1 (fun g k en =>
    let a := readA s k en r.toNat
    let d := if kind = 0 then 0 else readV s k en v
    let acc : Access := { kind := .scop kind, opcode := 0x0D, sizeCode := 0, write := kind != 0, scope := 3, block := true,
                          pieces := [{ lane := 0, addr := a, bytes := 8, data := 0 }], data := d, cmp := 0
                          lq := lqOf s.ctx.slot }
    let ready := nextTick s.ctx.core (s.cycle + 120 + lookupCost s s.ctx.core g.info.asid a)
    (if q = 2 then en.place s acc ready else en.push s q acc ready).postInc s k r.toNat i a)

/-- SCOP_LD (R189): Sequentially consistent load of 8 B. -/
def execScopLd (r : BitVec 5) (q : BitVec 2) (i : BitVec 1) (s : State) : Out := scop 0 r 0 q.toNat i s
/-- SCOP_ST (R189): Sequentially consistent store of 8 B. -/
def execScopSt (r : BitVec 5) (v : BitVec 9) (i : BitVec 1) (s : State) : Out := scop 1 r v.toNat 2 i s
/-- SCOP_EXCH (R189): Sequentially consistent exchange. -/
def execScopExch (r : BitVec 5) (v : BitVec 9) (q : BitVec 2) (i : BitVec 1) (s : State) : Out := scop 2 r v.toNat q.toNat i s
/-- SCOP_CAS (R189): Sequentially consistent compare-and-swap. -/
def execScopCas (r : BitVec 5) (v : BitVec 9) (q : BitVec 2) (i : BitVec 1) (s : State) : Out := scop 3 r v.toNat q.toNat i s

/-- LAPADD: one counting update in each active engine, in a place of the store queue. -/
def execLapadd (r : BitVec 5) (n : BitVec 21) (s : State) : Out :=
  mImmediate s 2 1 (fun g k en =>
    let ps := [{ lane := 0, addr := readA s k en r.toNat, bytes := 16, data := 0 }]
    let acc : Access := { kind := .lapadd n.toNat, opcode := 0x0E, sizeCode := 0, write := true, scope := 0, block := true,
                          pieces := ps, data := 0, cmp := 0, lq := lqOf s.ctx.slot }
    en.place s acc (accessReady s s.ctx.core g k .scratchOnly false false 16 ps))

/-- PREF.dcx's mark on a line of a die cache: the first to be evicted (R190). -/
def State.markFirst (s : State) (die l : Nat) : State := s.setLine die l { s.line die l with first := true }

/-- PREF: the lines of the block are brought into the die cache or their home slice; an address that would fault does nothing, nor
does one whose page is being released, since PREF may be dropped (R190, R361). -/
def prefLines (s : State) (core asid : Nat) (a : Word) (n hint : Nat) : State :=
  if tagOf a ≠ 0 ∨ a.extractLsb' 48 12 ≠ 0 ∨ a.toNat % n ≠ 0 ∨ s.releasing asid a.toNat then s
  else match s.translate core asid a.toNat true false with
    | (s, .error _) => s
    | (s, .ok pa) =>
      if s.poisoned pa n || s.deadDie (dieOf core) then s
      else if hint = 1 then s.homeTouch (pa / 128)
      else
        let s := s.fill (dieOf core) (pa / 128)
        if hint = 2 then s.markFirst (dieOf core) (pa / 128) else s

/-- PREF in every active engine. -/
def execPref (r : BitVec 5) (z h : BitVec 3) (i : BitVec 1) (s : State) : Out :=
  slotState s (fun g =>
    let s' := (maskList s.act).foldl (fun t k =>
      prefLines t s.ctx.core g.info.asid (readA s k (g.eng k) r.toNat) (szBytes z) h.toNat) s
    s'.modGang s.ctx.core (fun g => g.mapAct s.act (fun k en => en.postInc s k r.toNat i (readA s k en r.toNat))))

/-! ## Resume (R45) -/

/-- The cycle from which an entry's data can be there when its gang resumes: a faulting load or atomic takes its path again. -/
def replayAt (s : State) (core : Nat) (g : Gang) (k : Nat) (e : QEntry) : QEntry :=
  match e.result, e.acc.pre, e.acc.kind with
  | some (.fault _), none, .load =>
    { e with readyAt := accessReady s core g k .all (e.acc.pieces.any (fun p => p.tx != .plain)) false 1 e.acc.pieces }
  | some (.fault _), none, .atom _ _ => { e with readyAt := accessReady s core g k .all (decide (2 ≤ e.acc.scope)) true 1 e.acc.pieces }
  | some (.fault _), none, .scop _ =>
    { e with readyAt := s.cycle + lookupCost s core g.info.asid (e.acc.pieces.headD { lane := 0, addr := 0, bytes := 0, data := 0 }).addr }
  | _, _, _ => e

/-- The gang of a core resumes. -/
def State.resume (s : State) (core : Nat) : State :=
  s.modGang core (fun g =>
    resumeGang (g.mapAct 0xFFFF (fun k en => { en with q0 := en.q0.map (replayAt s core g k), q1 := en.q1.map (replayAt s core g k) })) s.cycle)

end Sys2Proof.Machine
end

