-- ==== Sys2Proof/Machine/Order.lean ====
section
/-! DEFINITION. The order in which an engine's accesses are performed: queue order (R63), QSYNC, fences (R65), TXBEGIN (R299,
R309) and SCOP (R67), as conditions on when a queue entry, an immediate operation or a batch may be performed. -/
namespace Sys2Proof.Machine

/-- An operation of an engine that has not been performed: its place in program order, load queue and kind. -/
structure Pending where
  serial : Nat
  lq : Nat
  kind : AccKind
  deriving DecidableEq, Repr

/-- A queue entry has been performed: its data or fault is known, or its data are on their way. -/
def QEntry.performed (e : QEntry) : Bool := e.result.isSome || e.held.isSome

/-- A queue entry is resolved for a pop (R173). -/
def QEntry.resolved (e : QEntry) (now : Nat) : Bool := e.result.isSome && decide (e.readyAt ≤ now)

/-- An immediate operation's place that is still to be performed. -/
def SQEntry.open_ (e : SQEntry) : Bool := !e.finished && e.marker == some none

/-- The entries of an engine in the sealed batch of a sequencer. -/
def Seq.batchOf (q : Seq) (k : Nat) : List SQEntry :=
  match q.batch with
  | some b => (b.entries.filter (fun e => e.1 == k)).flatMap (·.2)
  | none => []

/-- The places of immediate operations of an engine, sealed or not. -/
def placesOf (g : Gang) (k : Nat) : List SQEntry := g.prim.batchOf k ++ g.spare.batchOf k ++ (g.eng k).sq

/-- The operations of engine k not yet performed, held stores apart. -/
def pendingOf (g : Gang) (k : Nat) : List Pending :=
  let en := g.eng k
  let qs (l : List QEntry) := (l.filter (fun e => !e.performed)).map (fun e => Pending.mk e.serial e.acc.lq e.acc.kind)
  qs en.q0 ++ qs en.q1 ++ ((placesOf g k).filter (·.open_)).map (fun e => Pending.mk e.serial e.acc.lq e.acc.kind) ++
    (en.xops.filter (fun x => x.load.isSome)).map (fun x => Pending.mk x.serial 7 .load)

/-- Stores of engine k with a place in [lo, hi) that have been sealed and not yet performed: in a batch, or on their way. -/
def storesOut (s : State) (core : Nat) (g : Gang) (k lo hi : Nat) : Bool :=
  (g.prim.batchOf k ++ g.spare.batchOf k).any (fun e => e.marker.isNone && decide (lo ≤ e.serial) && decide (e.serial < hi)) ||
  s.transit.any (fun t => t.core == core && t.engine == k && decide (lo ≤ t.serial) && decide (t.serial < hi))

/-- A mark's earlier loads, atomics and immediate operations have been performed. -/
def FenceMark.quiet (f : FenceMark) (ps : List Pending) : Bool := ps.all (fun p => !decide (p.serial < f.serial))

/-- Whether a release's stores of earlier regions are performed at its scope by now. -/
def FenceMark.released (f : FenceMark) (s : State) : Bool := f.wbDone.any s.writtenBack

/-- Whether the stores of the release's own region are performed at its scope by now. -/
def FenceMark.ownReleased (f : FenceMark) (s : State) : Bool := f.ownDone.any s.writtenBack

/-- A mark is a release. -/
def FenceMark.isRel (f : FenceMark) : Bool := f.kind == 1 || f.kind == 2

/-- The gang of a core holds the serial lock and its accesses may begin (R309). -/
def lockHeld (s : State) (core : Nat) : Bool := s.lock.holder == some core && decide (s.lock.granted + 40 ≤ s.cycle)

/-- Every party of the barrier that mark f belongs to has performed its earlier accesses, its stores at the barrier's level (R65, R73). -/
def FenceMark.partiesReleased (f : FenceMark) (s : State) (core : Nat) (g : Gang) : Bool :=
  f.inst == 0 || (below 72).all (fun c =>
    match s.gang c with
    | none => true
    | some h =>
      h.info.handle != g.info.handle || h.info.squad != g.info.squad || (f.scope == 0 && c != core) ||
      (f.scope == 1 && !g.info.sameDie.getLsbD h.info.pos) ||
      (below h.engines.length).all (fun k => (h.eng k).fences.all (fun e =>
        e.inst != f.inst || e.scope != f.scope || (e.quiet (pendingOf h k) && e.released s))))

/-- An acquire also waits for the engine's own released stores, so that a load after it reads them (R64). Mark f lets an operation after it be performed; imm: the operation is an immediate one or a store. -/
def FenceMark.lets (f : FenceMark) (s : State) (core : Nat) (g : Gang) (k : Nat) (ps : List Pending) (imm : Bool) : Bool :=
  match f.kind with
  | 0 => f.quiet ps && !storesOut s core g k 0 f.from_
  | 1 => !imm || (f.quiet ps && f.released s)
  | 2 => f.quiet ps && !storesOut s core g k 0 f.from_ && (!imm || f.released s) && f.partiesReleased s core g
  | 3 => f.quiet ps && !storesOut s core g k 0 f.from_
  | 4 => ps.all (fun p => !(decide (p.serial < f.serial) && p.kind == .txend))
  | _ => ps.all (fun p => !(decide (p.serial < f.serial) && p.kind == .txend)) && lockHeld s core

/-- A SCOP. -/
def AccKind.isScop : AccKind → Bool
  | .scop _ => true
  | _ => false

/-- An immediate operation (R40). -/
def AccKind.isImmediate : AccKind → Bool
  | .load => false
  | .store => false
  | .long => false
  | _ => true

/-- The operation of engine k at a place may be performed now: the operations ahead of it in its load queue have been, every
mark before it lets it, and no SCOP before it is outstanding. -/
def mayPerform (s : State) (core : Nat) (g : Gang) (k : Nat) (serial lq : Nat) (kind : AccKind) : Bool :=
  let ps := pendingOf g k
  ps.all (fun p => !(decide (p.serial < serial) && (p.lq == lq || p.kind.isScop))) &&
  (g.eng k).fences.all (fun f => !decide (f.serial < serial) || f.lets s core g k ps kind.isImmediate)

/-- A SCOP may be performed: everything before it is performed at package scope, the stores of its own region apart, which begins at
place from_ (R67). -/
def mayScop (s : State) (core : Nat) (g : Gang) (k serial from_ : Nat) : Bool :=
  let en := g.eng k
  mayPerform s core g k serial 2 (.scop 0) && (pendingOf g k).all (fun p => !decide (p.serial < serial)) &&
  !storesOut s core g k 0 from_ && en.wrote.all (fun l => (s.line (dieOf core) l).dirty == 0) &&
  en.scopTurn != some (s.cycle / 144)

/-- Mark f lets the stores of a batch of its engine go whose first place is first: a release once the accesses before it, its own
region's stores apart, are performed at its scope (those of its own region too where the batch is a later one); an acquire once
the loads and atomics before it are; a QSYNC once every access before it is but the stores of its own region; a TXBEGIN as for any
access (R63, R65, R73, R309). (DEDUCED, log 23) -/
def FenceMark.letsBatch (f : FenceMark) (s : State) (core : Nat) (g : Gang) (k : Nat) (ps : List Pending) (first : Nat) : Bool :=
  let rel := f.released s && (decide (first ≤ f.serial) || f.ownReleased s)
  match f.kind with
  | 0 => f.quiet ps
  | 1 => f.quiet ps && rel
  | 2 => f.quiet ps && rel && !storesOut s core g k 0 f.from_ && f.partiesReleased s core g
  | 3 => f.quiet ps && !storesOut s core g k 0 f.from_
  | _ => f.lets s core g k ps true

/-- The stores of a batch of engine k may leave: every mark before its last store lets them. -/
def batchLets (s : State) (core : Nat) (g : Gang) (k : Nat) (es : List SQEntry) : Bool :=
  let ps := pendingOf g k
  match (es.filter (fun e => e.marker.isNone)).map (·.serial) with
  | [] => true
  | first :: rest =>
    let last := rest.foldl max first
    (g.eng k).fences.all (fun f => !decide (f.serial < last) || f.letsBatch s core g k ps first)

/-! ## Write-backs that releases start (R61, R65) -/

/-- The dirty lines of its die cache that a release by engine k of a gang orders: those its stores and atomics have reached, those its
loads and atomics have read dirty, and those its gang's copies have written (R65, R322). (DEDUCED, log 27) -/
def orderedLines (s : State) (core k : Nat) (g : Gang) : List Nat :=
  ascending (((g.eng k).wrote ++ (g.eng k).seen ++ g.copied).filter (fun l => (s.line (dieOf core) l).dirty != 0))

/-- Stores of engine k with a place in [lo, hi) that have not been performed: held, sealed or on their way. (DEDUCED, log 27) -/
def storesDue (s : State) (core : Nat) (g : Gang) (k lo hi : Nat) : Bool :=
  storesOut s core g k lo hi || (g.eng k).sq.any (fun e => e.marker.isNone && decide (lo ≤ e.serial) && decide (e.serial < hi))

/-- A release's part begins: at package or system scope the write-back of lines, at a smaller scope nothing. -/
def FenceMark.begin (f : FenceMark) (s : State) (core : Nat) (lines : List Nat) : State × Option Nat :=
  let x := s.startWriteBack (if f.scope < 2 then [] else [(dieOf core, lines)])
  (x.1, some x.2)

/-- The marks of the gang's engines that one barrier has made, with their engines. -/
def Gang.sisters (g : Gang) (f : FenceMark) : List (Nat × FenceMark) :=
  (below g.engines.length).flatMap (fun k => ((g.eng k).fences.filter (fun e => e.inst == f.inst && e.scope == f.scope)).map (fun e => (k, e)))

/-- The release of a barrier is one event of its gang (R61, R73): it begins when every engine's earlier accesses have been performed and
its stores have reached the place where they are performed, and it writes back the lines of all. (DEDUCED, log 27) -/
def startBarrier (s : State) (core : Nat) (g : Gang) (f : FenceMark) : State × FenceMark :=
  if f.wbDone.isSome then (s, f)
  else
    let all := g.sisters f
    match all.findSome? (fun x => x.2.wbDone) with
    | some n => (s, { f with wbDone := some n, ownDone := some n })
    | none =>
      if all.all (fun x => x.2.quiet (pendingOf g x.1) && !storesDue s core g x.1 0 x.2.serial) then
        let x := f.begin s core (ascending (all.flatMap (fun x => orderedLines s core x.1 g)))
        (x.1, { f with wbDone := x.2, ownDone := x.2 })
      else (s, f)

/-- A release whose earlier loads, atomics and immediate operations have been performed, and whose ordered stores have all reached the
place where they are performed, starts the write-back of their lines when its scope is package or system. -/
def startFence (s : State) (core k : Nat) (g : Gang) (f : FenceMark) : State × FenceMark :=
  if !f.isRel then (s, f)
  else if f.inst ≠ 0 then startBarrier s core g f
  else
    let go (s : State) (lo hi : Nat) (d : Option Nat) : State × Option Nat :=
      if d.isSome || !f.quiet (pendingOf g k) || storesDue s core g k lo hi then (s, d) else f.begin s core (orderedLines s core k g)
    let a := go s 0 f.from_ f.wbDone
    let b := go a.1 f.from_ f.serial f.ownDone
    (b.1, { f with wbDone := a.2, ownDone := b.2 })

/-- The marks of an engine, each tried once. -/
def startFences (s : State) (core k : Nat) (g : Gang) : List FenceMark → State × List FenceMark
  | [] => (s, [])
  | f :: t =>
    let x := startFence s core k g f
    let y := startFences x.1 core k g t
    (y.1, x.2 :: y.2)

/-- A mark that orders nothing any more is forgotten. -/
def FenceMark.spent (f : FenceMark) (s : State) (core : Nat) (g : Gang) (k : Nat) : Bool :=
  f.lets s core g k (pendingOf g k) true && (!f.isRel || f.ownReleased s)

/-- Lines of a die cache that have been written back are forgotten. -/
def State.pruneLines (s : State) (core : Nat) : State :=
  let keep (l : List Nat) : List Nat := l.filter (fun x => (s.line (dieOf core) x).dirty != 0)
  s.modGang core (fun g => { g with copied := keep g.copied
                                    engines := g.engines.map (fun en => { en with wrote := keep en.wrote, seen := keep en.seen }) })

/-- The marks of the engines of a gang, tried and pruned once a cycle. -/
def State.tickFences (s : State) (core : Nat) : State :=
  match s.gang core with
  | none => s
  | some g =>
    ((below g.engines.length).foldl (fun s k =>
      match s.gang core with
      | none => s
      | some g =>
        let fs := (g.eng k).fences
        if fs = [] then s
        else
          let x := startFences s core k g fs
          x.1.modGang core (fun g => g.modEng k (fun en =>
            { en with fences := x.2.filter (fun f => !f.spent x.1 core g k) }))) s).pruneLines core

end Sys2Proof.Machine
end

