-- ==== Sys2Proof/Machine/Transaction.lean ====
section
/-! DEFINITION. The transaction unit (R297-R314): TXBEGIN, TXEND and TXABORT at issue, the commit at the home slices, and the
package's serial lock. The parts of loads and stores are in Access.lean. -/
namespace Sys2Proof.Machine

/-- The lanes of an engine that a mask field enables, as a set. -/
def laneSet (s : State) (k : Nat) (en : Engine) (m : BitVec 3) : BitVec 32 :=
  (lanesOn s k en m).foldl (fun b l => b ||| (1#32 <<< l)) 0

/-- Every member lane of a set that is not doomed becomes doomed with a cause. -/
def TxState.doomSet (t : TxState) (m : BitVec 32) (cause : Nat) : TxState :=
  (below 32).foldl (fun t l => if m.getLsbD l then t.doom t.cur.id l cause 0 0 else t) t

/-- A transaction opens, or a nested TXBEGIN dooms the members (R299). -/
def Engine.txOpen (en : Engine) (serial : Bool) (members : BitVec 32) : Engine :=
  if en.tx.opened then { en with tx := en.tx.doomSet (BitVec.allOnes 32) 5 }
  else
    ({ en with tx := { en.tx with opened := true, cur := { id := en.tx.nextId, serial, members }, fcode := 0, flane := 0, fva := 0,
                                  nextId := en.tx.nextId + 1 } }).mark (if serial then 5 else 4) 0

/-- TXBEGIN: an optimistic transaction over the enabled lanes. -/
def execTxbegin (m : BitVec 3) (s : State) : Out :=
  slotGang s (fun g => g.mapAct s.act (fun k en => en.txOpen false (laneSet s k en m)))

/-- The member of a TXBEGIN.serial: the lowest enabled lane of the lowest engine that has one (R309). -/
def serialMember (s : State) (g : Gang) (m : BitVec 3) : Option (Nat × Nat) :=
  (maskList s.act).findSome? (fun k => ((lanesOn s k (g.eng k) m).head?).map (fun l => (k, l)))

/-- TXBEGIN.serial: at most one member, and a request for the lock unless the gang holds or awaits it. -/
def execTxbeginSerial (m : BitVec 3) (s : State) : Out :=
  slotState s (fun g =>
    let w := serialMember s g m
    let opens := (maskList s.act).any (fun k => !(g.eng k).tx.opened)
    let s' := s.modGang s.ctx.core (fun g => { g.mapAct s.act (fun k en => en.txOpen true (match w with
      | some (e, l) => if e = k then 1#32 <<< l else 0
      | none => 0)) with lockKept := false })
    if opens && s.lock.holder != some s.ctx.core && !s.lock.requests.contains s.ctx.core then
      { s' with lock := { s'.lock with requests := s'.lock.requests ++ [s.ctx.core] } }
    else s')

/-- TXEND closes the transaction and pushes its entry (R305). -/
def execTxend (q : BitVec 2) (s : State) : Out :=
  mImmediate s q.toNat 1 (fun _ _ en =>
    let id := if en.tx.opened then en.tx.cur.id else 0
    let acc : Access := { kind := .txend, opcode := 0x12, sizeCode := 0, write := false, scope := 2, block := true, pieces := [],
                          data := 0, cmp := 0, txid := id, lq := lqOf s.ctx.slot }
    let tx := if en.tx.opened then
        { en.tx with opened := false, closing := en.tx.closing ++ [en.tx.cur]
                     cur := { en.tx.cur with reads := [], writes := [] } }
      else en.tx
    ({ en with tx }).push s q.toNat acc s.cycle)

/-- TXABORT: the enabled members of an open optimistic transaction are doomed with cause 4 (R304). -/
def execTxabort (m : BitVec 3) (s : State) : Out :=
  slotGang s (fun g => (g.mapAct s.act (fun k en =>
    if en.tx.opened && !en.tx.cur.serial then { en with tx := en.tx.doomSet (laneSet s k en m) 4 } else en)).immediate s)

/-! ## Commit (R305-R308) -/

/-- The write entries of a log translated (RD and WR): a fault dooms its lane (R302, R303); the address that CR_TXFAULT shows is that of
the first part merged into the entry (R298). -/
def txTranslate (s : State) (core asid : Nat) (t : TxLog) : List TxWrite → State × TxLog × List (TxWrite × Nat) × List (Nat × Nat × Nat)
  | [] => (s, t, [], [])
  | w :: r =>
    if t.doomed.getLsbD w.lane then txTranslate s core asid t r
    else
      let x := s.translate core asid w.va true true
      match x.2 with
      | .ok pa =>
        let y := txTranslate x.1 core asid t r
        (y.1, y.2.1, (w, pa) :: y.2.2.1, y.2.2.2)
      | .error f =>
        let y := txTranslate x.1 core asid (t.doom w.lane 3) r
        (y.1, y.2.1, y.2.2.1, (w.lane, f.code.code, w.part) :: y.2.2.2)

/-- The cause of lane l at validation, and the home slices after its writes (R306). -/
def commitLane (s : State) (t : TxLog) (ws : List (TxWrite × Nat)) (l : Nat) : Nat × State :=
  let mine := ws.filter (fun w => w.1.lane == l)
  let reads := t.reads.filter (fun r => r.lane == l)
  let secs := reads.filterMap (·.pa) ++ mine.map (·.2)
  if !t.members.getLsbD l then (7, s)
  else if t.doomed.getLsbD l then ((kfind t.causes l).getD 3, s)
  else if reads.any (fun r => match r.pa, r.value with
      | some pa, some v => v != BitVec.ofNat 256 (s.homeBytes pa 32)
      | _, _ => false) then (1, s)
  else if secs.any (fun pa => s.poisoned pa 32) then (3, s)
  else (0, mine.foldl (fun s w => s.homeStores w.2 ((below 32).map (fun o =>
      if w.1.mask.getLsbD o then some (w.1.data.extractLsb' (8 * o) 8 : Byte) else none))) s)

/-- Causes by lane, as an entry holds them. -/
def causeLanes (l : List Nat) : Vec := packElems 32 ((below l.length).zip l)

/-- A TXEND entry is performed: its causes, and the cycle in which it resolves. -/
def Engine.txPerformed (en : Engine) (q serial : Nat) (causes : List Nat) (at_ : Nat) : Engine :=
  en.modQueue q (fun l => l.map (fun e =>
    if e.serial = serial then { e with held := some (causeLanes causes), readyAt := at_ } else e))

/-- A log of a lane that may still commit. -/
def TxLog.live (t : TxLog) (l : Nat) : Bool := t.members.getLsbD l && !t.doomed.getLsbD l

/-- What the TXEND of a log would commit now: the state with its write entries translated, the log, its write entries with their sectors,
the faults found, and the sectors of G in ascending order (R306). -/
structure CommitPlan where
  s : State
  log : TxLog
  writes : List (TxWrite × Nat)
  faults : List (Nat × Nat × Nat)
  sectors : List Nat
  deriving DecidableEq, Repr
def commitPlan (s : State) (core asid : Nat) (t : TxLog) : CommitPlan :=
  let x := txTranslate s core asid t t.writes
  let t' := x.2.1
  let ws := x.2.2.1.filter (fun w => t'.live w.1.lane)
  { s := x.1, log := t', writes := ws, faults := x.2.2.2,
    sectors := ascending ((t'.reads.filter (fun r => t'.live r.lane)).filterMap (·.pa) ++ ws.map (·.2)) }

/-- The TXEND of engine k at a place meets the conditions of R305: its own order, every transactional load part of the engine performed, and
every write entry translated, none of them waiting for a release. With no transaction open it is performed at once.
(DEDUCED, log 22) -/
def txReady (s : State) (core : Nat) (g : Gang) (k : Nat) (e : QEntry) : Bool :=
  let en := g.eng k
  let txLoad (x : QEntry) : Bool := decide (x.serial < e.serial) && !x.performed && x.acc.pieces.any (fun p => match p.tx with
    | .logged _ _ => true
    | .serial => true
    | _ => false)
  let writes := (en.tx.closing.filter (fun t => t.id == e.acc.txid)).flatMap (fun t => t.writes.filter (fun w => t.live w.lane))
  e.acc.txid == 0 ||
  (mayPerform s core g k e.serial e.acc.lq .txend && !(en.q0 ++ en.q1).any txLoad &&
   writes.all (fun w => !s.releasing g.info.asid w.va && decide (e.issued + s.missCost core g.info.asid w.va ≤ s.cycle)))

/-- The TXEND closes an optimistic transaction. -/
def Engine.optimistic (en : Engine) (e : QEntry) : Option TxLog := en.tx.closing.find? (fun t => t.id == e.acc.txid && !t.serial)

/-- A commit is that of an entry. -/
def Commit.isOf (c : Commit) (core k serial : Nat) : Bool := c.core == core && c.engine == k && c.serial == serial

/-- The commit of the TXEND of engine k at a place may begin: an optimistic one waits for the serial lock, 40 cycles longer if it has waited,
and for the lock of the first sector of G (R306, R308, R309). (DEDUCED, log 22) -/
def mayCommit (s : State) (core : Nat) (g : Gang) (k : Nat) (e : QEntry) : Bool :=
  !s.commits.any (·.isOf core k e.serial) && txReady s core g k e && (match (g.eng k).optimistic e with
    | none => true
    | some t =>
      s.lock.holder.isNone && (!e.begun || (match s.lock.released with
        | some r => decide (r + 40 ≤ s.cycle)
        | none => true)) &&
      !((commitPlan s core g.info.asid t).sectors.take 1).any (fun pa => s.locked pa 32))

/-- The sectors that a commit can lock next, one after the other in ascending order (R306, R308). -/
def State.lockable (s : State) (c : Commit) : List Nat := (c.sectors.drop c.taken).takeWhile (fun pa => !s.locked pa 32)

/-- A commit that stands in the list locks what it can. With its last lock its TXEND counts as performed, and it holds the locks for 240
cycles and 4 a sector, longer where a line comes from LPDDR 5X (R305-R307). (DEDUCED, log 22) -/
def State.takeLocks (s : State) (c : Commit) : State :=
  let c' := { c with taken := c.taken + (s.lockable c).length }
  let put (s : State) (c' : Commit) : State := { s with commits := s.commits.map (fun d => if d = c then c' else d) }
  if c'.taken < c.sectors.length then put s c'
  else
    let far := c.sectors.any (fun pa => sget 0 s.homeLines (pa / 128) != 1)
    let ends := s.cycle + 240 + 4 * c.sectors.length + if far then 280 else 0
    (c.sectors.foldl (fun s pa => s.homeTouch (pa / 128)) (put s { c' with ends })).modGang c.core (fun g =>
      g.modEng c.engine (fun en => en.txPerformed c.q c.serial [] ends))

/-- The commit of the TXEND at a place of engine k begins: without a transaction or for a serial one the causes are known; an optimistic one
begins to take its locks (R305-R309). (DEDUCED, log 22) -/
def State.txCommit (s : State) (core k q : Nat) (e : QEntry) : State :=
  match s.gang core with
  | none => s
  | some g =>
    let modE (s : State) (f : Engine → Engine) : State := s.modGang core (fun g => g.modEng k f)
    let close (en : Engine) (faults : List (Nat × Nat × Nat)) : Engine :=
      let tx := faults.foldl (fun x f => x.doom e.acc.txid f.1 3 f.2.1 f.2.2) en.tx
      { en with tx := { tx with closing := tx.closing.filter (fun c => c.id != e.acc.txid) } }
    match (g.eng k).tx.closing.find? (fun t => t.id == e.acc.txid) with
    | none => modE s (fun en => en.txPerformed q e.serial (List.replicate 32 7) (s.cycle + 14))
    | some t =>
      if t.serial then
        modE s (fun en => (close en []).txPerformed q e.serial ((below 32).map (fun l => if t.members.getLsbD l then 0 else 7)) (s.cycle + 14))
      else
        let p := commitPlan s core g.info.asid t
        let c : Commit := { core, engine := k, q, serial := e.serial, log := p.log, sectors := p.sectors, writes := p.writes }
        (modE { p.s with commits := p.s.commits ++ [c] } (fun en => close en p.faults)).takeLocks c

/-- A commit holds every lock that it needs. -/
def Commit.full (c : Commit) : Bool := c.taken == c.sectors.length

/-- A commit that holds its locks in a cycle: lane l is validated, and its writes are applied, 32 - l cycles before the end; at the end the sectors are unlocked
and the entry has its causes. (DEDUCED, log 22) -/
def State.tickCommit (s : State) (c : Commit) : State :=
  let l := c.causes.length
  if !c.full then s
  else if c.ends ≤ s.cycle then
    ({ s with commits := s.commits.filter (fun d => !decide (d = c)) }).modGang c.core (fun g => g.modEng c.engine (fun en =>
      en.txPerformed c.q c.serial c.causes c.ends))
  else if l < 32 ∧ c.ends ≤ s.cycle + 32 - l then
    let x := commitLane s c.log c.writes l
    { x.2 with commits := x.2.commits.map (fun d => if d = c then { c with causes := c.causes ++ [x.1] } else d) }
  else s

/-- The commits in turn: those that hold their locks go on, and then those that wait for one go on locking, oldest first (R308).
(DEDUCED, log 22) -/
def State.tickCommits (s : State) : State :=
  let s := s.commits.foldl State.tickCommit s
  (s.commits.filter (fun c => !c.full)).foldl State.takeLocks s

/-- TXENDs that wait for the serial lock are known to have waited (R309). -/
def State.tickTx (s : State) (core : Nat) : State :=
  match s.gang core with
  | none => s
  | some g =>
    if s.lock.holder.isNone then s
    else s.modGang core (fun h => h.mapAct 0xFFFF (fun k en =>
      let note (e : QEntry) : QEntry :=
        if e.acc.kind = .txend ∧ !e.performed ∧ (en.optimistic e).isSome ∧ txReady s core g k e then { e with begun := true } else e
      { en with q0 := en.q0.map note, q1 := en.q1.map note }))

/-- TX_COMMIT: the TXEND that the step's subject names is performed once it may be. -/
def execTxCommit (s : State) : Out :=
  match s.gang s.ctx.core with
  | none => .next s
  | some g =>
    match ((g.eng s.ctx.engine).queue s.ctx.unit).find? (fun e => e.serial == s.ctx.id && e.acc.kind == .txend && !e.performed) with
    | none => .next s
    | some e =>
      if mayCommit s s.ctx.core g s.ctx.engine e then .next (s.txCommit s.ctx.core s.ctx.engine s.ctx.unit e) else .next s

/-- COUNT after an entry with these causes (R307): unchanged when no transaction was open. -/
def retryCount (count : Nat) (v : Vec) (had : Bool) : Nat :=
  if !had then count
  else if (below 32).all (fun l => elemAt v 32 l == 0 || elemAt v 32 l == 7) then 0 else min (count + 1) 65535

/-- TX_ENTRY_RESOLVE: the entry gives each lane its cause and COUNT follows (R307). -/
def execTxEntryResolve (s : State) : Out :=
  slotGang s (fun g => g.modEng s.ctx.engine (fun en =>
    match (en.queue s.ctx.unit).find? (fun e => e.serial == s.ctx.id && e.acc.kind == .txend) with
    | some { held := some v, readyAt, acc, .. } =>
      if readyAt ≤ s.cycle then
        ({ en with tx := { en.tx with count := retryCount en.tx.count v (acc.txid != 0) } }).modQueue s.ctx.unit (fun l => l.map (fun (e : QEntry) =>
          if e.serial = s.ctx.id then { e with held := none, result := some (.data v) } else e))
      else en
    | _ => en))

/-! ## The serial lock (R309, R310) -/

/-- SERIAL_LOCK_GRANT: the next request in order of arrival, while no commit holds a lock. -/
def execSerialLockGrant (s : State) : Out :=
  match s.lock.holder, s.lock.requests with
  | none, c :: t =>
    if s.commits = [] then .next { s with lock := { s.lock with holder := some c, requests := t, granted := s.cycle } } else .next s
  | _, _ => .next s

/-- A held or sealed store of a serial member. -/
def SQEntry.serialStore (e : SQEntry) : Bool := e.marker.isNone && e.acc.pieces.any (fun p => p.tx == .serial)

/-- The lock may be released (R310): the gang is gone, or no serial transaction is open, every TXEND.serial performed, and every
store of a serial member performed at package scope; nor is a TXBEGIN.serial that a restart discarded still to be replayed. -/
def mayUnlock (s : State) (c : Nat) : Bool :=
  match s.gang c with
  | none => true
  | some g =>
    !g.lockKept && (below g.engines.length).all (fun k =>
      let en := g.eng k
      !(en.tx.opened && en.tx.cur.serial) && !en.tx.closing.any (·.serial) &&
      !(en.sq ++ g.prim.batchOf k ++ g.spare.batchOf k).any (·.serialStore)) &&
    !s.transit.any (fun t => t.core == c && t.target == .home)

/-- SERIAL_LOCK_RELEASE. -/
def execSerialLockRelease (s : State) : Out :=
  match s.lock.holder with
  | some c =>
    if mayUnlock s c then .next { s with lock := { s.lock with holder := none, released := some s.cycle } } else .next s
  | none => .next s

end Sys2Proof.Machine
end

