-- ==== Sys2Proof/Machine/CopyOp.lean ====
section
/-! DEFINITION. An operation of a copy engine: its fields (R316), its chunks and their source lines (R318, R320), and the time to a source
line's data. -/
namespace Sys2Proof.Machine

/-! ## Fields of shadow registers -/

/-- A field of a 64-bit register: len bits from bit lo. -/
def bitsOf (w : Word) (lo len : Nat) : Nat := w.toNat / 2 ^ lo % 2 ^ len

/-- The element type of a three-bit code in a shadow register. -/
def typeOf (n : Nat) : EType := etype (BitVec.ofNat 3 n)
/-- Bytes of an element of a type code. -/
def typeBytes (n : Nat) : Nat := tBits n / 8

/-! ## The operation's fields (R316) -/

/-- Register d of an operation's shadow set. -/
def UnitOp.reg (o : UnitOp) (d : Nat) : Word := sget 0 o.regs d
def UnitOp.n0 (o : UnitOp) : Nat := bitsOf (o.reg 2) 0 16
def UnitOp.n1 (o : UnitOp) : Nat := bitsOf (o.reg 2) 16 16
def UnitOp.n2 (o : UnitOp) : Nat := bitsOf (o.reg 2) 32 16
def UnitOp.sType (o : UnitOp) : Nat := bitsOf (o.reg 5) 0 3
def UnitOp.dType (o : UnitOp) : Nat := bitsOf (o.reg 5) 3 3
def UnitOp.lapEn (o : UnitOp) : Bool := (o.reg 5).getLsbD 10
def UnitOp.bmask (o : UnitOp) : Mask := (o.reg 5).extractLsb' 16 16
/-- The row and the element of the next chunk. -/
def UnitOp.row (o : UnitOp) : Nat := o.chunk / 65536
def UnitOp.elem (o : UnitOp) : Nat := o.chunk % 65536
/-- Every chunk has landed. -/
def UnitOp.allLanded (o : UnitOp) : Bool := decide (o.n1 * o.n2 ≤ o.row)

/-- The address of element i0 of a row under strides st (dimension 2 high, dimension 1 low) and element size (R318). -/
def UnitOp.addr (o : UnitOp) (base st : Word) (size i0 : Nat) : Word :=
  let i1 := o.row % o.n1
  let i2 := o.row / o.n1
  addrAdd base (BitVec.ofNat 64 i2 * (st.extractLsb' 32 32).signExtend 64 + BitVec.ofNat 64 i1 * (st.extractLsb' 0 32).signExtend 64 +
    BitVec.ofNat 64 (i0 * size))
def UnitOp.srcAddr (o : UnitOp) (i0 : Nat) : Word := o.addr (o.reg 0) (o.reg 3) (typeBytes o.sType) i0
def UnitOp.dstAddr (o : UnitOp) (base : Word) (i0 : Nat) : Word := o.addr base (o.reg 4) (typeBytes o.dType) i0

/-- Elements of the next chunk: up to the next 128 B boundary of the destination address. -/
def UnitOp.chunkLen (o : UnitOp) : Nat :=
  let d := (o.dstAddr (o.reg 1) o.elem).toNat % 128
  min (o.n0 - o.elem) (max 1 ((128 - d) / typeBytes o.dType))

/-- Source lines that the next chunk needs. -/
def UnitOp.chunkLines (o : UnitOp) : Nat :=
  let a := (o.srcAddr o.elem).toNat
  (a + o.chunkLen * typeBytes o.sType - 1) / 128 - a / 128 + 1

/-- The base addresses of the destination set (R318). -/
def UnitOp.dests (o : UnitOp) (g : Gang) : List Word :=
  if o.bmask = 0 then [o.reg 1]
  else (maskList (o.bmask &&& g.live)).map (fun e => (o.reg 1 &&& 0xFFFFFFFFF0FFFFFF#64) ||| BitVec.ofNat 64 (e * 2 ^ 24))

/-- The operation with its next chunk behind it. -/
def UnitOp.advance (o : UnitOp) (now : Nat) : UnitOp :=
  let e := o.elem + o.chunkLen
  { o with chunk := if o.n0 ≤ e then 65536 * (o.row + 1) else 65536 * o.row + e, lines := o.lines + o.chunkLines, lastLand := now }

/-- The virtual lines that an operation's chunks need from its next chunk on, at most n of them, in the order of their issue (R320):
their addresses, under the space tag of the source. -/
def UnitOp.srcLines (o : UnitOp) : Nat → Nat → List Nat
  | 0, _ => []
  | fuel + 1, n =>
    if n = 0 ∨ o.allLanded then []
    else
      let l := (upFrom ((o.srcAddr o.elem).toNat / 128) o.chunkLines).map (fun x => 128 * x)
      l.take n ++ (o.advance 0).srcLines fuel (n - l.length)

/-- The index of the source line of element i of the next chunk among the operation's source lines. -/
def UnitOp.lineOf (o : UnitOp) (i : Nat) : Nat := o.lines + ((o.srcAddr i).toNat / 128 - (o.srcAddr o.elem).toNat / 128)
/-- The leaves by which a source line was translated before an invalidation removed them. -/
def UnitOp.pinsAt (o : UnitOp) (line : Nat) : List TcEntry := if line < o.pinned then o.pins else []

/-- Pr: from the issue of a source line to its data (R111, R320); pins: leaves that an invalidation has removed since its lookup. -/
def srcTime (s : State) (core unit : Nat) (g : Gang) (pins : List TcEntry) (a : Word) : Nat :=
  let pos := (a.extractLsb' 28 5).toNat
  match tagOf a with
  | 0 => (match tcFind pins g.info.asid (a.toNat % 2 ^ 48) with
    | some e => linePath s (dieOf core) ((e.frame + a.toNat % 2 ^ pageBits e.level) / 128) false
    | none => pathTo s core (72 + 2 * core + unit) g.info.asid (a.toNat % 2 ^ 48) true false false)
  | 1 => 14
  | 2 => classCost 1
  | 3 => classCost (if pos = g.info.pos then 1 else if g.info.sameDie.getLsbD pos then 2 else 3)
  | _ => 24

end Sys2Proof.Machine
end

