-- ==== Sys2Proof/Machine/Rings.lean ====
section
/-! DEFINITION. Relay rings (R347-R353): the ring operations at issue and as the relay-ring unit performs them, extension pages
(R351) and watches (R352); and the operations on page tables that rings share with the translation unit (R359, R366, R367).
(DEDUCED, log 21, 24) -/
namespace Sys2Proof.Machine

/-! ## Frame pools and leaves -/

/-- The pool of a size in a context. -/
def XContext.pool (c : XContext) (big : Bool) : List Nat := if big then c.pool2m else c.pool64
/-- A context with a pool set. -/
def XContext.setPool (c : XContext) (big : Bool) (l : List Nat) : XContext :=
  if big then { c with pool2m := l } else { c with pool64 := l }
/-- The clean frames of a size in an ASID's pool. -/
def poolOf (s : State) (asid : Nat) (big : Bool) : List Nat := ((kfind s.contexts asid).map (fun c => c.pool big)).getD []
/-- s with a pool set. -/
def State.setPool (s : State) (asid : Nat) (big : Bool) (l : List Nat) : State :=
  match kfind s.contexts asid with
  | some c => { s with contexts := kput s.contexts asid (c.setPool big l) }
  | none => s

/-- The level of a page of a size. -/
def sizeLevel (big : Bool) : Nat := if big then 3 else 4
/-- The bytes of a page of a size. -/
def sizeBytes (big : Bool) : Nat := if big then 2 ^ 21 else 2 ^ 16

/-- A page is committed from its pool (R366): status, and the state. -/
def commitPage (s : State) (asid va : Nat) (big : Bool) : Nat × State :=
  match s.leaf asid va with
  | .error _ => (3, s)
  | .ok (level, at_, ent) =>
    if ent / 16 % 2 = 0 ∨ level ≠ sizeLevel big then (3, s)
    else if ent % 2 = 1 then (1, s)
    else match poolOf s asid big with
      | [] => (2, s)
      | f :: rest =>
        let ent' := ent % 256 + f + (1 - ent % 2)
        (0, (s.setPool asid big rest).homeStores at_ (someBytes 8 ent'))

/-- A committed page's leaf is cleared (R367): status 0 with its frame, 1 not committed, 3 not sparse. -/
def clearPage (s : State) (asid va : Nat) (big : Bool) : Nat × Nat × State :=
  match s.leaf asid va with
  | .error _ => (3, 0, s)
  | .ok (level, at_, ent) =>
    if ent / 16 % 2 = 0 ∨ level ≠ sizeLevel big then (3, 0, s)
    else if ent % 2 = 0 then (1, 0, s)
    else (0, ent / 256 % 2 ^ 32 * 256, s.homeStores at_ (someBytes 8 (ent % 256 / 2 * 2)))

/-- The frames under the entries of a list that a range of an ASID covers. -/
def coveredFrames (l : List TcEntry) (asid base size : Nat) : List (Nat × Nat) :=
  (l.filter (fun e => e.asid == asid && decide (e.va < base + size) && decide (base < e.va + 2 ^ pageBits e.level))).map
    (fun e => (e.frame, 2 ^ pageBits e.level))
/-- A cache without the entries that a range of an ASID covers. -/
def tcDrop (l : List TcEntry) (asid base size : Nat) : List TcEntry :=
  l.filter (fun e => !(e.asid == asid && decide (e.va < base + size) && decide (base < e.va + 2 ^ pageBits e.level)))

/-- A frame's bytes are zeroed at its home slices; every die cache drops its lines, dirty bytes discarded (R367). -/
def State.zeroFrame (s : State) (frame size : Nat) : State :=
  let inside (a : Nat) : Bool := decide (frame ≤ a) && decide (a < frame + size)
  { s with mem := s.mem.filter (fun c => !inside c.1)
           dieCaches := s.dieCaches.map (fun m => m.filter (fun e => !inside (128 * e.1))) }

/-- The caches of R361, by number. -/
def allCaches : List Nat := below 225

/-- The owning walker of a page (R364). -/
def walkerOf (va : Nat) : Nat := va / 2 ^ 21 % 8
/-- The owning walker of a page is busy with a release that has not been acknowledged everywhere: it takes its operations one at a time
(R364, R367). -/
def State.walkerBusy (s : State) (va : Nat) : Bool := s.invs.any (fun v => v.release.isSome && walkerOf v.base == walkerOf va)

/-- A page that the ring unit gives back through its owning walker: its leaf is cleared, and an invalidation goes to every cache, after
which the frame goes back to its pool as after a PRELEASE (R351, R367). No gang waits for its status. (DEDUCED, log 21) -/
def State.ringRelease (s : State) (asid va : Nat) : State :=
  match clearPage s asid va false with
  | (0, frame, s) =>
    { s with invs := s.invs ++ [{ core := 1000, engine := asid, serial := va, asid, base := va, size := 2 ^ 16, arrives := s.cycle + 100,
                                  waiting := allCaches, lastAck := 0, release := some (frame, false) }] }
  | (_, _, s) => s

/-! ## Rings -/

/-- The record capacity that extension pages add. -/
def Ring.extSlots (r : Ring) : Nat := 65536 / r.recsz
/-- Records the ring can hold (R349). -/
def Ring.cap (r : Ring) : Nat := r.slots + r.extSlots * r.pages.length

/-- The place of the next record: the first free primary slot in turn, else the first free extension slot of a committed page. -/
def Ring.freePlace (r : Ring) : Option (Bool × Nat) :=
  match (below r.slots).find? (fun i => !r.places.contains (false, (r.tail + i) % r.slots)) with
  | some i => some (false, (r.tail + i) % r.slots)
  | none => (r.pages.flatMap (fun p => upFrom (p * r.extSlots) r.extSlots)).find? (fun i => !r.places.contains (true, i)) |>.map
      (fun i => (true, i))

/-- The virtual address of a place. -/
def Ring.placeVa (r : Ring) (p : Bool × Nat) : Nat := if p.1 then r.extva + p.2 * r.recsz else r.base + p.2 * r.recsz

/-- The physical address of a place, through the hub cache; none where no table maps it. -/
def ringPa (s : State) (r : Ring) (p : Bool × Nat) : State × Option Nat :=
  match s.translate 224 r.asid (r.placeVa p) true true with
  | (s, .ok pa) => (s, some pa)
  | (s, .error _) => (s, none)

/-- The page of EXTVA that a full elastic ring adds next (R351). -/
def Ring.nextPage (r : Ring) : Option Nat :=
  if r.elastic && decide (r.pages.length < r.extlim) then (below r.extlim).find? (fun p => !r.pages.contains p) else none

/-- A page of EXTVA is added where the ring may grow and its pool holds a frame (R351). -/
def Ring.grow (s : State) (r : Ring) : State × Ring :=
  match r.nextPage with
  | none => (s, r)
  | some p =>
    match commitPage s r.asid (r.extva + 65536 * p) false with
    | (0, s) => (s, { r with pages := r.pages ++ [p], extpages := r.pages.length + 1 })
    | (_, s) => (s, r)

/-- An event is on its way to a ring's watcher (R352). -/
def State.ringEvent (s : State) (r : Ring) : State :=
  match r.watch with
  | some w => { s with ringEvents := s.ringEvents ++ [⟨s.cycle + 80, w⟩] }
  | none => s

/-- RPASS at the ring (R349): the state and the result. -/
def ringPass (s : State) (id : Nat) (r : Ring) (rec_ : Nat) : State × Nat :=
  let x := if r.count < r.cap then (s, r) else r.grow s
  let s := x.1
  let r := x.2
  if r.count < r.cap then
    match r.freePlace with
    | none => (s, 0xFFFFFFFF)
    | some p =>
      let y := ringPa s r p
      let s := match y.2 with
        | some pa => y.1.homeStores pa (someBytes r.recsz rec_)
        | none => y.1
      let r' := { r with tail := (r.tail + 1) % 2 ^ 31, count := r.count + 1, places := r.places ++ [p] }
      (({ s with rings := kput s.rings id r' }).ringEvent r', r.tail)
  else (s, 0xFFFFFFFF)

/-- RTAKE at the ring (R349): the state, status lanes 0-2 and the record. -/
def ringTake (s : State) (id : Nat) (r : Ring) : State × (Nat × Nat × Nat) × Nat :=
  match r.places with
  | [] => (s, (0xFFFFFFFF, 0, 0), 0)
  | p :: rest =>
    let y := ringPa s r p
    let rec_ := match y.2 with
      | some pa => y.1.homeBytes pa r.recsz
      | none => (Config.freeVec s.free (freeTag 30 0 0 id)).toNat % 2 ^ (8 * r.recsz)
    let r' := { r with head := (r.head + 1) % 2 ^ 31, count := r.count - 1, places := rest }
    let empty := r'.pages.filter (fun pg => !rest.any (fun q => q.1 && q.2 / r.extSlots == pg))
    let gone := if p.1 then empty.filter (fun pg => pg == p.2 / r.extSlots) else []
    let r'' := { r' with pages := r'.pages.filter (fun pg => !gone.contains pg) }
    let r'' := { r'' with extpages := r''.pages.length }
    let s := gone.foldl (fun s pg => s.ringRelease r.asid (r.extva + 65536 * pg)) y.1
    ({ s with rings := kput s.rings id r'' }, (r.head, r'.count, p.1.toNat), rec_)

/-- The checks of R348 on a ring word: the ring, or the fault and its DETAIL bits. The record size is
compared for RPASS and a take only: the SZ of arm and stat is a fixed field (DEDUCED, log 21). -/
def ringOf (s : State) (asid : Nat) (a : Word) (size : Option Nat) : Except (GFault × Nat) (Nat × Ring) :=
  if a.toNat / 256 ≠ 0 then .error (.page, 1)
  else match kfind s.rings (a.toNat % 256) with
    | none => .error (.permission, 0)
    | some r => if r.asid ≠ asid ∨ !(size.isNone || size == some r.recsz) then .error (.permission, 0) else .ok (a.toNat % 256, r)

/-- A 1024-bit entry from its low lanes. -/
def entryLanes (l : List Nat) : Vec := packElems 32 ((below l.length).zip l)

/-- The record size that a ring operation names, for RPASS and a take. (DEDUCED, log 21) -/
def ringSize (acc : Access) : Option Nat :=
  match acc.kind with
  | .rpass => some (szBytes (BitVec.ofNat 3 acc.sizeCode))
  | .rtakeStatus => some (szBytes (BitVec.ofNat 3 acc.sizeCode))
  | _ => none

/-- The place whose record a ring operation reads or writes, and the extension page whose owning walker it needs: the one that a pass on a
full ring adds, or that a take empties (R351). (DEDUCED, log 21) -/
def ringNeeds (r : Ring) (kind : AccKind) : Option (Bool × Nat) × Option Nat :=
  match kind with
  | .rpass => if r.count < r.cap then (r.freePlace, none) else (none, r.nextPage)
  | .rtakeStatus =>
    (match r.places with
     | [] => (none, none)
     | p :: rest =>
       (some p, if p.1 && !rest.any (fun q => q.1 && q.2 / r.extSlots == p.2 / r.extSlots) then some (p.2 / r.extSlots) else none))
  | _ => (none, none)

/-- A ring operation waits: for a release of its record's page under way (R367), or for the owning walker of a page (R364). -/
def ringWaits (s : State) (g : Gang) (acc : Access) : Bool :=
  match ringOf s g.info.asid (acc.pieces.headD { lane := 0, addr := 0, bytes := 0, data := 0 }).addr (ringSize acc) with
  | .error _ => false
  | .ok (_, r) =>
    (match (ringNeeds r acc.kind).1 with
     | some p => s.releasing r.asid (r.placeVa p)
     | none => false) ||
    (match (ringNeeds r acc.kind).2 with
     | some pg => s.walkerBusy (r.extva + 65536 * pg)
     | none => false)

/-- The cycles that the lookup of a ring operation's record adds to its published time, which holds a hit in the hub cache (R362).
(DEDUCED, log 80) -/
def ringMiss (s : State) (r : Ring) (kind : AccKind) : Nat :=
  match (ringNeeds r kind).1 with
  | some p => s.missCost 224 r.asid (r.placeVa p) - 24
  | none => 0

/-- A ring operation is performed by the unit: the state, and the result with the cycle in which it is there, or the fault. For a
take the record follows the status. -/
def ringPerform (s : State) (g : Gang) (acc : Access) (issued : Nat) :
    State × Except (GFault × Nat) (Vec × Vec × Nat) :=
  let a := (acc.pieces.headD { lane := 0, addr := 0, bytes := 0, data := 0 }).addr
  match ringOf s g.info.asid a (ringSize acc) with
  | .error f => (s, .error f)
  | .ok (id, r) =>
    let at_ (n : Nat) : Nat := max s.cycle (issued + n + ringMiss s r acc.kind)
    match acc.kind with
    | .rpass =>
      let x := ringPass s id r (acc.data.toNat % 2 ^ (8 * r.recsz))
      (x.1, .ok (entryLanes [x.2], 0, at_ 200))
    | .rtakeArm =>
      let r := { r with watch := some (g.info.handle, g.info.squad, g.info.pos) }
      let s := { s with rings := kput s.rings id r }
      (if r.count ≠ 0 then s.ringEvent r else s, .ok (0, 0, s.cycle))
    | .rtakeCount => (s, .ok (entryLanes [r.head, r.tail, r.count, r.slots, r.pages.length], 0, at_ 200))
    | _ =>
      let x := ringTake s id r
      (x.1, .ok (entryLanes [x.2.1.1, x.2.1.2.1, x.2.1.2.2], BitVec.ofNat 1024 x.2.2, at_ (if x.2.1.2.2 = 1 then 480 else 200)))

/-- n bytes from a virtual address lie in the slots or extension pages of a ring of an ASID: undefined to a program (R347).
(DESIGN CHOICE, log 79) -/
def ringHeld (s : State) (asid va n : Nat) : Bool :=
  s.rings.any (fun x => x.2.asid == asid &&
    ((decide (va < x.2.base + x.2.slots * x.2.recsz) && decide (x.2.base < va + n)) ||
     (decide (va < x.2.extva + 65536 * x.2.extlim) && decide (x.2.extva < va + n))))

/-- What a program or a unit of its gang reads in n bytes there: a free value drawn for a tag (R8, R347). (DESIGN CHOICE, log 79) -/
def ringFree (s : State) (asid tag : Nat) (a : Word) (n : Nat) : Option Nat :=
  if tagOf a = 0 ∧ ringHeld s asid (a.toNat % 2 ^ 48) n then some ((Config.freeVec s.free tag).toNat % 2 ^ (8 * n)) else none

/-! ## The ring instructions -/

/-- The access of a ring operation: the ring word stands for an address (R348). -/
def ringAccess (s : State) (kind : AccKind) (opcode size : Nat) (a : Word) (data : Vec) : Access :=
  { kind, opcode, sizeCode := size, write := kind == .rpass || kind == .rtakeArm, scope := 2, block := true,
    pieces := [{ lane := 0, addr := a, bytes := 1, data := 0 }], data, cmp := 0, lq := lqOf s.ctx.slot }

/-- RPASS: the record is read at issue. -/
def execRpass (r : BitVec 5) (v : BitVec 9) (z : BitVec 3) (q : BitVec 2) (s : State) : Out :=
  mImmediate s q.toNat 1 (fun _ k en =>
    let acc := ringAccess s .rpass 0x0F z.toNat (readA s k en r.toNat) (readV s k en v.toNat)
    if q.toNat = 2 then en.place s acc (s.cycle + 200) else en.push s q.toNat acc (s.cycle + 200))

/-- RTAKE: a status entry and a record entry (R349, R172). -/
def execRtake (r : BitVec 5) (z : BitVec 3) (q : BitVec 2) (s : State) : Out :=
  mImmediate s q.toNat 2 (fun _ k en =>
    let a := readA s k en r.toNat
    (en.push s q.toNat (ringAccess s .rtakeStatus 0x10 z.toNat a 0) (s.cycle + 200)).push s q.toNat
      (ringAccess s .rtakeRecord 0x10 z.toNat a 0) (s.cycle + 200))

/-- RTAKE.ARM: an immediate operation that takes no entry of R172's list; its fault marker, if any, still needs a place. -/
def execRtakeArm (r : BitVec 5) (s : State) : Out :=
  mImmediate s 2 1 (fun _ k en => en.place s (ringAccess s .rtakeArm 0x10 0 (readA s k en r.toNat) 0) (s.cycle + 200))

/-- RTAKE.STAT. -/
def execRtakeStat (r : BitVec 5) (q : BitVec 2) (s : State) : Out :=
  mImmediate s q.toNat 1 (fun _ k en =>
    en.push s q.toNat (ringAccess s .rtakeCount 0x10 0 (readA s k en r.toNat) 0) (s.cycle + 200))

/-- The gang that a watcher names, if it is resident (R352). -/
def watcherCore (s : State) (w : Nat × Nat × Nat) : Option Nat :=
  (below 72).find? (fun c => match s.gang c with
    | some g => g.info.handle == w.1 && g.info.squad == w.2.1 && g.info.pos == w.2.2
    | none => false)

/-- Event bits reach the gang that a handle, squad and position name: resident, or saved with its squad (R352). -/
def State.eventTo (s : State) (who : Nat × Nat × Nat) (m : BitVec 4) : State :=
  match watcherCore s who with
  | some c => s.modGang c (fun g => g.setEvent m)
  | none => { s with sched := { s.sched with tasks := s.sched.tasks.map (fun t =>
      if t.handle = who.1 then { t with squads := t.squads.map (fun q =>
        if q.num = who.2.1 then { q with saves := q.saves.map (fun g =>
          if g.info.pos = who.2.2 then { g with events := g.events ||| m } else g) } else q) } else t) } }

/-- RING_WATCH_EVENT: a due event sets the watcher's RING bit; one for a saved gang waits in its saved state (R352). -/
def execRingWatchEvent (s : State) : Out :=
  match s.ringEvents.find? (fun e => decide (e.due ≤ s.cycle)) with
  | none => .next s
  | some e => .next (({ s with ringEvents := s.ringEvents.erase e }).eventTo e.watcher 2#4)

end Sys2Proof.Machine
end

