-- ==== Sys2Proof/Machine/Translation.lean ====
section
/-! DEFINITION. The translation unit's instructions (R365-R370): PCOMMIT, PRELEASE and TLBINV at issue and at the owning walker,
invalidations with their acknowledgements (R367, R368), the walk as an event (R358), and frames on their way back to a pool. -/
namespace Sys2Proof.Machine

/-- One operation of PCOMMIT, PRELEASE or TLBINV in each active engine (R365). at_ is when it reaches the walker or the caches. -/
def xlateOp (s : State) (kind : AccKind) (opcode : Nat) (a : State → Nat → Engine → Word) (count : Nat → Engine → Nat) (q at_ : Nat) : Out :=
  mImmediate s q 1 (fun _ k en =>
    let acc : Access := { kind, opcode, sizeCode := 0, write := q == 2, scope := 2, block := true,
                          pieces := [{ lane := 0, addr := a s k en, bytes := 1, data := count k en }], data := 0, cmp := 0,
                          lq := lqOf s.ctx.slot }
    if q = 2 then en.place s acc (s.cycle + at_) else en.push s q acc (s.cycle + at_))

/-- PCOMMIT (R366): Commits a sparse page from the pool at its owning walker. -/
def execPcommit (r : BitVec 5) (z : BitVec 1) (q : BitVec 2) (s : State) : Out :=
  xlateOp s (.pcommit (z == 1)) 0x14 (fun s k en => readA s k en r.toNat) (fun _ _ => 0) q.toNat 200
/-- PRELEASE (R367): Releases a committed sparse page, invalidating every cache. -/
def execPrelease (r : BitVec 5) (z : BitVec 1) (q : BitVec 2) (s : State) : Out :=
  xlateOp s (.prelease (z == 1)) 0x15 (fun s k en => readA s k en r.toNat) (fun _ _ => 0) q.toNat 200
/-- TLBINV: lane 0 of the count register is read at issue. -/
def execTlbinv (r : BitVec 5) (v : BitVec 9) (z q : BitVec 2) (s : State) : Out :=
  xlateOp s (.tlbinv z.toNat false) 0x16 (fun s k en => readA s k en r.toNat) (fun k en => elemAt (readV s k en v.toNat) 32 0)
    q.toNat 14
/-- TLBINV_ALL (R369): Invalidates every cached leaf of the ASID. -/
def execTlbinvAll (q : BitVec 2) (s : State) : Out :=
  xlateOp s (.tlbinv 3 true) 0x16 (fun _ _ _ => 0) (fun _ _ => 1) q.toNat 14

/-- The address checks of R365: tag 4, other tags, bits 59:48. -/
def xlateFault (a : Word) : Option (GFault × Nat) :=
  if 6 ≤ tagOf a ∨ ((tagOf a = 0 ∨ tagOf a = 5) ∧ (a.extractLsb' 48 12) ≠ 0) then some (.page, 1)
  else if tagOf a = 4 then some (.scratchRange, 0)
  else if tagOf a ≠ 0 then some (.page, 2)
  else none

/-- A status entry (R365): the status and the pool count after the operation. -/
def statusEntry (status free : Nat) : Vec := entryLanes [status, free]

/-- Lanes of open or closing transactions whose sectors a range covers become doomed with cause 3, CODE 0xFF (R312). -/
def doomCovered (t : TxState) (lo hi : Nat) : TxState :=
  let hit (l : TxLog) : List Nat :=
    ((l.reads.filter (fun r => decide (lo ≤ r.va) && decide (r.va < hi))).map (·.lane)) ++
    ((l.writes.filter (fun w => decide (lo ≤ w.va) && decide (w.va < hi))).map (·.lane))
  let all := (t.cur, hit t.cur) :: t.closing.map (fun l => (l, hit l))
  all.foldl (fun t p => p.2.foldl (fun t l => t.doom p.1.id l 3 0xFF 0) t) t

/-- A range of an ASID covers part of a leaf. -/
def TcEntry.under (e : TcEntry) (asid base size : Nat) : Bool :=
  e.asid == asid && decide (e.va < base + size) && decide (base < e.va + 2 ^ pageBits e.level)

/-- A lookup that began in a cycle has missed in a cache, and its walk, which ends on a valid leaf, is over: the caches take the leaf.
(DEDUCED, log 86) -/
def State.walkOver (s : State) (id asid va began : Nat) : State :=
  let maps := match s.leaf asid va with
    | .ok (_, _, ent) => ent % 2 == 1
    | .error _ => false
  if (tcFind (s.tcOf id) asid va).isNone && maps && !s.releasing asid va && decide (began + s.missCost id asid va ≤ s.cycle) then
    (s.translate id asid va false false).1
  else s

/-- An entry's lookups begin: its marks let them, one line a cycle from its issue on (R65, R178). (DEDUCED, log 86) -/
def QEntry.looksUp (e : QEntry) (s : State) (core : Nat) (g : Gang) (k : Nat) : Bool :=
  e.acc.kind == .load && !e.performed &&
  (g.eng k).fences.all (fun f => !decide (f.serial < e.serial) || f.lets s core g k (pendingOf g k) false)

/-- The virtual addresses that an access looks up itself. -/
def Access.vas (acc : Access) : List Nat :=
  (acc.pieces.filter (fun p => tagOf p.addr == 0 && (p.tx == .plain || p.tx == .serial))).map (fun p => p.addr.toNat % 2 ^ 48)

/-- Before a page's leaf is cleared, or leaves the caches: the lookups of a range that a core's loads and copy engines have under way, and
whose walks are over, have been made (R368, R373). (DEDUCED, log 86) -/
def State.walksOver (s : State) (core asid base size : Nat) : State :=
  let inside (va : Nat) : Bool := decide (base < va + 128) && decide (va < base + size)
  match s.gang core with
  | none => s
  | some g =>
    if g.info.asid ≠ asid then s
    else
      let s := (below g.engines.length).foldl (fun s k =>
        (((g.eng k).q0 ++ (g.eng k).q1).filter (fun e => e.looksUp s core g k)).foldl (fun s e =>
          let lines := ascending (e.acc.vas.map (· / 128))
          ((below lines.length).zip lines).foldl (fun s p =>
            if inside (128 * p.2) then s.walkOver core asid (128 * p.2) (e.issued + p.1) else s) s) s) s
      [(0, g.cp0), (1, g.cp1)].foldl (fun s u => match u.2.queue with
        | o :: _ =>
          let first := o.started.getD s.cycle + 4 + o.lines
          let ls := o.srcLines (s.cycle - first) (s.cycle - first)
          ((below ls.length).zip ls).foldl (fun s p =>
            if tagOf (BitVec.ofNat 64 p.2) = 0 ∧ inside (p.2 % 2 ^ 48) then s.walkOver (72 + 2 * core + u.1) asid (p.2 % 2 ^ 48) (first + p.1)
            else s) s
        | [] => s) s

/-- The load entries of an engine whose addresses were all looked up before now, and that a cache's leaves es cover, keep those leaves
(R368): their marks let them go, and their lines have left, one a cycle. -/
def pinLoads (s : State) (core : Nat) (g : Gang) (k : Nat) (es : List TcEntry) (en : Engine) : Engine :=
  let asid := g.info.asid
  let pin (e : QEntry) : QEntry :=
    let vas := e.acc.vas
    let hit := es.filter (fun c => vas.any (fun va => (tcFind [c] asid va).isSome))
    if hit ≠ [] ∧ e.issued + (ascending (vas.map (· / 128))).length ≤ s.cycle ∧ e.looksUp s core g k then
      { e with pins := e.pins ++ hit } else e
  { en with q0 := en.q0.map pin, q1 := en.q1.map pin }

/-- A copy engine's running operation keeps the leaves by which its issued source lines were looked up (R320, R368). -/
def pinCopy (s : State) (core unit : Nat) (g : Gang) (es : List TcEntry) (u : UnitState) : UnitState :=
  { u with queue := match u.queue with
      | o :: t =>
        (match o.started with
         | some st =>
           let n := s.cycle - (st + 4) - o.lines
           let ls := o.srcLines n n
           match ls.getLast? with
           | some a =>
             if es.any (fun c => ls.any (fun x => tagOf (BitVec.ofNat 64 x) == 0 && (tcFind [c] g.info.asid (x % 2 ^ 48)).isSome)) then
               { o with pinned := o.lines + ls.length, pins := o.pins ++ es
                        returns := st + 4 + o.lines + ls.length - 1 + srcTime s core unit g (o.pins ++ es) (BitVec.ofNat 64 a) }
             else o
           | none => o
         | none => o) :: t
      | [] => [] }

/-- A gang keeps, for the accesses it has under way, the leaves that an invalidation is about to remove from its core's cache and its
copy engines' caches. -/
def State.pinGang (s : State) (core : Nat) (v : Invalidation) : State :=
  let gone (id : Nat) : List TcEntry := (s.tcOf id).filter (fun e => !(tcDrop [e] v.asid v.base v.size).contains e)
  match s.gang core with
  | none => s
  | some g =>
    if g.info.asid ≠ v.asid then s
    else s.modGang core (fun h =>
      { h.mapAct 0xFFFF (fun k en => pinLoads s core g k (gone core) en) with
        cp0 := pinCopy s core 0 g (gone (72 + 2 * core)) h.cp0, cp1 := pinCopy s core 1 g (gone (73 + 2 * core)) h.cp1 })

/-- An invalidation reaches every cache in one cycle: the accesses translated through covered entries keep them, the entries go, their
frames and a released page's own are remembered, and transactions over the range are doomed in the gangs of the ASID. -/
def State.arriveInv (s : State) (v : Invalidation) : State :=
  let s := (below 72).foldl (fun s c => s.walksOver c v.asid v.base v.size) s
  let own := match v.release with
    | some (frame, big) => [(frame, sizeBytes big)]
    | none => []
  let frames := own ++ allCaches.flatMap (fun id => coveredFrames (s.tcOf id) v.asid v.base v.size)
  let s := (below 72).foldl (fun s c => s.pinGang c v) s
  let s := allCaches.foldl (fun s id => s.modTc id (fun l => tcDrop l v.asid v.base v.size)) s
  let s := (below 72).foldl (fun s c => s.modGang c (fun g =>
    if g.info.asid = v.asid then
      { g with engines := g.engines.map (fun en => { en with tx := doomCovered en.tx v.base (v.base + v.size) }) } else g)) s
  { s with invs := s.invs.map (fun w => if w = v then { w with frames := frames.eraseDups, arrives := min w.arrives s.cycle } else w) }

/-- A physical address lies in one of some frames. -/
def inFrames (l : List (Nat × Nat)) (pa : Nat) : Bool := l.any (fun f => decide (f.1 ≤ pa) && decide (pa < f.1 + f.2))

/-- An invalidation covers one of some leaves. -/
def pinsUnder (v : Invalidation) (pins : List TcEntry) : Bool := pins.any (fun e => e.under v.asid v.base v.size)

/-- A copy engine by the number of its cache: its core and unit. -/
def copyOf (id : Nat) : Nat × Nat := ((id - 72) / 2, id % 2)

/-- The running operation of a copy engine. -/
def copyHead (s : State) (core unit : Nat) : Option UnitOp :=
  (s.gang core).bind (fun g => (if unit = 0 then g.cp0 else g.cp1).queue.head?)

/-- An access translated through a removed entry of a core's cache is not complete (R368): a load that is not performed, a released
store still on its way, a commit that holds its locks. -/
def coreBusy (s : State) (v : Invalidation) (core : Nat) : Bool :=
  s.transit.any (fun t => t.core == core && (match t.target with
    | .scratch _ _ => false
    | _ => t.writes.any (fun w => inFrames v.frames w.1))) ||
  s.commits.any (fun c => c.core == core && c.sectors.any (inFrames v.frames)) ||
  (match s.gang core with
   | some g => g.engines.any (fun en => (en.q0 ++ en.q1).any (fun e => !e.performed && pinsUnder v e.pins))
   | none => false)

/-- A cache may acknowledge (R368): every access translated through an entry that it has given up is complete. Atomics, destination chunks
and accesses through the hub cache are translated in the step that performs them. -/
def mayAck (s : State) (v : Invalidation) (id : Nat) : Bool :=
  decide (v.arrives ≤ s.cycle) &&
  (if id < 72 then !coreBusy s v id
   else if id < 216 then
     (match copyHead s (copyOf id).1 (copyOf id).2 with
      | some o => !(pinsUnder v o.pins && decide (s.cycle < o.returns) && decide (o.lines < o.pinned))
      | none => true)
   else true)

/-- The first acknowledgement that is due: the invalidation and the cache. -/
def dueAck (s : State) : Option (Invalidation × Nat) :=
  s.invs.findSome? (fun v => (v.waiting.find? (mayAck s v)).map (fun id => (v, id)))

/-- A copy engine whose cache acknowledges holds the data of the source lines that were looked up through the removed entries (R368). -/
def State.catchLines (s : State) (v : Invalidation) (id : Nat) : State :=
  if id < 72 ∨ 216 ≤ id then s
  else
    let core := (copyOf id).1
    match copyHead s core (copyOf id).2 with
    | none => s
    | some o =>
      if !pinsUnder v o.pins then s
      else
        let pas := (o.srcLines (o.pinned - o.lines) (o.pinned - o.lines)).filterMap (fun x =>
          (tcFind o.pins v.asid (x % 2 ^ 48)).map (fun e => e.frame + x % 2 ^ pageBits e.level))
        let got := pas.map (fun pa => (pa / 128, BitVec.ofNat 1024 (s.dieBytes (dieOf core) (pa / 128 * 128) 128)))
        let put (u : UnitState) : UnitState := { u with queue := match u.queue with
          | o :: t => { o with caught := o.caught ++ got } :: t
          | [] => [] }
        s.modGang core (fun g => if id % 2 = 0 then { g with cp0 := put g.cp0 } else { g with cp1 := put g.cp1 })

/-- INVALIDATION_ACK: a cache acknowledges. -/
def execInvalidationAck (s : State) : Out :=
  match dueAck s with
  | none => .next s
  | some (v, id) =>
    .next { s.catchLines v id with invs := s.invs.map (fun w => if w = v then { w with waiting := w.waiting.erase id, lastAck := s.cycle } else w) }

/-- Invalidations reach the caches in their cycle. -/
def State.tickInvs (s : State) : State :=
  (s.invs.filter (fun v => v.arrives == s.cycle)).foldl State.arriveInv s

/-- The released frames are zeroed at their home slices and returned to their pools, after the status (R367). -/
def execFrameReturn (s : State) : Out :=
  match s.framesBack with
  | [] => .next s
  | f :: t =>
    let s := { s.zeroFrame f.frame (sizeBytes f.big) with framesBack := t }
    .next (if s.poisoned f.frame (sizeBytes f.big) then s else s.setPool f.asid f.big (poolOf s f.asid f.big ++ [f.frame]))

/-- PAGE_WALK: a translation of an address in the ASID of the gang on a core, through the caches. -/
def execPageWalk (core : Nat) (va : Word) (write : Bool) (s : State) : Out :=
  match s.gang core with
  | none => .next s
  | some g => .next (s.translate core g.info.asid (va.toNat % 2 ^ 48) (!write) write).1

/-- What an operation of the translation unit has become when it reaches the walker or the caches: finished with a status there
at a cycle, or an invalidation under way. -/
inductive XlateRes where
  | status (st free at_ : Nat)
  | inv (v : Invalidation)
  deriving DecidableEq, Repr

/-- PCOMMIT, PRELEASE or TLBINV of engine k is performed as far as the walker goes (R366, R367, R369, R370). -/
def xlatePerform (s : State) (core : Nat) (g : Gang) (k serial issued : Nat) (acc : Access) : State × XlateRes :=
  let p := acc.pieces.headD { lane := 0, addr := 0, bytes := 0, data := 0 }
  let va := p.addr.toNat % 2 ^ 48
  let asid := g.info.asid
  match acc.kind with
  | .pcommit big =>
    let x := commitPage s asid (va / sizeBytes big * sizeBytes big) big
    (x.2, .status x.1 (poolOf x.2 asid big).length (max s.cycle (issued + if x.1 = 0 then 600 else 400)))
  | .prelease big =>
    let base := va / sizeBytes big * sizeBytes big
    let s := (below 72).foldl (fun s c => s.walksOver c asid base (sizeBytes big)) s
    match clearPage s asid base big with
    | (0, frame, s) =>
      (s, .inv { core, engine := k, serial, asid, base, size := sizeBytes big, arrives := max (s.cycle + 1) (issued + 300),
                 waiting := allCaches, lastAck := 0, release := some (frame, big) })
    | (st, _, s) => (s, .status st (poolOf s asid big).length (max s.cycle (issued + 400)))
  | .tlbinv size all =>
    let bytes := if size = 0 then 2 ^ 16 else if size = 1 then 2 ^ 21 else 2 ^ 30
    if !all && (p.data == 0 || decide (4096 < p.data)) then (s, .status 2 0 (max s.cycle (issued + 14)))
    else
      (s, .inv { core, engine := k, serial, asid, base := if all then 0 else va / bytes * bytes,
                 size := if all then 2 ^ 48 else bytes * p.data, arrives := max (s.cycle + 1) (issued + 100),
                 waiting := allCaches, lastAck := 0, release := none })
  | _ => (s, .status 3 0 s.cycle)

/-- An invalidation that every cache has acknowledged, 100 cycles ago (R370). -/
def Invalidation.settled (v : Invalidation) (now : Nat) : Bool := v.waiting == [] && decide (v.lastAck + 100 ≤ now)

/-- The end of an invalidation: a released frame is dropped from the die caches and goes back to its pool after the status. -/
def State.endInv (s : State) (v : Invalidation) : State :=
  let s := { s with invs := s.invs.filter (fun w => !decide (w = v)) }
  match v.release with
  | some (frame, big) =>
    let inside (a : Nat) : Bool := decide (frame ≤ a) && decide (a < frame + sizeBytes big)
    { s with dieCaches := s.dieCaches.map (fun m => m.filter (fun e => !inside (128 * e.1)))
             framesBack := s.framesBack ++ [⟨v.asid, frame, big⟩] }
  | none => s

end Sys2Proof.Machine
end

