-- ==== Sys2Proof/Machine/Perform.lean ====
section
/-! DEFINITION. Accesses as they are performed: loads, atomics, SCOP, LAPADD, ring and translation operations (R63-R67, R180, R185,
R189, R191-R194), and the release of sealed batches (R39, R182). -/
namespace Sys2Proof.Machine

/-- DETAIL of a memory fault (R193). -/
def memDetail (acc : Access) (extra : Nat) : Nat :=
  let w64 := match acc.kind with
    | .atom _ true => 8
    | _ => 0
  acc.opcode * 256 + acc.sizeCode * 16 + w64 + (if acc.write then 4 else 0) + extra

/-- The spaces of an access (R181, R186, R189, R191). -/
def AccKind.spaces : AccKind → SpaceSet
  | .scop _ => .globalOnly
  | .lapadd _ => .scratchOnly
  | _ => .all

/-- The alignment of a piece: its own bytes, or the block that it is a part of; and its place in that block. -/
def Piece.align (p : Piece) : Nat := (p.block.map (·.1)).getD (max 1 p.bytes)
def Piece.skew (p : Piece) : Nat := (p.block.map (·.2)).getD 0

/-- A piece's place: a scratchpad, or a physical address. -/
inductive Spot where
  | scr (core engine off : Nat)
  | pa (pa : Nat)
  deriving DecidableEq, Repr

/-- A fault of one piece: code, DETAIL bits, reason and level. -/
abbrev PieceFault := GFault × Nat × Nat × Nat

/-- A piece is checked and translated (R53, R181, R193, R194), first by the leaves pins that an invalidation has removed since its lookup
(R368): its place, or its fault. -/
def spotOf (s : State) (core : Nat) (g : Gang) (k : Nat) (acc : Access) (rd wr : Bool) (p : Piece) (pins : List TcEntry := []) :
    State × Except PieceFault Spot :=
  match acc.pre with
  | some (c, d) => (s, .error (c, d, if c = .page ∧ d = 1 then 6 else 0, 0))
  | none =>
    match routeOf s core g k acc.kind.spaces p.addr p.bytes p.align p.skew with
    | .error (c, d) => (s, .error (c, d, if c = .page ∧ d = 1 then 6 else 0, 0))
    | .ok (.scr c e off _) => if rd && s.sramPoisoned c e 0 off p.bytes then (s, .error (.poison, 0, 0, 0)) else (s, .ok (.scr c e off))
    | .ok (.va va) =>
      match s.translatePinned pins core g.info.asid va rd wr with
      | (s, .error f) => (s, .error (f.code, 0, f.reason, f.level))
      | (s, .ok pa) => if rd && (s.poisoned pa p.bytes || s.deadDie (dieOf core)) then (s, .error (.poison, 0, 0, 0)) else (s, .ok (.pa pa))

/-- Every piece in order: the places, and the faults by piece. -/
def spots (s : State) (core : Nat) (g : Gang) (k : Nat) (acc : Access) (rd wr : Bool) (pins : List TcEntry := []) :
    List Piece → State × List (Piece × Spot) × List (Piece × PieceFault)
  | [] => (s, [], [])
  | p :: t =>
    let x := spotOf s core g k acc rd wr p pins
    let y := spots x.1 core g k acc rd wr pins t
    match x.2 with
    | .ok sp => (y.1, (p, sp) :: y.2.1, y.2.2)
    | .error f => (y.1, y.2.1, (p, f) :: y.2.2)

/-- The fault that an entry carries: the lowest lane decides (R192, R193). -/
def entryFault (acc : Access) (fs : List (Piece × PieceFault)) : Option MemFault :=
  match fs with
  | [] => none
  | (p, c, d, reason, level) :: _ =>
    some { code := c, vaddr := p.addr, detail := memDetail acc d, reason, level,
           lanes := if acc.block then 1 else fs.foldl (fun m x => m ||| (1#32 <<< x.1.lane)) 0 }

/-- A place is read: a scratchpad bank, the die cache (which brings the line in), or the home slice. -/
def readSpot (s : State) (die : Nat) (home : Bool) (n : Nat) : Spot → State × Nat
  | .scr c e off => (s, loadBytes (s.scratch c e) off n)
  | .pa pa =>
    if home then (s.homeTouch (pa / 128), s.homeBytes pa n)
    else
      let s := s.fill die (pa / 128)
      (s, s.dieBytes die pa n)

/-- What a lane reads in n bytes of a ring's storage (R347). (DESIGN CHOICE, log 79) -/
def ringBytes (s : State) (core k : Nat) (g : Gang) (lane : Nat) (a : Word) (n : Nat) : Option Nat :=
  ringFree s g.info.asid (freeTag 31 core k lane) a n

/-- The read of a logged part (R301, R303): the bytes, and the engine with its log. -/
def readLogged (s : State) (core k : Nat) (g : Gang) (acc : Access) (p : Piece) (id mask : Nat) : State × Nat :=
  let en := g.eng k
  match (en.tx.closing ++ [en.tx.cur]).find? (fun t => t.id == id) with
  | none => (s, 0)
  | some t =>
    let va := p.addr.toNat % 2 ^ 48
    let sec := va / 32 * 32
    let upd (s : State) (f : TxState → TxState) : State := s.modGang core (fun g => g.modEng k (fun en => { en with tx := f en.tx }))
    let merge (v : BitVec 256) : Nat :=
      let raw := v.toNat / 2 ^ (8 * (va % 32)) % 2 ^ (8 * p.bytes)
      (below p.bytes).foldl (fun acc i =>
        acc + ((if mask.testBit i then p.data else raw) / 2 ^ (8 * i) % 256) * 2 ^ (8 * i)) 0
    let fill (l : TxLog) (pa : Nat) (v : BitVec 256) : TxLog :=
      if l.id = id then { l with reads := l.reads.map (fun r =>
        if r.lane = p.lane ∧ r.va = sec ∧ r.value.isNone then { r with pa := some pa, value := some v } else r) } else l
    if t.doomed.getLsbD p.lane then (s, 0)
    else if mask = 2 ^ p.bytes - 1 then (s, p.data)
    else match (t.read? p.lane sec).bind (·.value) with
      | some v => (s, merge v)
      | none =>
        match spotOf s core g k acc true false p with
        | (s, .error (c, _, _, _)) => (upd s (fun t => t.doom id p.lane 3 c.code va), 0)
        | (s, .ok (.scr _ _ _)) => (s, 0)
        | (s, .ok (.pa pa)) =>
          let base := pa / 32 * 32
          if s.poisoned base 32 || s.deadDie (dieOf core) then (upd s (fun t => t.doom id p.lane 3 GFault.poison.code va), 0)
          else
            let v := ((ringBytes s core k g p.lane (BitVec.ofNat 64 sec) 32).map (BitVec.ofNat 256)).getD (BitVec.ofNat 256 (s.homeBytes base 32))
            (upd s (fun t => { t with cur := fill t.cur base v, closing := t.closing.map (fun l => fill l base v) }), merge v)

/-- A plain piece's bytes: free values in the storage of a ring (R347). (DESIGN CHOICE, log 79) -/
def readPlain (s : State) (core k : Nat) (home : Bool) (p : Piece) (sp : Spot) : State × Nat :=
  let x := readSpot s (dieOf core) home p.bytes sp
  (x.1, ((s.gang core).bind (fun g => ringBytes s core k g p.lane p.addr p.bytes)).getD x.2)

/-- The pieces of a load, each at its lane (R180). -/
def readParts (s : State) (core k : Nat) (acc : Access) : List (Piece × Option Spot) → State × Nat
  | [] => (s, 0)
  | (p, sp) :: t =>
    let x : State × Nat := match p.tx, sp with
      | .logged id mask, _ => (match s.gang core with
        | some g => readLogged s core k g acc p id mask
        | none => (s, 0))
      | .dead, _ => (s, 0)
      | .serial, some sp => readPlain s core k true p sp
      | .plain, some sp => readPlain s core k false p sp
      | _, none => (s, 0)
    let y := readParts x.1 core k acc t
    (y.1, x.2 <<< (32 * p.lane) ||| y.2)

/-- The pieces that are checked with the access: those that no transaction handles. -/
def Piece.checked (p : Piece) : Bool :=
  match p.tx with
  | .plain => true
  | .serial => true
  | _ => false

/-- The lines that a load finds dirty in its die cache are noted: a later release of its engine orders them (R65). -/
def noteSeen (s : State) (core k : Nat) (sps : List (Piece × Spot)) : State :=
  let ls := sps.filterMap (fun x => match x.2 with
    | .pa pa => if x.1.tx = .plain ∧ (s.line (dieOf core) (pa / 128)).dirty ≠ 0 then some (pa / 128) else none
    | _ => none)
  if ls = [] then s else s.modGang core (fun g => g.modEng k (fun en => { en with seen := (en.seen ++ ls).eraseDups }))

/-- The scratchpad banks that an access from outside takes: other engines' accesses, and lap counts (R177). (DEDUCED, log 78) -/
def takeBanks (s : State) (all : Bool) (sps : List (Piece × Spot)) : State :=
  sps.foldl (fun s x => match x.2 with
    | .scr c e off => if all || tagOf x.1.addr != 1 then s.bankTake c e (unitsOf off x.1.bytes) else s
    | _ => s) s

/-- A load is performed (R63, R180, R192). (DEDUCED, log 62) (DESIGN CHOICE, log 79) -/
def performLoad (s : State) (core k : Nat) (g : Gang) (acc : Access) (pins : List TcEntry := []) : State × EntryResult :=
  let x := spots s core g k acc true false pins (acc.pieces.filter (·.checked))
  match entryFault acc x.2.2 with
  | some f => (x.1, .fault f)
  | none =>
    let ps := acc.pieces.map (fun p => (p, (x.2.1.find? (fun q => q.1 == p)).map (·.2)))
    let y := readParts (takeBanks (noteSeen x.1 core k x.2.1) false x.2.1) core k acc ps
    (y.1, .data (BitVec.ofNat 1024 y.2))

/-- The bytes that a read-modify-write leaves: f of the old ones; where these are undefined, and read as u, none where f leaves u as it
is. (DESIGN CHOICE, log 79) -/
def newBytes (n : Nat) (f : Nat → Nat) (u : Option Nat) (old : Nat) : List (Option Byte) :=
  match u with
  | none => someBytes n (f old)
  | some v => if f v = v then [] else someBytes n (f v)

/-- One read-modify-write at a place (R66, R186): the bank, the die cache, or the home slice, where the hub directory first
recalls the line. u: what is read where the bytes are undefined (R347). (DESIGN CHOICE, log 76, 79) -/
def modifySpot (s : State) (die : Nat) (home : Bool) (n : Nat) (f : Nat → Nat) (u : Option Nat) : Spot → State × Nat
  | .scr c e off =>
    let old := loadBytes (s.scratch c e) off n
    (s.modScratch c e (fun m => storeBytes m off (newBytes n f u old)), u.getD old)
  | .pa pa =>
    if home then
      let s := s.recall (pa / 128)
      let old := s.homeBytes pa n
      (s.homeStores pa (newBytes n f u old), u.getD old)
    else
      let s := s.fill die (pa / 128)
      let old := s.dieBytes die pa n
      (s.dieStores die pa (newBytes n f u old), u.getD old)

/-- The operations of an atomic in ascending order (R185). -/
def atomParts (s : State) (core k : Nat) (g : Gang) (acc : Access) (o w : Nat) : List (Piece × Spot) → State × Nat
  | [] => (s, 0)
  | (p, sp) :: t =>
    let d := acc.data.toNat / 2 ^ (32 * p.lane) % 2 ^ w
    let c := acc.cmp.toNat / 2 ^ (32 * p.lane) % 2 ^ w
    let x := modifySpot s (dieOf core) (2 ≤ acc.scope) (w / 8) (fun old => aop o old d c w) (ringBytes s core k g p.lane p.addr (w / 8)) sp
    let y := atomParts x.1 core k g acc o w t
    (y.1, x.2 <<< (32 * p.lane) ||| y.2)

/-- The die-cache lines that global places of an engine's own accesses have made dirty. -/
def noteWrote (s : State) (core k : Nat) (sps : List (Piece × Spot)) : State :=
  s.noteLines core k (sps.filterMap (fun x => match x.2 with
    | .pa pa => some (pa / 128)
    | _ => none))

/-- An atomic is performed: all its operations, or none where one faults (R185, R192). -/
def performAtom (s : State) (core k : Nat) (g : Gang) (acc : Access) (o : Nat) (w64 : Bool) : State × EntryResult :=
  let x := spots s core g k acc true true [] acc.pieces
  match entryFault acc x.2.2 with
  | some f => (x.1, .fault f)
  | none =>
    let y := atomParts (takeBanks x.1 false x.2.1) core k g acc o (if w64 then 64 else 32) x.2.1
    (if acc.scope < 2 then noteWrote y.1 core k x.2.1 else y.1, .data (BitVec.ofNat 1024 y.2))

/-- A SCOP at the home slice, whose line the hub directory first recalls as for an atomic (R189). (DESIGN CHOICE, log 76) -/
def performScop (s : State) (core k : Nat) (g : Gang) (acc : Access) (kind : Nat) : State × EntryResult :=
  let x := spots s core g k acc true true [] acc.pieces
  match entryFault acc x.2.2 with
  | some f => (x.1, .fault f)
  | none =>
    match x.2.1 with
    | (p, sp) :: _ =>
      let d := acc.data.toNat % 2 ^ 64
      let c := acc.data.toNat / 2 ^ 64 % 2 ^ 64
      let y := modifySpot x.1 (dieOf core) true 8 (fun old =>
        if kind = 0 then old else if kind = 3 then (if old = c then d else old) else d) (ringBytes x.1 core k g p.lane p.addr 8) sp
      (y.1, .data (BitVec.ofNat 1024 y.2))
    | [] => (x.1, .data 0)

/-- LAPADD at the bank (R191). -/
def performLapadd (s : State) (core k : Nat) (g : Gang) (acc : Access) (n : Nat) : State × EntryResult :=
  let x := spots s core g k acc true true [] acc.pieces
  match entryFault acc x.2.2 with
  | some f => (x.1, .fault f)
  | none =>
    match x.2.1 with
    | (_, .scr c e off) :: _ => ((takeBanks x.1 true x.2.1).lapCount c e off n, .data 0)
    | _ => (x.1, .data 0)

/-- What has become of an operation: known now; known and there at a cycle (a take's record follows); or an invalidation under way. -/
inductive Done where
  | now (r : EntryResult)
  | later (v record : Vec) (at_ : Nat)
  | begun (v : Invalidation)
  deriving DecidableEq, Repr

/-- A fault of an operation without pieces to check. -/
def opFault (acc : Access) (c : GFault) (d : Nat) : MemFault :=
  { code := c, vaddr := (acc.pieces.headD { lane := 0, addr := 0, bytes := 0, data := 0 }).addr, lanes := 1, detail := memDetail acc d,
    reason := if c = .page ∧ d = 1 ∧ acc.opcode ≠ 0x0F ∧ acc.opcode ≠ 0x10 then 6 else 0 }

/-- An operation of engine k is performed. (DEDUCED, log 20) -/
def performOp (s : State) (core k serial issued : Nat) (g : Gang) (acc : Access) (pins : List TcEntry := []) : State × Done :=
  let now (x : State × EntryResult) : State × Done := (x.1, .now x.2)
  let ring : State × Done := match ringPerform s g acc issued with
    | (s, .error f) => (s, .now (.fault (opFault acc f.1 f.2)))
    | (s, .ok (v, r, at_)) => (s, .later v r at_)
  let xlate : State × Done := match xlateFault (acc.pieces.headD { lane := 0, addr := 0, bytes := 0, data := 0 }).addr with
    | some f => (s, .now (.fault (opFault acc f.1 f.2)))
    | none => match xlatePerform s core g k serial issued acc with
      | (s, .status st free at_) => (s, .later (statusEntry st free) 0 at_)
      | (s, .inv v) => (s, .begun v)
  match acc.kind with
  | .load => now (performLoad s core k g acc pins)
  | .atom o w => now (performAtom s core k g acc o w)
  | .scop kind => now (performScop s core k g acc kind)
  | .lapadd n => now (performLapadd s core k g acc n)
  | .rpass => ring
  | .rtakeStatus => ring
  | .rtakeArm => ring
  | .rtakeCount => ring
  | .pcommit _ => xlate
  | .prelease _ => xlate
  | .tlbinv _ _ => xlate
  | _ => (s, .now (.data 0))

/-- The queue entry at a place. -/
def Engine.entryAt (en : Engine) (q serial : Nat) : Option QEntry := (en.queue q).find? (fun e => e.serial == serial)
/-- en with the entry at a place of a queue changed. -/
def Engine.modEntry (en : Engine) (q serial : Nat) (f : QEntry → QEntry) : Engine :=
  en.modQueue q (fun l => l.map (fun e => if e.serial = serial then f e else e))

/-- The places of a list of store-queue entries, one changed. -/
def modPlace (l : List SQEntry) (serial : Nat) (f : SQEntry → SQEntry) : List SQEntry :=
  l.map (fun e => if e.serial = serial then f e else e)
/-- A batch with an engine's place changed. -/
def Batch.modPlace (b : Batch) (k serial : Nat) (f : SQEntry → SQEntry) : Batch :=
  { b with entries := b.entries.map (fun e => if e.1 = k then (e.1, Sys2Proof.Machine.modPlace e.2 serial f) else e) }
/-- The gang with an immediate operation's place changed, sealed or not. -/
def Gang.modPlace (g : Gang) (k serial : Nat) (f : SQEntry → SQEntry) : Gang :=
  let g := g.modEng k (fun en => { en with sq := Sys2Proof.Machine.modPlace en.sq serial f })
  { g with prim := { g.prim with batch := g.prim.batch.map (fun b => b.modPlace k serial f) }
           spare := { g.spare with batch := g.spare.batch.map (fun b => b.modPlace k serial f) } }

/-- A lookup of one of the access's addresses waits for a release under way (R367). -/
def Access.waitsRelease (acc : Access) (s : State) (asid : Nat) (pins : List TcEntry := []) : Bool :=
  acc.pieces.any (fun p => tagOf p.addr == 0 && (tcFind pins asid (p.addr.toNat % 2 ^ 48)).isNone &&
    s.releasing asid (p.addr.toNat % 2 ^ 48))

/-- An operation on a page table. -/
def AccKind.isXlate : AccKind → Bool
  | .pcommit _ => true
  | .prelease _ => true
  | .tlbinv _ _ => true
  | _ => false

/-- An atomic of package scope or a SCOP waits for a commit that has locked a sector of its line (R66, R308). (DEDUCED, log 22) -/
def lockWaits (s : State) (core : Nat) (g : Gang) (acc : Access) : Bool :=
  !s.commits.isEmpty && (acc.kind.isScop || decide (2 ≤ acc.scope)) && acc.pieces.any (fun p => tagOf p.addr == 0 &&
    (match peekLine s core g.info.asid (p.addr.toNat % 2 ^ 48) true true with
     | some l => s.locked (128 * l) 128
     | none => false))

/-- The banks that an access from outside needs are free (R177). (DEDUCED, log 78) -/
def banksOpen (s : State) (core : Nat) (g : Gang) (k : Nat) (acc : Access) : Bool :=
  let lap := match acc.kind with
    | .lapadd _ => true
    | _ => false
  acc.pieces.all (fun p => match routeOf s core g k acc.kind.spaces p.addr p.bytes p.align p.skew with
    | .ok (.scr c e off cls) => (cls == 0 && !lap) || s.banksFree c e (unitsOf off p.bytes)
    | _ => true)

/-- What an access waits for when its time and its order have come: a release under way, the owning walker, a ring's pages, a lock of a
commit, banks. -/
def Access.free (acc : Access) (s : State) (core : Nat) (g : Gang) (k : Nat) (pins : List TcEntry) : Bool :=
  match acc.kind with
  | .pcommit _ => !s.walkerBusy ((acc.pieces.headD { lane := 0, addr := 0, bytes := 0, data := 0 }).addr.toNat % 2 ^ 48)
  | .prelease _ => !s.walkerBusy ((acc.pieces.headD { lane := 0, addr := 0, bytes := 0, data := 0 }).addr.toNat % 2 ^ 48)
  | .tlbinv _ _ => true
  | .rpass => !ringWaits s g acc
  | .rtakeStatus => !ringWaits s g acc
  | .load => !acc.waitsRelease s g.info.asid pins && banksOpen s core g k acc
  | .atom _ _ => !acc.waitsRelease s g.info.asid && banksOpen s core g k acc && !lockWaits s core g acc
  | .scop _ => !acc.waitsRelease s g.info.asid && !lockWaits s core g acc
  | .lapadd _ => banksOpen s core g k acc
  | _ => true

/-! ## Order of arrival (R177, R350, R364) -/

/-- A place where accesses are performed in order of arrival: a relay ring, the owning walker of a page, a scratchpad bank. -/
inductive Station where
  | ring (id : Nat)
  | walker (number : Nat)
  | bank (core engine number : Nat)
  deriving DecidableEq, Repr

/-- The banks of some units. -/
def bankStations (core engine : Nat) (units : List Nat) : List Station := (units.map (fun u => Station.bank core engine (u % 31))).eraseDups

/-- The stations of an access: its ring and the owning walker of a page that the ring adds or gives back, the owning walker of its page, the
banks that it takes as an access from outside. -/
def Access.stations (acc : Access) (s : State) (core : Nat) (g : Gang) (k : Nat) : List Station :=
  let a := (acc.pieces.headD { lane := 0, addr := 0, bytes := 0, data := 0 }).addr
  let ring := match ringOf s g.info.asid a (ringSize acc) with
    | .ok (id, r) => .ring id :: ((ringNeeds r acc.kind).2.map (fun pg => Station.walker (walkerOf (r.extva + 65536 * pg)))).toList
    | .error _ => []
  let banks (lap : Bool) : List Station := acc.pieces.flatMap (fun p =>
    match routeOf s core g k acc.kind.spaces p.addr p.bytes p.align p.skew with
    | .ok (.scr c e off cls) => if cls == 0 && !lap then [] else bankStations c e (unitsOf off p.bytes)
    | _ => [])
  match acc.kind with
  | .rpass => ring
  | .rtakeStatus => ring
  | .rtakeArm => ring
  | .rtakeCount => ring
  | .pcommit _ => [.walker (walkerOf (a.toNat % 2 ^ 48))]
  | .prelease _ => [.walker (walkerOf (a.toNat % 2 ^ 48))]
  | .load => banks false
  | .atom _ _ => banks false
  | .lapadd _ => banks true
  | _ => []

/-- The place of an access in the order of arrival: the cycle, the package engine number, its slot and its place in program order (R350, R364).
(DEDUCED, log 85) -/
structure Turn where
  cycle : Nat
  engine : Nat
  slot : Nat
  serial : Nat
  deriving DecidableEq, Repr

/-- One turn comes before another. -/
def Turn.before (a b : Turn) : Bool :=
  decide (a.cycle < b.cycle) || (a.cycle == b.cycle && (decide (a.engine < b.engine) || (a.engine == b.engine &&
    (decide (a.slot < b.slot) || (a.slot == b.slot && decide (a.serial < b.serial))))))

/-- The turn of an access of engine k that arrived in a cycle: none yet is this one. (DEDUCED, log 85) -/
def turnOf (s : State) (core k serial : Nat) (acc : Access) (arrived : Option Nat) : Turn :=
  { cycle := arrived.getD s.cycle, engine := 16 * core + k, slot := acc.lq, serial }

/-- A load-data entry has come to the unit that performs it: its time and its order have come. (DEDUCED, log 20, 28)
(DEDUCED, log 85) -/
def entryArrives (s : State) (core k : Nat) (g : Gang) (e : QEntry) : Bool :=
  decide (e.readyAt ≤ s.cycle) && e.result.isNone && e.held.isNone && !e.begun && e.acc.kind != .txend && !e.acc.kind.isScop &&
  e.acc.kind != .rtakeRecord && mayPerform s core g k e.serial e.acc.lq e.acc.kind

/-- So has an immediate operation's place; markers that a resume has opened again come in store-queue order (R192).
(DEDUCED, log 28) (DEDUCED, log 85) -/
def placeArrives (s : State) (core k : Nat) (g : Gang) (e : SQEntry) : Bool :=
  e.open_ && !e.begun && !e.acc.kind.isScop && decide (e.completeAt ≤ s.cycle) && mayPerform s core g k e.serial e.acc.lq e.acc.kind &&
  (!e.reopened || (placesOf g k).all (fun x => !(x.reopened && x.open_ && decide (x.serial < e.serial))))

/-- An access of engine k that has arrived before a turn stands at one of some stations. -/
def aheadIn (s : State) (core k : Nat) (g : Gang) (t : Turn) (at_ : List Station) : Bool :=
  let en := g.eng k
  (en.q0 ++ en.q1 ++ en.iq).any (fun e => (turnOf s core k e.serial e.acc e.arrived).before t &&
    entryArrives s core k g e && (e.acc.stations s core g k).any at_.contains) ||
  (placesOf g k).any (fun e => (turnOf s core k e.serial e.acc e.arrived).before t &&
    placeArrives s core k g e && (e.acc.stations s core g k).any at_.contains)

/-- So does one of any engine of the package: whoever has the turn waits. (DEDUCED, log 85) -/
def behindOthers (s : State) (t : Turn) (at_ : List Station) : Bool :=
  !at_.isEmpty && (below 72).any (fun c => match s.gang c with
    | some h => (below h.engines.length).any (fun k => aheadIn s c k h t at_)
    | none => false)

/-- A copy engine or walker takes banks only where no access waits for them (R177). (DEDUCED, log 78) -/
def unitMayTake (s : State) (core engine : Nat) (units : List Nat) : Bool :=
  !behindOthers s { cycle := s.cycle + 1, engine := 0, slot := 0, serial := 0 } (bankStations core engine units)

/-- The cycle of its arrival is kept for an access that waits at a station. (DEDUCED, log 85) -/
def State.tickArrivals (s : State) (core : Nat) : State :=
  match s.gang core with
  | none => s
  | some g =>
    let entry (k : Nat) (e : QEntry) : QEntry :=
      if e.arrived.isNone && entryArrives s core k g e && !(e.acc.stations s core g k).isEmpty then { e with arrived := some s.cycle } else e
    let place (k : Nat) (e : SQEntry) : SQEntry :=
      if e.arrived.isNone && placeArrives s core k g e && !(e.acc.stations s core g k).isEmpty then { e with arrived := some s.cycle } else e
    let batch (q : Seq) : Seq := { q with batch := q.batch.map (fun b => { b with entries := b.entries.map (fun x => (x.1, x.2.map (place x.1))) }) }
    s.modGang core (fun h =>
      { h.mapAct 0xFFFF (fun k en => { en with q0 := en.q0.map (entry k), q1 := en.q1.map (entry k), iq := en.iq.map (entry k), sq := en.sq.map (place k) })
        with prim := batch h.prim, spare := batch h.spare })

/-- A load-data entry may be performed now, or its data arrive. SCOPs and TXENDs have events of their own for being performed; a
take's record is resolved with its status. (DEDUCED, log 20, 28) -/
def entryDue (s : State) (core k : Nat) (g : Gang) (e : QEntry) : Bool :=
  (e.held.isSome && decide (e.readyAt ≤ s.cycle) && e.result.isNone && e.acc.kind != .txend) ||
  (entryArrives s core k g e && e.acc.free s core g k e.pins &&
   !behindOthers s (turnOf s core k e.serial e.acc e.arrived) (e.acc.stations s core g k))

/-- An immediate operation's place may be performed now. (DEDUCED, log 28) -/
def placeDue (s : State) (core k : Nat) (g : Gang) (e : SQEntry) : Bool :=
  placeArrives s core k g e && e.acc.free s core g k [] &&
  !behindOthers s (turnOf s core k e.serial e.acc e.arrived) (e.acc.stations s core g k)

/-- An entry is performed, with what it does to the queue and the package. -/
def State.resolveEntry (s : State) (core k q : Nat) (g : Gang) (e : QEntry) : State :=
  let upd (s : State) (f : QEntry → QEntry) : State := s.modGang core (fun g => g.modEng k (fun en => en.modEntry q e.serial f))
  match e.held with
  | some v => upd s (fun e => { e with held := none, result := some (.data v) })
  | none =>
    match performOp s core k e.serial e.issued g e.acc e.pins with
    | (s, .now r) =>
      let s := upd s (fun e => { e with result := some r, readyAt := s.cycle })
      if e.acc.kind = .rtakeStatus then
        s.modGang core (fun g => g.modEng k (fun en => en.modEntry q (e.serial + 1) (fun x => { x with result := some r, readyAt := s.cycle })))
      else s
    | (s, .later v r at_) =>
      let s := upd s (fun e => { e with held := some v, readyAt := at_ })
      if e.acc.kind = .rtakeStatus then
        s.modGang core (fun g => g.modEng k (fun en => en.modEntry q (e.serial + 1) (fun x => { x with held := some r, readyAt := at_ })))
      else s
    | (s, .begun v) => upd { s with invs := s.invs ++ [v] } (fun e => { e with begun := true })

/-- A place is performed; a fault leaves its marker (R192). -/
def State.resolvePlace (s : State) (core k : Nat) (g : Gang) (e : SQEntry) : State :=
  let upd (s : State) (f : SQEntry → SQEntry) : State := s.modGang core (fun g => g.modPlace k e.serial f)
  match performOp s core k e.serial e.issued g e.acc with
  | (s, .now (.fault f)) => upd s (fun e => { e with marker := some (some f), finished := true })
  | (s, .now _) => upd s (fun e => { e with finished := true })
  | (s, .later _ _ at_) => upd s (fun e => { e with finished := true, completeAt := at_ })
  | (s, .begun v) => upd { s with invs := s.invs ++ [v] } (fun e => { e with begun := true })

/-- A settled invalidation gives its operation its status (R370). -/
def State.settleInv (s : State) (v : Invalidation) : State :=
  let s := s.endInv v
  s.modGang v.core (fun g =>
    let free := match v.release with
      | some (_, big) => (poolOf s v.asid big).length
      | none => 0
    let fix (e : QEntry) : QEntry := if e.serial = v.serial ∧ e.begun then
      { e with result := some (.data (statusEntry 0 free)), readyAt := s.cycle } else e
    (g.modEng v.engine (fun en => { en with q0 := en.q0.map fix, q1 := en.q1.map fix })).modPlace v.engine v.serial
      (fun e => if e.begun then { e with finished := true, completeAt := s.cycle } else e))

/-- LOAD_ENTRY_RESOLVE (R173): the operation that the step's subject names is performed or its data arrive: an entry of q0, q1 or iq
(unit 0, 1, 3), an immediate operation's place (unit 2), or a settled invalidation (unit 4). (DEDUCED, log 20) -/
def execLoadEntryResolve (s : State) : Out :=
  let c := s.ctx
  if c.unit = 4 then
    match s.invs.find? (fun v => v.settled s.cycle) with
    | some v => .next (s.settleInv v)
    | none => .next s
  else match s.gang c.core with
  | none => .next s
  | some g =>
    if c.unit = 2 then
      match (placesOf g c.engine).find? (fun e => e.serial == c.id) with
      | some e => if placeDue s c.core c.engine g e then .next (s.resolvePlace c.core c.engine g e) else .next s
      | none => .next s
    else match (g.eng c.engine).entryAt c.unit c.id with
      | some e => if entryDue s c.core c.engine g e then .next (s.resolveEntry c.core c.engine c.unit g e) else .next s
      | none => .next s

/-- A tick of a core begins in this cycle (R189). -/
def tickBegins (s : State) (core : Nat) : Bool := s.cycle % 144 == 2 * core

/-- SCOP_PERFORM (R67, R189): at a tick of its core, a SCOP that is ready is performed; its entry is there 120 cycles after the tick
began, or 400 when the line came from LPDDR 5X. -/
def execScopPerform (s : State) : Out :=
  let c := s.ctx
  match s.gang c.core with
  | none => .next s
  | some g =>
    let turn (s : State) : State := s.modGang c.core (fun g => g.modEng c.engine (fun en => { en with scopTurn := some (s.cycle / 144) }))
    let lat (acc : Access) : Nat :=
      if (peekLine s c.core g.info.asid ((acc.pieces.headD { lane := 0, addr := 0, bytes := 0, data := 0 }).addr.toNat % 2 ^ 48) false false).any (fun l =>
          linePath s (dieOf c.core) l true == 520)
      then 400 else 120
    if c.unit = 2 then
      match (placesOf g c.engine).find? (fun e => e.serial == c.id && e.open_ && e.acc.kind.isScop) with
      | some e =>
        if tickBegins s c.core && decide (e.completeAt ≤ s.cycle) && mayScop s c.core g c.engine e.serial e.acc.from_ && e.acc.free s c.core g c.engine [] then
          .next (turn (s.resolvePlace c.core c.engine g e))
        else .next s
      | none => .next s
    else match (g.eng c.engine).entryAt c.unit c.id with
      | some e =>
        if e.acc.kind.isScop && !e.performed && tickBegins s c.core && decide (e.readyAt ≤ s.cycle) &&
            mayScop s c.core g c.engine e.serial e.acc.from_ && e.acc.free s c.core g c.engine [] then
          match performOp s c.core c.engine e.serial e.issued g e.acc with
          | (s', .now (.data v)) =>
            .next (turn (s'.modGang c.core (fun g => g.modEng c.engine (fun en => en.modEntry c.unit c.id (fun e =>
              { e with held := some v, readyAt := s'.cycle + lat e.acc })))))
          | (s', .now r) =>
            .next (turn (s'.modGang c.core (fun g => g.modEng c.engine (fun en => en.modEntry c.unit c.id (fun e =>
              { e with result := some r, readyAt := s'.cycle })))))
          | _ => .next s
        else .next s
      | none => .next s

/-! ## The release of a batch (R39, R45, R182) -/

/-- The cycles the slowest translation of a batch takes on the uncontended path (R362). -/
def batchMiss (s : State) (core : Nat) (g : Gang) (b : Batch) : Nat :=
  ((b.entries.flatMap (·.2)).flatMap (fun e => e.acc.pieces)).foldl (fun m p =>
    if tagOf p.addr = 0 ∧ p.addr.extractLsb' 48 12 = 0 then max m (s.missCost core g.info.asid p.addr.toNat) else m) 0

/-- An immediate operation of the batch's region is still to be performed: all are before its stores are released (R65-R67), but for a TXEND,
whose commit may wait for a lock that these stores release (R310). (DEDUCED, log 23) -/
def batchHeld (g : Gang) (b : Batch) : Bool :=
  b.ends.any (fun x => (pendingOf g x.1).any (fun p => decide (p.serial < x.2) && p.kind.isImmediate && p.kind != .txend))

/-- A PCOMMIT, PRELEASE or TLBINV of the batch's region has not completed: its translation does not begin (R365). -/
def xlateOpen (s : State) (g : Gang) (b : Batch) : Bool :=
  b.ends.any (fun x =>
    ((g.eng x.1).q0 ++ (g.eng x.1).q1).any (fun e => e.acc.kind.isXlate && decide (e.serial < x.2) && !e.resolved s.cycle) ||
    (placesOf g x.1).any (fun e => e.acc.kind.isXlate && decide (e.serial < x.2) && !(e.finished && decide (e.completeAt ≤ s.cycle))))

/-- The batches of a core's gang whose translation cannot begin in this cycle begin it in the next at the earliest (R365). -/
def State.tickBatches (s : State) (core : Nat) : State :=
  match s.gang core with
  | none => s
  | some g =>
    let late (q : Seq) : Seq := { q with batch := q.batch.map (fun b => if xlateOpen s g b then { b with sealedAt := s.cycle + 1 } else b) }
    if g.prim.batch.isNone && g.spare.batch.isNone then s
    else s.modGang core (fun h => { h with prim := late h.prim, spare := late h.spare })

/-- A sealed batch may be handed to memory (R39, R365): its tile stores complete, its immediate operations performed, its
translations finished, its marks in order. (DEDUCED, log 23) -/
def batchDue (s : State) (core : Nat) (g : Gang) (b : Batch) : Bool :=
  b.fault.isNone && !batchHeld g b && !xlateOpen s g b &&
  b.entries.all (fun x => x.2.all (fun e => if e.marker.isNone then decide (e.completeAt ≤ s.cycle) else !e.open_) &&
    batchLets s core g x.1 x.2 && x.2.all (fun e => !e.marker.isNone || !e.acc.waitsRelease s g.info.asid)) &&
  decide (b.sealedAt + batchMiss s core g b ≤ s.cycle)

/-- The stores of one engine translated: places by entry, and the faults of entries. -/
def spotEntries (s : State) (core k : Nat) (g : Gang) :
    List SQEntry → State × List (SQEntry × List (Piece × Spot)) × List MemFault
  | [] => (s, [], [])
  | e :: t =>
    match e.marker with
    | some m =>
      let y := spotEntries s core k g t
      (y.1, y.2.1, (match m with
        | some f => [f]
        | none => []) ++ y.2.2)
    | none =>
      let x := spots s core g k e.acc false true [] e.acc.pieces
      let y := spotEntries x.1 core k g t
      (y.1, (e, x.2.1) :: y.2.1, (match entryFault e.acc x.2.2 with
        | some f => [f]
        | none => []) ++ y.2.2)

/-- The engines of a batch in turn. -/
def spotBatch (s : State) (core : Nat) (g : Gang) :
    List (Nat × List SQEntry) → State × List (Nat × List (SQEntry × List (Piece × Spot))) × List (Nat × MemFault)
  | [] => (s, [], [])
  | (k, es) :: t =>
    let x := spotEntries s core k g es
    let y := spotBatch x.1 core g t
    (y.1, (k, x.2.1) :: y.2.1, x.2.2.head?.toList.map (fun f => (k, f)) ++ y.2.2)

/-- The cycles from a store's hand-off to where it is performed (R39). -/
def storeLag (core : Nat) (g : Gang) (p : Piece) : Spot → Nat
  | .scr c _ _ =>
    let pos := (p.addr.extractLsb' 28 5).toNat
    if tagOf p.addr = 1 then 1
    else if tagOf p.addr = 2 ∨ (c = core ∧ pos = g.info.pos) then 12
    else if g.info.sameDie.getLsbD pos then 30 else 70
  | .pa _ => if p.tx = .serial then 240 else 48

/-- The place a piece's bytes go to, and where in it. -/
def targetOf (core : Nat) (p : Piece) : Spot → Target × Nat
  | .scr c x off => (.scratch c x, off)
  | .pa pa => (if p.tx = .serial then .home else .die (dieOf core), pa)

/-- The transits of one entry that leaves in cycle h: one for each place, with its writes in lane order. -/
def entryTransits (core k : Nat) (g : Gang) (h : Nat) (gate : Bool) (e : SQEntry) (ps : List (Piece × Spot)) : List Transit :=
  ((ps.map (fun p => (targetOf core p.1 p.2).1)).eraseDups).map (fun tg =>
    let mine := ps.filter (fun p => (targetOf core p.1 p.2).1 == tg)
    { due := h + mine.foldl (fun m p => max m (storeLag core g p.1 p.2)) 0, core, engine := k, serial := e.serial, target := tg,
      writes := mine.map (fun p => ((targetOf core p.1 p.2).2, bytesOf p.1.bytes p.1.data)), gate })

/-- The place of the last release before a place of engine k that is not over: 0 for none. Its stores behind it leave once it is
(R65, R188). -/
def gateAt (s : State) (fs : List FenceMark) (serial : Nat) : Nat :=
  (fs.filter (fun f => f.isRel && decide (f.serial < serial) && !f.ownReleased s)).foldl (fun m f => max m (f.serial + 1)) 0

/-- The transits of one engine's entries: they leave one entry per cycle (R39), from now on, or where they stand behind a release of
their region from the cycle in which it is over. gate, h: the release before the last entry so far, and the entry's turn behind it. -/
def handOff (s : State) (core k : Nat) (g : Gang) (fs : List FenceMark) (gate h : Nat) :
    List (SQEntry × List (Piece × Spot)) → List Transit
  | [] => []
  | (e, ps) :: t =>
    let gate' := gateAt s fs e.serial
    let h' := if gate' = gate then h else 0
    (entryTransits core k g (if gate' = 0 then s.cycle + h' else h') (decide (gate' ≠ 0)) e ps) ++ handOff s core k g fs gate' (h' + 1) t

/-- The release fault of a batch: SLOT 15, QUEUE 2; the lowest engine decides, and the engines that report its code are listed. -/
def releaseFault (fs : List (Nat × MemFault)) : Option FaultRec :=
  match fs with
  | [] => none
  | (_, f) :: _ =>
    some { code := f.code, rank := 0, slot := 15, queue := 2, vaddr := f.vaddr, lanes := f.lanes, detail := f.detail
           engmask := maskOf ((fs.filter (fun x => x.2.code == f.code)).map (·.1)), reason := f.reason, level := f.level }

/-- BATCH_RELEASE: the batch of the sequencer that the step's subject names is handed to memory, or its fault halts the gang at the
next bundle boundary. -/
def execBatchRelease (s : State) : Out :=
  let c := s.ctx
  match s.gang c.core with
  | none => .next s
  | some g =>
    match (g.seq c.spare).batch with
    | none => .next s
    | some b =>
      if !batchDue s c.core g b then .next s
      else
        let x := spotBatch s c.core g b.entries
        match releaseFault x.2.2 with
        | some r =>
          .next (x.1.modGang c.core (fun g =>
            let g := g.modSeq c.spare (fun q => { q with batch := some { b with fault := some r } })
            if g.st = .running ∨ g.st = .exiting then g.beginHalt (c.spare && g.split) r else g))
        | none =>
          let outs : List Transit := x.2.1.flatMap (fun (e : Nat × List (SQEntry × List (Piece × Spot))) =>
            handOff s c.core e.1 g ((g.eng e.1).fences) 0 0 e.2)
          .next ({ x.1 with transit := x.1.transit ++ outs }.modGang c.core (fun g => g.modSeq c.spare (fun q => { q with batch := none })))

/-! ## Released bytes arrive (R39, R64) -/

/-- Whether a transit that is due can be performed now: its banks are free (R177), or its sectors are not locked (R308), and no access
that came to a bank before it still waits there. -/
def State.canLand (s : State) (t : Transit) : Bool :=
  match t.target with
  | .scratch core e =>
    s.banksFree core e t.units && !behindOthers s { cycle := t.due, engine := 0, slot := 0, serial := 0 } (bankStations core e t.units)
  | .die _ => true
  | .home => !t.writes.any (fun w => s.locked w.1 w.2.length)

/-- Transits in the order in which they left: the state in which those that can be have been performed, and the others. -/
def State.landDue (s : State) (held : List Transit) : List Transit → State × List Transit
  | [] => (s, held)
  | t :: r =>
    if !t.gate && decide (t.due ≤ s.cycle) && !held.any (·.blocks t) && s.canLand t then (s.landTransit t).landDue held r
    else s.landDue (held ++ [t]) r

/-- Released bytes due by now are performed, in the order in which they left. -/
def State.landTransits (s : State) : State :=
  let x := s.landDue [] s.transit
  { x.1 with transit := x.2 }

/-- The stores behind a release of their region that is over leave (R65, R188). -/
def State.openGates (s : State) (core : Nat) : State :=
  match s.gang core with
  | none => { s with transit := s.transit.map (fun t => if t.core = core ∧ t.gate then { t with gate := false, due := s.cycle + t.due } else t) }
  | some g => { s with transit := s.transit.map (fun t =>
      if t.core = core ∧ t.gate ∧ gateAt s (g.eng t.engine).fences t.serial = 0 then { t with gate := false, due := s.cycle + t.due } else t) }

end Sys2Proof.Machine
end

