-- ==== Sys2Proof/Machine/Flags.lean ====
section
/-! DEFINITION. Exception flags (R121, R122): the flags of an instruction land in CR_FPFLAGS with its result, from active engines
and enabled lanes only; and the integer conditions of CMP. -/
namespace Sys2Proof.Machine

/-- The union of the flags of elementwise results. -/
def orFlags (l : List (Nat × Nat × Nat)) : Nat := l.foldl (fun f r => f ||| r.2.2) 0

/-- Engine en with flags that land lat cycles on (setflags of R128); nothing lands for no flag. -/
def Engine.setflags (en : Engine) (now lat f : Nat) : Engine := if f = 0 then en else en.land now lat (.flags f)

/-- Elementwise results (index, value, flags): the values land in register d and the flags in CR_FPFLAGS, in the same cycle. -/
def Engine.writeFlagged (en : Engine) (now lat d w : Nat) (l : List (Nat × Nat × Nat)) : Engine :=
  (en.writeElems now lat d w (l.map (fun r => (r.1, r.2.1)))).setflags now lat (orFlags l)

/-- The conditions of CMP (R133): 0 eq, 1 ne, 2 lt, 3 ge, 4 ltu, 5 geu. -/
def cmpCond (c : Nat) (x y : Word) : Bool :=
  match c with
  | 0 => x == y
  | 1 => x != y
  | 2 => x.slt y
  | 3 => !x.slt y
  | 4 => x.ult y
  | _ => !x.ult y

/-- The flags a uniform MOVC of CR_FPFLAGS reads: the OR over the active engines (R121). -/
def flagsOver (g : Gang) (act : Mask) : Nat := (maskList act).foldl (fun f k => f ||| (g.eng k).fpflags) 0

end Sys2Proof.Machine
end

