-- ==== Sys2Proof/Machine/Control.lean ====
section
/-! DEFINITION. Moving state in and out of the sequencer: control registers (R4, R20, R28, R36, R92, R121, R132, R135, R144,
R167, R175, R271, R286, R298, R360, R386), EGET and EPUT (R136), address, stride and shape registers (R137, R138), and gang
predicates (R139, R140). -/
namespace Sys2Proof.Machine

/-! ## Reading control registers -/

/-- A control register as a sum of fields placed by their low bit. -/
def fieldsVal (l : List (Nat × Nat)) : Word := BitVec.ofNat 64 (l.foldl (fun acc f => acc + f.2 * 2 ^ f.1) 0)

/-- The engines that the sub-gang not in hand drives, 0 while nothing is split (R132). To the spare, live engines that were inactive at
the GSPLIT count as the primary's. (DESIGN CHOICE, log 88) -/
def Gang.other (g : Gang) (spare : Bool) : Mask := if g.split then g.driven (!spare) else 0

/-- Entries occupied in a load-data queue or iq: pushed, and not yet popped before a restart point (R172). -/
def occupied (q : List QEntry) : Nat := q.length

/-- CR_QOCC as the queues of an engine stand (R175). -/
def Engine.queueWord (en : Engine) : Word :=
  fieldsVal [(24, occupied en.iq), (16, en.sq.length), (8, occupied en.q1), (0, occupied en.q0)]

/-- A register that each engine holds a copy of (R20, R121, R175, R271, R286, R298). -/
def crEngine (en : Engine) (addr : Nat) : Word :=
  match addr with
  | 0x002 => BitVec.ofNat 64 en.capRows
  | 0x00A => BitVec.ofNat 64 en.fpflags
  | 0x101 => en.occSeen.getD en.queueWord
  | 0x200 => BitVec.ofNat 64 en.rcut
  | 0x201 => en.rthr
  | 0x202 => en.rfill.setWidth 64
  | 0x300 => fieldsVal [(32, en.tx.cur.doomed.toNat), (0, en.tx.cur.members.toNat)]
  | 0x302 => fieldsVal [(16, if en.tx.limit ≤ en.tx.count then 1 else 0), (0, en.tx.count)]
  | 0x303 => BitVec.ofNat 64 en.tx.limit
  | 0x304 => fieldsVal [(56, en.tx.fcode), (48, en.tx.flane), (0, en.tx.fva)]
  | 0x400 => fieldsVal [(16, en.bind.base), (8, en.bind.engs), (0, en.bind.code)]
  | _ => 0

/-- Log entries in use: the open transaction's and those of TXENDs still to be performed (R300). -/
def TxState.rused (t : TxState) : Nat := t.cur.reads.length + (t.closing.map (fun l => l.reads.length)).sum
def TxState.wused (t : TxState) : Nat := t.cur.writes.length + (t.closing.map (fun l => l.writes.length)).sum

/-- CR_LOOPREM as the bundle at PC reads it: the iteration that this bundle begins is in progress (R132, R143). -/
def LoopState.following (l : LoopState) : Nat := l.remain - l.turn.toNat

/-- A register of the gang, core or package, or of the sequencer (R4): reserved fields read 0. -/
def crShared (s : State) (g : Gang) (addr : Nat) : Word :=
  let q := g.me s
  let i := g.info
  let core := s.ctx.core
  if 0x20 ≤ addr ∧ addr ≤ 0x3F then sget 0 q.stack (addr - 0x20)
  else match addr with
  | 0x001 => fieldsVal [(8, core / 9), (0, core)]
  | 0x003 => BitVec.ofNat 64 g.gangCap
  | 0x004 => g.live.setWidth 64
  | 0x005 => fieldsVal [(32, i.prio), (0, i.handle)]
  | 0x006 => fieldsVal [(32, i.xyz.2.2), (16, i.xyz.2.1), (0, i.xyz.1)]
  | 0x007 => fieldsVal [(32, i.grid.2.2), (16, i.grid.2.1), (0, i.grid.1)]
  | 0x008 => fieldsVal [(23, i.span.toNat), (20, i.ndie), (18, i.dix), (8, i.ngang), (0, i.pos)]
  | 0x009 => i.sameDie.setWidth 64
  | 0x00B => fieldsVal [(16, q.callDepth), (8, q.spilled), (0, q.resident)]
  | 0x00C => g.events.setWidth 64
  | 0x00D => BitVec.ofNat 64 g.timer
  | 0x00E => g.lapGate.setWidth 64
  | 0x00F => fieldsVal [(48, if g.split then g.splitDepth else 0), (32, if g.split then g.splitTag else 0),
                        (17, s.ctx.spare.toNat), (16, g.split.toNat), (0, (g.other s.ctx.spare).toNat)]
  | 0x010 => BitVec.ofNat 64 ((q.loop.map (·.following)).getD 0)
  | 0x011 => g.batons.setWidth 64
  | 0x100 => BitVec.ofNat 64 g.watchdog
  | 0x102 => BitVec.ofNat 64 i.lpBase
  | 0x103 => BitVec.ofNat 64 i.lpSize
  | 0x104 => BitVec.ofNat 64 i.spSize
  | 0x105 => fieldsVal [(7, s.cycle / 144), (0, s.cycle / 2 % 72)]
  | 0x500 => BitVec.ofNat 64 (s.sched.age % 2 ^ 32)
  | 0x501 => BitVec.ofNat 64 i.saveBase
  | 0x502 => BitVec.ofNat 64 g.preempts
  | 0x600 => BitVec.ofNat 64 i.asid
  | 0x601 => BitVec.ofNat 64 ((kfind s.contexts i.asid).map (·.pool64.length) |>.getD 0)
  | 0x602 => BitVec.ofNat 64 ((kfind s.contexts i.asid).map (·.pool2m.length) |>.getD 0)
  | 0x603 => fieldsVal [(4, g.xlReason), (0, g.xlLevel)]
  | 0x604 => (s.core core).tcMiss
  | 0x700 => BitVec.ofNat 64 s.cycle
  | 0x701 => q.perf.issued
  | 0x702 => q.perf.qwait
  | 0x703 => q.perf.xwait
  | 0x704 => q.perf.swait
  | 0x705 => q.perf.traps
  | 0x706 => q.perf.longWait
  | _ => 0

/-- Register addr as engine k sees it. -/
def crOf (s : State) (g : Gang) (en : Engine) (addr : Nat) : Word :=
  if addr = 0x301 then
    fieldsVal [(32, en.tx.wused), (16, en.tx.rused), (2, (s.lock.holder == some s.ctx.core).toNat),
               (1, (en.tx.opened && en.tx.cur.serial).toNat), (0, en.tx.opened.toNat)]
  else if crPerEngine addr then crEngine en addr else crShared s g addr

/-- A uniform MOVC (R135): the lowest active engine's copy, but the gang capability for CR_CAPROWS (R21) and the union of the
active engines' flags for CR_FPFLAGS (R121). -/
def crUniform (s : State) (g : Gang) (addr : Nat) : Word :=
  if addr = 0x002 then BitVec.ofNat 64 g.gangCap
  else if addr = 0x00A then BitVec.ofNat 64 (flagsOver g s.act)
  else crOf s g (g.eng ((maskList s.act).headD 0)) addr

/-- MOVC (R135): latency 1. -/
def execMovc (e : BitVec 1) (d : BitVec 6) (c : BitVec 12) (s : State) : Out :=
  slotGang s (fun g =>
    if e = 0 then g.writeS s 1 d.toNat (crUniform s g c.toNat)
    else g.mapAct s.act (fun _ en => en.writeE s.cycle 1 d.toNat (crOf s g en c.toNat)))

/-! ## Writing control registers -/

/-- A sequencer with a write to one of its own registers (R132, R144, R167); other addresses are left alone. -/
def Seq.writeCr (q : Seq) (addr : Nat) (v : Word) : Seq :=
  if 0x20 ≤ addr ∧ addr ≤ 0x3F then { q with stack := sput 0 q.stack (addr - 0x20) (v &&& 0x00FFFFFFFFFFFFFF#64) }
  else match addr with
  | 0x00B => { q with spilled := v.toNat / 256 % 256, resident := min 32 (v.toNat % 64) }
  | 0x701 => { q with perf := { q.perf with issued := v } }
  | 0x702 => { q with perf := { q.perf with qwait := v } }
  | 0x703 => { q with perf := { q.perf with xwait := v } }
  | 0x704 => { q with perf := { q.perf with swait := v } }
  | 0x705 => { q with perf := { q.perf with traps := v } }
  | 0x706 => { q with perf := { q.perf with longWait := v } }
  | _ => q

/-- A write to a register of the gang lands (R36, R132): CR_EVENTS is cleared bit by bit, CR_WATCHDOG is at least 256; read-only
registers keep their value. -/
def Gang.writeCr (g : Gang) (spare : Bool) (addr : Nat) (v : Word) : Gang :=
  match addr with
  | 0x00C => g.clearEvent (v.setWidth 4)
  | 0x00D => { g with timer := v.toNat % 2 ^ 32, timerDue := false }
  | 0x00E => { g with lapGate := v.setWidth 16 }
  | 0x011 => { g with batons := v.setWidth 32 }
  | 0x100 => { g with watchdog := max 256 (v.toNat % 2 ^ 20) }
  | _ => g.modSeq spare (fun q => q.writeCr addr v)

/-- A write to a register that is not per-engine lands: CR_TCMISS belongs to the core (R360), and a miss of the same cycle leaves the
written value (R135). -/
def State.writeCr (s : State) (core : Nat) (spare : Bool) (addr : Nat) (v : Word) : State :=
  if addr = 0x604 then s.modCore core (fun c => { c with tcMiss := v, tcSet := s.cycle })
  else s.modGang core (fun g => g.writeCr spare addr v)

/-- MOVTC (R135): the write lands 1 cycle later, in the sequencer or in every active engine's copy; an E-mode write to a register
that is not per-engine is an illegal encoding. -/
def execMovtc (e : BitVec 1) (a : BitVec 6) (c : BitVec 12) (s : State) : Out :=
  slotGang s (fun g =>
    if crPerEngine c.toNat then
      g.mapAct s.act (fun k en =>
        en.land s.cycle 1 (.cr c.toNat (if e = 0 then readS s (g.me s) a.toNat else readField s g k en a.toNat)))
    else if e = 0 then g.modMe s (fun q => q.land s.cycle 1 (.cr c.toNat (readS s (g.me s) a.toNat)))
    else g.raise s .illegalEncoding 0 0 0)

/-- The landing of a write to one register in the gang of the core in hand. -/
def crWriteEvent (s : State) (addr : Nat) (v : Word) : Out := slotGang s (fun g => g.writeCr s.ctx.spare addr v)

/-- The landing of a write to a per-engine register in a set of engines. -/
def crWriteEngines (s : State) (m : Mask) (addr : Nat) (v : Word) : Out :=
  slotGang s (fun g => g.mapAct m (fun _ en => en.writeCr addr v))

/-- CR_EVENTS write (R132): each bit written as 1 is cleared, but for those set in this cycle. -/
def execCrEventsWrite (v : Word) (s : State) : Out := crWriteEvent s 0x00C v
/-- CR_TIMER write (R132). -/
def execCrTimerWrite (v : Word) (s : State) : Out := crWriteEvent s 0x00D v
/-- CR_BATONS write (R132): sets every bit. -/
def execCrBatonsWrite (v : Word) (s : State) : Out := crWriteEvent s 0x011 v
/-- CR_WATCHDOG write (R36). -/
def execCrWatchdogWrite (v : Word) (s : State) : Out := crWriteEvent s 0x100 v
/-- CR_STKDEPTH write (R132). -/
def execCrStkdepthWrite (v : Word) (s : State) : Out := crWriteEvent s 0x00B v
/-- CR_FPFLAGS write (R121). -/
def execCrFpflagsWrite (m : Mask) (v : Word) (s : State) : Out := crWriteEngines s m 0x00A v
/-- CR_RCUT write (R271). -/
def execCrRcutWrite (m : Mask) (v : Word) (s : State) : Out := crWriteEngines s m 0x200 v

/-! ## Single values between the files (R136) -/

/-- EGET: the e-register of a named engine, 0 for one that is not live. -/
def egetVal (s : State) (g : Gang) (n r : Nat) : Word :=
  if inMask g.live n then readE s n (g.eng n) r else 0

/-- EGET with a register engine number. -/
def execEgetSr (d a b : BitVec 6) (s : State) : Out :=
  slotGang s (fun g => g.writeS s 1 d.toNat (egetVal s g ((readS s (g.me s) a.toNat).toNat % 16) b.toNat))
/-- EGET with an immediate engine number. -/
def execEgetSi (d : BitVec 6) (n b : BitVec 4) (s : State) : Out :=
  slotGang s (fun g => g.writeS s 1 d.toNat (egetVal s g n.toNat b.toNat))

/-- EPUT: writes to an engine that is not live are ignored. -/
def eput (s : State) (d a : BitVec 6) (v : Gang → Word) : Out :=
  slotGang s (fun g =>
    let n := (readS s (g.me s) a.toNat).toNat % 16
    if inMask g.live n then g.modEng n (fun en => en.writeE s.cycle 1 d.toNat (v g)) else g)
/-- EPUT of an s-register. -/
def execEputSr (d a b : BitVec 6) (s : State) : Out := eput s d a (fun g => readS s (g.me s) b.toNat)
/-- EPUT of an immediate. -/
def execEputSi (d a : BitVec 6) (i : BitVec 12) (s : State) : Out := eput s d a (fun _ => i.signExtend 64)

/-! ## Address, stride and shape registers (R137, R138) -/

/-- A value for each active engine: from s-registers under E = 0, from its own registers under E = 1. -/
def perEngine (s : State) (e : BitVec 1) (op : (BitVec 6 → Word) → Word) (f : Engine → Word → Engine) : Out :=
  slotGang s (fun g => g.mapAct s.act (fun k en =>
    f en (op (fun r => if e = 0 then readS s (g.me s) r.toNat else readField s g k en r.toNat))))

/-- ASET: a[D], latency 1. -/
def execAsetSr (e : BitVec 1) (d a b : BitVec 6) (s : State) : Out :=
  perEngine s e (fun r => r a + r b) (fun en v => en.land s.cycle 1 (.a d.toNat false v))
/-- ASET_SI (R137): Sets an address register to a register plus an immediate. -/
def execAsetSi (e : BitVec 1) (d a : BitVec 6) (i : BitVec 12) (s : State) : Out :=
  perEngine s e (fun r => r a + i.signExtend 64) (fun en v => en.land s.cycle 1 (.a d.toNat false v))
/-- ASTR: st[D], latency 1. -/
def execAstrSr (e : BitVec 1) (d a b : BitVec 6) (s : State) : Out :=
  perEngine s e (fun r => r a + r b) (fun en v => en.land s.cycle 1 (.st d.toNat (v.setWidth 32)))
/-- ASTR_SI (R137): Sets a stride register to a register plus an immediate. -/
def execAstrSi (e : BitVec 1) (d a : BitVec 6) (i : BitVec 12) (s : State) : Out :=
  perEngine s e (fun r => r a + i.signExtend 64) (fun en v => en.land s.cycle 1 (.st d.toNat (v.setWidth 32)))

/-- The fields of a shape word (R138). -/
def shapeM (h : Word) : Nat := (h.extractLsb' 0 7).toNat
def shapeN (h : Word) : Nat := (h.extractLsb' 8 7).toNat
def shapeK (h : Word) : Nat := (h.extractLsb' 16 11).toNat
def shapeFlags (h : Word) : Nat := (h.extractLsb' 32 8).toNat

/-- The limits of a shape word (R138); of FLAGS, bit 0 is defined (R248). -/
def shapeOk (h : Word) : Bool :=
  1 ≤ shapeM h && shapeM h ≤ 64 && 1 ≤ shapeN h && shapeN h ≤ 64 && 1 ≤ shapeK h && shapeK h ≤ 1024 &&
    (h &&& ~~~ 0x0000000107FF7F7F#64) == 0

/-- SHP: the shape word in every active engine; SHAPE names the engines whose word breaks the limits, with DETAIL the register
(R138, R166). -/
def shpWrite (s : State) (d : Nat) (v : Gang → Nat → Engine → Word) : Out :=
  slotGang s (fun g =>
    let bad := (maskList s.act).filter (fun k => !shapeOk (v g k (g.eng k)))
    if bad = [] then g.mapAct s.act (fun k en => en.land s.cycle 1 (.h d (v g k en)))
    else g.raise s .shape (maskOf bad) d 0)

/-- SHP_SR (R138): Writes a shape register in every active engine, checking its limits. -/
def execShpSr (e : BitVec 1) (d a : BitVec 6) (s : State) : Out :=
  shpWrite s d.toNat (fun g k en => if e = 0 then readS s (g.me s) a.toNat else readField s g k en a.toNat)
/-- SHP.K keeps the fields other than K. -/
def execShpK (_e : BitVec 1) (d : BitVec 6) (i : BitVec 12) (s : State) : Out :=
  shpWrite s d.toNat (fun _ k en => (readH s k en d.toNat &&& ~~~ 0x07FF0000#64) ||| ((i.setWidth 64 &&& 0x7FF#64) <<< 16))

/-! ## Gang predicates (R139, R140) -/

/-- The engines lo to hi; none when hi < lo. -/
def engRange (lo hi : Nat) : Mask := maskOf ((below 16).filter (fun i => lo ≤ i && i ≤ hi))

/-- GPRED.SET: the bit of each active engine from its e-register, or from an s-register that every engine shares (R131). -/
def execGpredSet (d a : BitVec 6) (s : State) : Out :=
  slotGang s (fun g => g.writeG s d.toNat s.act
    (maskOf ((maskList s.act).filter (fun k => readField s g k (g.eng k) a.toNat != 0))))

/-- A predicate computed from others, written whole. -/
def gpred (s : State) (d : BitVec 6) (v : (BitVec 6 → Mask) → Gang → Mask) : Out :=
  slotGang s (fun g => g.writeG s d.toNat 0xFFFF (v (fun r => readG s g (g.me s) r.toNat) g))

/-- GPRED_AND (R139): g[D] := g[A] and g[B]. -/
def execGpredAnd (d a b : BitVec 6) (s : State) : Out := gpred s d (fun r _ => r a &&& r b)
/-- GPRED_OR (R139): g[D] := g[A] or g[B]. -/
def execGpredOr (d a b : BitVec 6) (s : State) : Out := gpred s d (fun r _ => r a ||| r b)
/-- GPRED_ANDN (R139): g[D] := g[A] and not g[B]. -/
def execGpredAndn (d a b : BitVec 6) (s : State) : Out := gpred s d (fun r _ => r a &&& ~~~ r b)
/-- GPRED_XOR (R139): g[D] := g[A] xor g[B]. -/
def execGpredXor (d a b : BitVec 6) (s : State) : Out := gpred s d (fun r _ => r a ^^^ r b)
/-- GPRED_NOT (R139): g[D] := g0 and not g[A]. -/
def execGpredNot (d a : BitVec 6) (s : State) : Out := gpred s d (fun r g => g.live &&& ~~~ r a)
/-- GPRED_FROMS (R139): g[D] := s[A][15:0] and g0. -/
def execGpredFroms (d a : BitVec 6) (s : State) : Out :=
  gpred s d (fun _ g => (readS s (g.me s) a.toNat).setWidth 16 &&& g.live)
/-- GPRED_RANGE (R139): g[D] := g[A] and the engine bits lo to hi. -/
def execGpredRange (d a : BitVec 6) (h l : BitVec 4) (s : State) : Out :=
  gpred s d (fun r _ => r a &&& engRange l.toNat h.toNat)

/-- A query of a predicate and the active mask into an s-register. -/
def gqry (s : State) (d : BitVec 6) (v : (BitVec 6 → Mask) → Mask → Word) : Out :=
  slotGang s (fun g => g.writeS s 1 d.toNat (v (fun r => readG s g (g.me s) r.toNat) s.act))

/-- GQRY_MASK (R140): Reads a g-register into an s-register. -/
def execGqryMask (d a : BitVec 6) (s : State) : Out := gqry s d (fun r _ => (r a).setWidth 64)
/-- GQRY.MASK in E-mode: each active engine's own bit. -/
def execGqryMaskE (d a : BitVec 6) (s : State) : Out :=
  slotGang s (fun g => g.mapAct s.act (fun k en =>
    en.writeE s.cycle 1 d.toNat (BitVec.ofNat 64 (inMask (readG s g (g.me s) a.toNat) k).toNat)))
/-- GQRY_COUNT (R140): Counts the active engines set in a g-register. -/
def execGqryCount (d a : BitVec 6) (s : State) : Out :=
  gqry s d (fun r act => BitVec.ofNat 64 (maskList (r a &&& act)).length)
/-- GQRY_ANY (R140): 1 if any active engine is set in a g-register. -/
def execGqryAny (d a : BitVec 6) (s : State) : Out := gqry s d (fun r act => if r a &&& act = 0 then 0 else 1)
/-- GQRY_ALL (R140): 1 if every active engine is set in a g-register. -/
def execGqryAll (d a : BitVec 6) (s : State) : Out := gqry s d (fun r act => if r a &&& act = act then 1 else 0)
/-- GQRY_FIRST (R140): Index of the lowest active engine set, or 16. -/
def execGqryFirst (d a : BitVec 6) (s : State) : Out :=
  gqry s d (fun r act => BitVec.ofNat 64 ((maskList (r a &&& act)).headD 16))
/-- GQRY_ACT (R140): Reads the active mask. -/
def execGqryAct (d : BitVec 6) (s : State) : Out := gqry s d (fun _ act => act.setWidth 64)
/-- GQRY_BIT (R140): Reads one bit of a g-register. -/
def execGqryBit (d a : BitVec 6) (n : BitVec 4) (s : State) : Out :=
  gqry s d (fun r _ => BitVec.ofNat 64 (inMask (r a) n.toNat).toNat)

end Sys2Proof.Machine
end

