-- ==== Sys2Proof/Machine/Sequencer.lean ====
section
/-! DEFINITION. Code addresses (R75-R78), branches, calls and loops (R141-R143), the reconvergence stack (R144-R148), gang
divergence and sub-gangs (R146, R147, R149-R151). An S0 instruction leaves in Seq.ctl what it makes of the sequencer; the bundle's
commit puts it in force (R130). -/
namespace Sys2Proof.Machine

/-! ## Code -/

/-- The code word at an address. -/
def Gang.word (g : Gang) (pc : Nat) : CodeWord := g.code.getD pc 0xFFFF#16
/-- The code words that the bundle at an address occupies (R77). -/
def Gang.bundleLen (g : Gang) (pc : Nat) : Nat := if g.word pc = escapeWord then 25 else 1

/-- Whether the scan of R78 marks the word n places on as a bundle start, with skip words of a literal's payload left. -/
def startScan (ws : List CodeWord) (skip n : Nat) : Bool :=
  match ws, skip, n with
  | [], _, _ => false
  | _ :: _, skip, 0 => skip == 0
  | w :: t, 0, n + 1 => startScan t (if w = escapeWord then 24 else 0) n
  | _ :: t, k + 1, n + 1 => startScan t k n

/-- A code address is a marked bundle start within the image. -/
def Gang.isStart (g : Gang) (a : Int) : Bool := 0 ≤ a && startScan g.code 0 a.toNat

/-- The bundle at a code address starts a run of n bundles; the number of them up to the one at last, if it is reached. -/
def bodyCount (g : Gang) (a last fuel : Nat) : Option Nat :=
  match fuel with
  | 0 => none
  | fuel + 1 =>
    if a = last then some 1
    else if last < a then none
    else (bodyCount g (a + g.bundleLen a) last fuel).map (· + 1)

/-! ## Stack entries (R144) -/

/-- An entry of the reconvergence stack. -/
def stkEntry (full alt : Mask) (resume kind depth : Nat) : Word :=
  fieldsVal [(50, depth % 64), (47, kind), (32, resume % 32768), (16, alt.toNat), (0, full.toNat)]
def stkFull (w : Word) : Mask := w.extractLsb' 0 16
def stkAlt (w : Word) : Mask := w.extractLsb' 16 16
def stkResume (w : Word) : Nat := (w.extractLsb' 32 15).toNat
def stkKind (w : Word) : Nat := (w.extractLsb' 47 3).toNat
def stkDepth (w : Word) : Nat := (w.extractLsb' 50 6).toNat

/-- A control instruction's fault: code, ENGMASK and DETAIL. -/
abbrev CtlFault := GFault × Mask × Nat
/-- What a control instruction makes of the sequencer, or its fault. -/
abbrev CtlRes := Except CtlFault SeqCtl

/-- A fault without engines or detail. -/
def ctlFault (c : GFault) : CtlRes := .error (c, 0, 0)

/-- The sequencer as it stands, going on to the next bundle in program order. -/
def Gang.flow (g : Gang) (s : State) : SeqCtl :=
  let q := g.me s
  { pc := q.pc + g.bundleLen q.pc, taken := false, active := s.act, stack := q.stack, resident := q.resident,
    spilled := q.spilled, callDepth := q.callDepth, loop := q.loop }

/-- A branch of the bundle to a code address: taken unless the address is the next bundle's; a taken target must start a bundle
(R78, R141). -/
def jumpTo (g : Gang) (c : SeqCtl) (a : Int) : CtlRes :=
  if a = c.pc then .ok c
  else if g.isStart a then .ok { c with pc := a.toNat, taken := true }
  else ctlFault .illegalTarget

/-- The top entry. -/
def SeqCtl.top (c : SeqCtl) : Word := sget 0 c.stack (c.resident - 1)
/-- The top entry replaced. -/
def SeqCtl.setTop (c : SeqCtl) (w : Word) : SeqCtl := { c with stack := sput 0 c.stack (c.resident - 1) w }
/-- The top entry removed: entries above RESIDENT keep their value. -/
def SeqCtl.pop (c : SeqCtl) : SeqCtl := { c with resident := c.resident - 1 }
/-- A push (R145). -/
def SeqCtl.push (c : SeqCtl) (w : Word) : CtlRes :=
  if c.resident = 32 then ctlFault .stack
  else .ok { c with stack := sput 0 c.stack c.resident w, resident := c.resident + 1 }

/-- The engines of the limb chain that engine k belongs to when it is bound across engines (R147). -/
def bindGroup (en : Engine) : Mask :=
  if en.bind.code = 0 ∨ en.bind.engs ≤ 1 then 0 else engRange en.bind.base (en.bind.base + en.bind.engs - 1)

/-- The engines of each bound group that a mask holds in part (R147). -/
def bindSplit (g : Gang) (m : Mask) : Mask :=
  (maskList g.live).foldl (fun acc k =>
    let grp := bindGroup (g.eng k)
    if grp &&& m ≠ 0 ∧ grp &&& m ≠ grp then acc ||| grp else acc) 0

/-- The active mask that a stack entry gives back: an entry that a MOVTC or STKFILL has made may name engines that are not live, or
none that is; the mask keeps the live ones, and where none is left it is some set of live engines (R130). (DESIGN CHOICE, log 68) -/
def Gang.maskBack (g : Gang) (epoch : Nat) (m : Mask) : Mask :=
  if m &&& g.live ≠ 0 then m &&& g.live
  else
    let f := (Config.freeWord epoch (freeTag 18 g.info.handle 0 g.info.pos)).setWidth 16 &&& g.live
    if f ≠ 0 then f else g.live

/-- A new active mask, which must not part a limb chain (R147). -/
def setActive (g : Gang) (c : SeqCtl) (m : Mask) : CtlRes :=
  let bad := bindSplit g m
  if bad = 0 then .ok { c with active := m } else .error (.bindDiverge, bad, 0x35)

/-- The frame of the control instructions: the result stands in Seq.ctl until the bundle commits; a fault is raised. -/
def ctlOp (s : State) (f : Gang → Seq → SeqCtl → CtlRes) : Out :=
  slotGang s (fun g =>
    match f g (g.me s) (g.flow s) with
    | .ok c => g.modMe s (fun q => { q with ctl := some c })
    | .error (code, m, detail) => g.raise s code m detail 0)

/-- PC + sext(OFF20) (R141). -/
def target (q : Seq) (o : BitVec 20) : Int := (q.pc : Int) + o.toInt

/-! ## Branches, calls and loops -/

/-- A branch on a condition. -/
def branchIf (s : State) (o : BitVec 20) (p : Gang → Seq → Bool) : Out :=
  ctlOp s (fun g q c => if p g q then jumpTo g c (target q o) else .ok c)

/-- JMP (R141): Unconditional branch. -/
def execJmp (o : BitVec 20) (s : State) : Out := branchIf s o (fun _ _ => true)
/-- BZ (R141): Branches when s[A] is zero. -/
def execBz (a : BitVec 6) (o : BitVec 20) (s : State) : Out := branchIf s o (fun _ q => readS s q a.toNat == 0)
/-- BNZ (R141): Branches when s[A] is nonzero. -/
def execBnz (a : BitVec 6) (o : BitVec 20) (s : State) : Out := branchIf s o (fun _ q => readS s q a.toNat != 0)
/-- BLTZ (R141): Branches when s[A] is negative. -/
def execBltz (a : BitVec 6) (o : BitVec 20) (s : State) : Out := branchIf s o (fun _ q => (readS s q a.toNat).slt 0)
/-- BMZ: the low 32 bits of the e-register are 0 in every active engine. -/
def execBmz (a : BitVec 6) (o : BitVec 20) (s : State) : Out :=
  branchIf s o (fun g _ => (maskList s.act).all (fun k => (readE s k (g.eng k) a.toNat).setWidth 32 == 0#32))

/-- CALL (R142): it is a taken branch wherever its target lies, the next bundle included. (DEDUCED, log 69) -/
def execCall (o : BitVec 20) (s : State) : Out :=
  ctlOp s (fun g q c =>
    if c.callDepth = 63 ∨ c.resident = 32 then ctlFault .stack
    else do
      let c' ← c.push (stkEntry s.act 0 c.pc 2 c.callDepth)
      if g.isStart (target q o) then .ok { c' with callDepth := c.callDepth + 1, pc := (target q o).toNat, taken := true }
      else ctlFault .illegalTarget)

/-- RET (R142). -/
def execRet (s : State) : Out :=
  ctlOp s (fun g _ c =>
    if s.ctx.spare ∧ c.resident = 0 then ctlFault .splitMismatch
    else if c.resident = 0 ∨ stkKind c.top = 0 ∨ stkKind c.top = 1 then ctlFault .stack
    else if stkKind c.top = 4 ∨ stkKind c.top = 3 then ctlFault .splitMismatch
    else if stkKind c.top ≠ 2 then ctlFault .stack
    else do
      let c' ← setActive g { c.pop with callDepth := c.callDepth - 1 } (g.maskBack s.free (stkFull c.top))
      jumpTo g c' (stkResume c.top))

/-- LOOP (R143): the body is the bundles after this one, through the bundle at PC + OFF20. (DEDUCED, log 53) -/
def execLoop (a : BitVec 6) (o : BitVec 20) (s : State) : Out :=
  ctlOp s (fun g q c =>
    let n := (readS s q a.toNat).toNat % 2 ^ 32
    let last := (target q o).toNat
    if o.toInt ≤ 0 then ctlFault .illegalEncoding
    else match bodyCount g c.pc last 64 with
      | none => ctlFault .illegalEncoding
      | some _ =>
        if n = 0 then jumpTo g c (last + g.bundleLen last)
        else .ok { c with loop := some { first := c.pc, last, remain := n - 1, buffered := false } })

/-! ## Divergence (R146) -/

/-- Both paths of a predicate: the entry is pushed, and the engines of t run, or those of f at the target when t is empty. -/
def divide (g : Gang) (s : State) (q : Seq) (c : SeqCtl) (a : BitVec 6) (o : BitVec 20) (kind : Nat) : CtlRes := do
  let t := s.act &&& readG s g q a.toNat
  let f := s.act &&& ~~~ readG s g q a.toNat
  let tgt := target q o
  let c ← c.push (stkEntry s.act (if t = 0 then 0 else f) (bitsI tgt 15) kind c.callDepth)
  if t ≠ 0 then setActive g c t
  else do
    let c ← setActive g c f
    jumpTo g c tgt

/-- GIF (R146): Pushes an IF entry and runs the engines whose predicate is set. -/
def execGif (a : BitVec 6) (o : BitVec 20) (s : State) : Out := ctlOp s (fun g q c => divide g s q c a o 0)

/-- GELSE (R146): Switches to the engines still to run the other path, or jumps to the join. -/
def execGelse (o : BitVec 20) (s : State) : Out :=
  ctlOp s (fun g q c =>
    if c.resident = 0 ∨ stkKind c.top ≠ 0 then ctlFault .stack
    else
      let w := c.top
      if stkAlt w ≠ 0 then do
        let c ← setActive g (c.setTop (stkEntry (stkFull w) 0 (stkResume w) 1 (stkDepth w))) (g.maskBack s.free (stkAlt w))
        jumpTo g c (stkResume w)
      else jumpTo g c (target q o))

/-- GJOIN (R146): Restores the full mask and pops the IF or ELSE entry. -/
def execGjoin (s : State) : Out :=
  ctlOp s (fun g _ c =>
    if c.resident = 0 ∨ 1 < stkKind c.top then ctlFault .stack else setActive g c.pop (g.maskBack s.free (stkFull c.top)))

/-! ## Sub-gangs (R149, R151) -/

/-- GSPLIT: a real split starts the spare; any other serialises. (DEDUCED, log 53) -/
def execGsplit (a : BitVec 6) (o : BitVec 20) (s : State) : Out :=
  ctlOp s (fun g q c =>
    let t := s.act &&& readG s g q a.toNat
    let f := s.act &&& ~~~ readG s g q a.toNat
    if !s.ctx.spare && g.spareLive && !g.split && t != 0 && f != 0 then do
      let c ← c.push (stkEntry s.act f (bitsI (target q o) 15) 4 c.callDepth)
      let c ← setActive g c t
      if g.isStart (target q o) then .ok { c with act := .split f (target q o).toNat } else ctlFault .illegalTarget
    else divide g s q c a o 3)

/-- The checks a sub-gang's GMERGE makes on arrival (R151). -/
def mergeOk (g : Gang) (spare : Bool) (c : SeqCtl) : Bool :=
  if spare then c.resident == 0 && c.spilled == 0 && c.callDepth == g.splitDepth
  else 1 ≤ c.resident && stkKind c.top == 4 && stkDepth c.top == c.callDepth

/-- The other sub-gang waits at its GMERGE. -/
def otherAtMerge (g : Gang) (spare : Bool) : Bool :=
  match (g.seq (!spare)).wait with
  | some (.merge, _) => true
  | _ => false

/-- GMERGE: a reserved KIND on top is STACK (R144); a serialised split switches or ends; in a real split the first arrival waits, and
the second merges. -/
def execGmerge (s : State) : Out :=
  slotGang s (fun g =>
    let q := g.me s
    let c := g.flow s
    let res : CtlRes :=
      if 1 ≤ c.resident ∧ 5 ≤ stkKind c.top then ctlFault .stack
      else if 1 ≤ c.resident ∧ stkKind c.top = 3 then
        let w := c.top
        if stkDepth w ≠ c.callDepth then ctlFault .splitMismatch
        else if stkAlt w ≠ 0 then do
          let c ← setActive g (c.setTop (stkEntry (stkFull w) 0 (stkResume w) 3 (stkDepth w))) (g.maskBack s.free (stkAlt w))
          jumpTo g c (stkResume w)
        else setActive g c.pop (g.maskBack s.free (stkFull w))
      else if g.split then
        if !mergeOk g s.ctx.spare c then ctlFault .splitMismatch
        else if !otherAtMerge g s.ctx.spare then .ok c
        else if (g.seq (!s.ctx.spare)).pc ≠ q.pc then ctlFault .splitMismatch
        else if s.ctx.spare then .ok { c with act := .merge }
        else do
          let c' ← setActive g c.pop (g.maskBack s.free (stkFull c.top))
          .ok { c' with act := .merge }
      else ctlFault .splitMismatch
    let waits := g.split && !(1 ≤ c.resident && stkKind c.top == 3) && !otherAtMerge g s.ctx.spare
    match res with
    | .error (code, m, detail) => g.raise s code m detail 0
    | .ok c =>
      if waits then g.modMe s (fun q => { q with wait := some (.merge, s.cycle) })
      else g.modMe s (fun q => { q with ctl := some c }))

/-! ## Spill and fill (R148) -/

/-- STKSPILL: the eight oldest entries go to s[D] to s[D + 7], landing 1 cycle later. -/
def execSysStkspill (d : BitVec 6) (s : State) : Out :=
  slotGang s (fun g =>
    let c := g.flow s
    if c.resident < 8 ∨ 247 < c.spilled then g.raise s .stack 0 0 0
    else
      let g := (below 8).foldl (fun g j => g.writeS s 1 (d.toNat + j) (sget 0 c.stack j)) g
      let stack := (below (c.resident - 8)).foldl (fun st j => sput 0 st j (sget 0 c.stack (j + 8))) c.stack
      g.modMe s (fun q => { q with ctl := some { c with stack, resident := c.resident - 8, spilled := c.spilled + 8 } }))

/-- STKFILL: eight entries come back below the resident ones. -/
def execSysStkfill (a : BitVec 6) (s : State) : Out :=
  ctlOp s (fun _ q c =>
    if 24 < c.resident ∨ c.spilled < 8 then ctlFault .stack
    else
      let up := (below c.resident).foldl (fun st j => sput 0 st (j + 8) (sget 0 c.stack j)) c.stack
      let stack := (below 8).foldl (fun st j => sput 0 st j (readS s q (a.toNat + j) &&& 0x00FFFFFFFFFFFFFF#64)) up
      .ok { c with stack, resident := c.resident + 8, spilled := c.spilled - 8 })

/-! ## Exit and break (R162, R163) -/

/-- SYS EXIT: raised faults aside, the commit seals the stores and ends the gang. -/
def execSysExit (s : State) : Out :=
  ctlOp s (fun g _ c =>
    if g.split then ctlFault .splitMismatch
    else if c.resident ≠ 0 ∨ c.spilled ≠ 0 then ctlFault .stack
    else .ok { c with act := .exit })

/-- SYS BRK: the bundle commits, and the gang halts with BREAK at the next bundle. -/
def execSysBrk (s : State) : Out := ctlOp s (fun _ _ c => .ok { c with act := .brk })

/-- A change of the sequencer comes into force for the next bundle (R130). -/
def Seq.applyCtl (q : Seq) (c : SeqCtl) : Seq :=
  { q with pc := c.pc, active := c.active, stack := c.stack, resident := c.resident, spilled := c.spilled,
           callDepth := c.callDepth, loop := c.loop, ctl := none }

/-- The spare as GSPLIT sets it up (R149): copies of the primary's s-file and g-file, with the results on their way to them, an empty
stack, and its first bundle two cycles after the primary's next. -/
def spareStart (g : Gang) (other : Mask) (pc cycle : Nat) : Seq :=
  let p := g.prim
  { pc, active := other, s := p.s, g := p.g, callDepth := p.callDepth, base := cycle + 3, rppc := pc,
    lands := p.lands.filter (fun L => match L.pay with
      | .s _ _ | .g _ _ _ => true
      | .cr _ _ | .shadow _ _ _ => false) }

end Sys2Proof.Machine
end

