-- ==== Sys2Proof/Machine/Sync.lean ====
section
/-! DEFINITION. Engine operations from the sequencer's side (R152-R155, R315-R317, R336), events (R156-R159), barriers (R32, R160)
and the task submissions of SYS (R164). A WAIT, BWAIT or BAR whose condition does not hold leaves Seq.wait; its bundle commits when
it does. (DESIGN CHOICE, log 10) -/
namespace Sys2Proof.Machine

/-! ## Places in program order (R65, R153) -/

/-- An operation that counts as an immediate operation of every engine of a set stands here in their program order.
(DEDUCED, log 25) -/
def Gang.marksOf (g : Gang) (act : Mask) : List (Nat × Nat) := (maskList act).map (fun k => (k, (g.eng k).serial))

/-- The fences before those places let an immediate operation be performed. (DEDUCED, log 25) -/
def gateOpen (s : State) (core : Nat) (marks : List (Nat × Nat)) : Bool :=
  match s.gang core with
  | none => true
  | some g => marks.all (fun m =>
      (g.eng m.1).fences.all (fun f => !decide (f.serial < m.2) || f.lets s core g m.1 (pendingOf g m.1) true))

/-! ## Shadow registers (R152, R315) -/

/-- ENGW: the walkers' registers in each active engine, the other units' in the gang; they land 1 cycle later. -/
def engw (s : State) (e : BitVec 1) (unit d : Nat) (op : (BitVec 6 → Word) → Word) : Out :=
  slotGang s (fun g =>
    if unit = 2 then g.mapAct s.act (fun k en =>
      en.land s.cycle 1 (.iw d (op (fun r => if e = 0 then readS s (g.me s) r.toNat else readField s g k en r.toNat))))
    else g.modMe s (fun q => q.land s.cycle 1 (.shadow unit d (op (fun r => readS s (g.me s) r.toNat)))))

/-- ENGW_SR (R152): Writes a shadow register of a copy engine, walker or collective port. -/
def execEngwSr (e : BitVec 1) (d a b u : BitVec 6) (s : State) : Out := engw s e u.toNat d.toNat (fun r => r a + r b)
/-- ENGW_SI (R152): Writes a shadow register with a 10-bit immediate offset. -/
def execEngwSi (e : BitVec 1) (d a : BitVec 6) (u : BitVec 2) (i : BitVec 10) (s : State) : Out :=
  engw s e u.toNat d.toNat (fun r => r a + i.signExtend 64)

/-- A unit of the gang by its number (R152): 0 CP0, 1 CP1, 3 CL. -/
def Gang.unit (g : Gang) (u : Nat) : UnitState := if u = 0 then g.cp0 else if u = 1 then g.cp1 else g.cl
/-- g with a unit changed. -/
def Gang.modUnit (g : Gang) (u : Nat) (f : UnitState → UnitState) : Gang :=
  if u = 0 then { g with cp0 := f g.cp0 } else if u = 1 then { g with cp1 := f g.cp1 } else { g with cl := f g.cl }

/-- The registers of a copy shadow set that fail R317, lowest first. -/
def copyBad (r : RegFile 64) : List Nat :=
  let x (d : Nat) : Word := sget 0 r d
  let st := bitsOf (x 5) 0 3
  let dt := bitsOf (x 5) 3 3
  let rm := bitsOf (x 5) 6 3
  let sat := bitsOf (x 5) 9 1
  let bmask := bitsOf (x 5) 16 16
  let ss := typeBytes st
  let ds := typeBytes dt
  let cnt := bitsOf (x 2) 48 16 != 0 || bitsOf (x 2) 0 16 == 0 || bitsOf (x 2) 16 16 == 0 || bitsOf (x 2) 32 16 == 0
  let mode := bitsOf (x 5) 32 32 != 0 || bitsOf (x 5) 11 5 != 0 || decide (5 ≤ rm) ||
    (rm != 0 && ((tInt st && tInt dt) || st == dt)) || (sat == 1 && !(tInt st && tInt dt && decide (ds < ss))) ||
    (bmask != 0 && tagOf (x 1) != 2 && tagOf (x 1) != 4)
  (if cnt then [2] else []) ++ (if bitsOf (x 3) 0 32 % ss ≠ 0 ∨ bitsOf (x 3) 32 32 % ss ≠ 0 then [3] else []) ++
  (if bitsOf (x 4) 0 32 % ds ≠ 0 ∨ bitsOf (x 4) 32 32 % ds ≠ 0 then [4] else []) ++ (if mode then [5] else [])

/-- The registers of a walker shadow set that fail R317. -/
def walkBad (r : RegFile 64) : List Nat :=
  let x (d : Nat) : Word := sget 0 r d
  let d3 := bitsOf (x 4) 32 1 == 1
  let ty := bitsOf (x 4) 16 16
  let tx := bitsOf (x 4) 0 16
  let grid := bitsOf (x 4) 33 31 != 0 || tx == 0 ||
    (if d3 then ty == 0 || decide (127 < tx) || decide (127 < ty) else ty != 0 || decide (1023 < tx))
  (if bitsOf (x 3) 32 32 = 0 then [3] else []) ++ (if grid then [4] else []) ++
  (if bitsOf (x 5) 16 48 ≠ 0 ∨ bitsOf (x 5) 2 6 ≠ 0 ∨ bitsOf (x 5) 8 8 = 0 then [5] else [])

/-- Set bits of a mask. -/
def popMask (m : Nat) : Nat := ((below 32).filter (fun i => m.testBit i)).length

/-- The registers of a collective shadow set that fail R336 in a gang. -/
def collBad (g : Gang) (r : RegFile 64) : List Nat :=
  let x (d : Nat) : Word := sget 0 r d
  let op := bitsOf (x 4) 0 3
  let red := bitsOf (x 4) 3 2
  let ty := bitsOf (x 4) 5 3
  let ncut := bitsOf (x 4) 8 7
  let count := bitsOf (x 2) 0 24
  let mask := bitsOf (x 3) 0 32
  let pen := bitsOf (x 3) 39 1
  let root := bitsOf (x 3) 40 11
  let cnt := bitsOf (x 2) 24 40 != 0 || (if op = 4 then count != 0 else count == 0)
  let group := bitsOf (x 3) 51 13 != 0 || bitsOf (x 3) 38 1 != 0 || !mask.testBit g.info.pos ||
    decide (2 ^ g.info.ngang ≤ mask) || (pen == 0 && bitsOf (x 3) 32 6 != 0) || (root != 0 && op != 3) ||
    (pen == 0 && decide (popMask mask ≤ root))
  let mode := decide (bitsOf (x 4) 32 32 < 1024) || bitsOf (x 4) 15 17 != 0 ||
    (if op = 4 then ncut == 0 || decide (64 < ncut) else ncut != 0) || !([0, 1, 2, 5].contains ty) ||
    (red != 0 && decide (2 ≤ op)) || decide (4 < op)
  (if cnt then [2] else []) ++ (if group then [3] else []) ++ (if mode then [4] else [])

/-! ## ENGGO (R153) -/

/-- The batons that an ENGGO consumes: a field equal to the produced one names none. -/
def consumed (p x y z : BitVec 6) : List Nat := (([x, y, z].filter (fun b => b != p)).map (·.toNat)).eraseDups

/-- ENGGO of a unit of the core: its shadow set is checked, and copied into a queue of two. -/
def enggo (s : State) (unit : Nat) (bad : Gang → RegFile 64 → List Nat) (p x y z : BitVec 6) : Out :=
  slotGang s (fun g =>
    let u := g.unit unit
    match bad g u.shadow with
    | d :: _ => g.raise s .illegalEncoding 0 (0x400 + 16 * unit + d) 0
    | [] =>
      if 2 ≤ u.queue.length then g.raise s .queueOverflow 0 (0x100 + unit) 0
      else
        let op : UnitOp := { regs := u.shadow, opcode := 0x21 + unit, baton := p.toNat, consumes := consumed p x y z,
                             issued := s.cycle, engine := (maskList s.act).headD 0, marks := g.marksOf s.act }
        (g.modUnit unit (fun u => { u with queue := u.queue ++ [op] })).immediate s)

/-- ENGGO_CP0 (R153): Queues a copy on CP0, consuming and producing batons. -/
def execEnggoCp0 (p x y z : BitVec 6) (s : State) : Out := enggo s 0 (fun _ r => copyBad r) p x y z
/-- ENGGO_CP1 (R153): Queues a copy on CP1. -/
def execEnggoCp1 (p x y z : BitVec 6) (s : State) : Out := enggo s 1 (fun _ r => copyBad r) p x y z
/-- ENGGO_CL (R153): Queues a collective on the collective port. -/
def execEnggoCl (p x y z : BitVec 6) (s : State) : Out := enggo s 3 collBad p x y z

/-- ENGGO.IW: an operation of the walkers of the active engines (R315). -/
def execEnggoIw (p x y z : BitVec 6) (s : State) : Out :=
  slotGang s (fun g =>
    let act := maskList s.act
    let bad := act.filterMap (fun k => ((walkBad (g.eng k).iwShadow).head?).map (fun d => (k, plainFault .illegalEncoding (0x420 + d))))
    let full := (act.filter (fun k => 2 ≤ (g.eng k).walks.length)).map (fun k => (k, plainFault .queueOverflow 0x102))
    if bad ≠ [] then g.raiseEngs s 0xFF bad
    else if full ≠ [] then g.raiseEngs s 0xFF full
    else
      let op : IwOp := { id := g.iwNext, baton := p.toNat, consumes := consumed p x y z, issued := s.cycle, engines := s.act,
                         marks := g.marksOf s.act }
      let g := { g with iwOps := g.iwOps ++ [op], iwNext := g.iwNext + 1 }
      (g.mapAct s.act (fun _ en => { en with walks := en.walks ++ [{ id := op.id, regs := en.iwShadow }] })).immediate s)

/-! ## Waits (R155, R156) -/

/-- The bundle begins to wait, or goes on waiting. -/
def Seq.startWait (q : Seq) (k : WaitKind) (now : Nat) : Seq :=
  { q with wait := match q.wait with
      | some w => some w
      | none => some (k, now) }

/-- BWAIT: a mask that names a faulted baton halts the gang (R331); else the seen batons are cleared unless kept. -/
def execBwait (d a : BitVec 6) (keep any : BitVec 1) (s : State) : Out :=
  slotGang s (fun g =>
    let m : BitVec 32 := (readS s (g.me s) a.toNat).setWidth 32
    match g.badBatons.find? (fun b => m.getLsbD b.baton) with
    | some b => if s.ctx.spare then g.raise s .splitMismatch 0 0 0 else { g with raised := g.raised ++ [b.record] }
    | none =>
      if s.ctx.spare then g.raise s .splitMismatch 0 0 0
      else
        let seen := g.batons &&& m
        if (any = 0 ∧ seen = m) ∨ (any = 1 ∧ (seen ≠ 0 ∨ m = 0)) then
          let g := if keep = 0 then { g with batons := g.batons &&& ~~~ seen } else g
          (g.writeS s 1 d.toNat (seen.setWidth 64)).modMe s (fun q => { q with wait := none })
        else g.modMe s (fun q => q.startWait .baton s.cycle))

/-- WAIT: bits set in this cycle are seen (R156), and they end set (R132). -/
def execWait (d : BitVec 6) (keep all : BitVec 1) (m : BitVec 4) (s : State) : Out :=
  slotGang s (fun g =>
    if s.ctx.spare then g.raise s .splitMismatch 0 0 0
    else
      let seen := g.events &&& m
      if (all = 0 ∧ seen ≠ 0) ∨ (all = 1 ∧ seen = m) then
        let g := if keep = 0 then g.clearEvent seen else g
        (g.writeS s 1 d.toNat (seen.setWidth 64)).modMe s (fun q => { q with wait := none })
      else g.modMe s (fun q => q.startWait .event s.cycle))

/-! ## SIGNAL and LAPSET (R158, R159) -/

/-- SIGNAL: events on their way to the named positions of the squad. -/
def signal (s : State) (ps : Gang → List Nat) : Out :=
  slotState s (fun g =>
    let sig (j : Nat) : PendingSignal :=
      { due := s.cycle + (if j = g.info.pos then 24 else if g.info.sameDie.getLsbD j then 60 else 140)
        who := (g.info.handle, g.info.squad, j), from_ := s.ctx.core, marks := g.marksOf s.act }
    let s' := s.modGang s.ctx.core (fun g => g.immediate s)
    { s' with signals := s'.signals ++ ((ps g).filter (fun j => j < g.info.ngang)).map sig })

/-- SIGNAL_SR (R158): Signals the squad positions set in s[A]. -/
def execSignalSr (a : BitVec 6) (s : State) : Out :=
  signal s (fun g => (below 32).filter (fun j => (readS s (g.me s) a.toNat).getLsbD j))
/-- SIGNAL_SI (R158): Signals one squad position. -/
def execSignalSi (p : BitVec 5) (s : State) : Out := signal s (fun _ => [p.toNat])
/-- SIGNAL_OTHERS (R158): Signals every squad position except the issuer's. -/
def execSignalOthers (s : State) : Out := signal s (fun g => (below 32).filter (fun j => j != g.info.pos))

/-- A signal may be delivered now. -/
def signalDue (s : State) (p : PendingSignal) : Bool := decide (p.due ≤ s.cycle) && gateOpen s p.from_ p.marks

/-- SIGNAL_DELIVERY: the SIGNAL event of the named gang is set. -/
def execSignalDelivery (s : State) : Out :=
  match s.signals.find? (signalDue s) with
  | none => .next s
  | some p => .next (({ s with signals := s.signals.erase p }).eventTo p.who 4#4)

/-- TIMER_EXPIRY: CR_TIMER has reached 0 by decrement (R132). -/
def execTimerExpiry (s : State) : Out :=
  slotGang s (fun g => if g.timerDue then { g.setEvent 8#4 with timerDue := false } else g)

/-- LAPSET: the gate is written and LAP cleared in one cycle; a lap match of that cycle has met the gate as it stood before.
(DESIGN CHOICE, log 70) -/
def lapset (s : State) (v : Gang → Mask) : Out := slotGang s (fun g => { g.clearEvent 1#4 with lapGate := v g })
/-- LAPSET_SR (R159): Writes CR_LAPGATE from s[A] and clears the LAP event. -/
def execLapsetSr (a : BitVec 6) (s : State) : Out := lapset s (fun g => (readS s (g.me s) a.toNat).setWidth 16)
/-- LAPSET_SI (R159): Writes CR_LAPGATE to a range of engines and clears the LAP event. -/
def execLapsetSi (h l : BitVec 4) (s : State) : Out := lapset s (fun _ => engRange l.toNat h.toNat)

/-! ## Barriers (R32, R73, R160) -/

/-- Barriers a gang has arrived at, by level. -/
def Gang.arrived (g : Gang) (level : Nat) : Nat := g.arrivals.getD level 0

/-- The resident gangs of a gang's squad. -/
def squadMates (s : State) (g : Gang) : List Gang :=
  (below 72).filterMap (fun c => match s.gang c with
    | some h => if h.info.handle = g.info.handle ∧ h.info.squad = g.info.squad then some h else none
    | none => none)

/-- The barrier that a gang has arrived at is open: at die level when every gang of its die has arrived as often; at package level
when the gang's own die has met its die phase and every gang of the other dies has arrived, 140 cycles after the last arrival, but
for a squad on one die (R32, R160). -/
def barrierOpens (s : State) (g : Gang) (level : Nat) : Bool :=
  let mates := squadMates s g
  let die := mates.filter (fun h => g.info.sameDie.getLsbD h.info.pos)
  let n := g.arrived level
  if level = 0 then true
  else if level = 1 ∨ g.info.ndie = 1 then
    (maskOf32 g.info.sameDie).all (fun j => die.any (fun h => h.info.pos == j && decide (g.arrived 1 ≤ h.arrived 1)))
  else
    (below g.info.ngang).all (fun j => mates.any (fun h => h.info.pos == j &&
      (if g.info.sameDie.getLsbD j then decide (g.arrived 1 ≤ h.arrived 1) else decide (n ≤ h.arrived 2)))) &&
    (mates.any (fun h => decide (n < h.arrived 2)) ||
     (let last := mates.foldl (fun m h => max m h.arriveAt) 0
      decide (last + 140 + Config.contention last (freeTag 40 g.info.handle 0 g.info.squad) ≤ s.cycle)))
where
  /-- The positions of a set. -/
  maskOf32 (m : BitVec 32) : List Nat := (below 32).filter (fun j => m.getLsbD j)

/-- A gang arrives at a barrier: at package level it also arrives at its die's (R160). -/
def Gang.arrive (g : Gang) (level now : Nat) : Gang :=
  { g with arrivals := [g.arrived 0 + 1, if 1 ≤ level then g.arrived 1 + 1 else g.arrived 1, if level = 2 then g.arrived 2 + 1 else g.arrived 2]
           arriveAt := if level = 2 then now else g.arriveAt }

/-- BAR: the gang arrives once; when the barrier opens, the bundle commits with a FENCE.ar for every live engine. -/
def execBar (l : BitVec 6) (s : State) : Out :=
  slotState s (fun g =>
    if g.split then s.putGang s.ctx.core (g.raise s .splitMismatch 0 0 0)
    else
      let g := if (g.me s).arrived then g
        else (g.arrive l.toNat s.cycle).modMe s (fun q => { q with arrived := true })
      let s := s.putGang s.ctx.core g
      if barrierOpens s g l.toNat then
        s.putGang s.ctx.core ((g.mapAct g.live (fun _ en => en.mark 2 l.toNat (g.arrived l.toNat))).modMe s (fun q => { q with wait := none }))
      else s.putGang s.ctx.core (g.modMe s (fun q => q.startWait .barrier s.cycle)))

/-! ## SYS LAUNCH and SYS CANCEL (R164) -/

/-- SYS LAUNCH: the checks of R164, then the submission is on its way for 60 cycles (R376). -/
def execSysLaunch (a b : BitVec 6) (s : State) : Out :=
  slotState s (fun g =>
    let x := readS s (g.me s) a.toNat
    let q := (readS s (g.me s) b.toNat).toNat
    let raise (code : GFault) (detail : Nat) (va : Word) : State := s.putGang s.ctx.core (g.raise s code 0 detail va)
    if q < 32 ∨ 63 < q then raise .illegalEncoding 0x500 0
    else if tagOf x ≠ 0 ∨ x.extractLsb' 48 12 ≠ 0 then raise .page 1 x
    else if x.toNat % 256 ≠ 0 then raise .alignment 0 x
    else
      let s' := s.modGang s.ctx.core (fun g => g.immediate s)
      { s' with sched := { s'.sched with coming := s'.sched.coming ++
          [{ due := s.cycle + 60, marks := g.marksOf s.act
             sub := { queue := q, addr := x, asid := g.info.asid, core := s.ctx.core, spare := s.ctx.spare } }] } })

/-- SYS CANCEL: on its way by the same path. A gang that cancels its own task issues no later bundle (R382). -/
def execSysCancel (a : BitVec 6) (s : State) : Out :=
  slotState s (fun g =>
    let handle := (readS s (g.me s) a.toNat).toNat % 2 ^ 32
    let s' := s.modGang s.ctx.core (fun g =>
      { g.immediate s with selfCancelled := g.selfCancelled || handle == g.info.handle })
    { s' with sched := { s'.sched with cancels := s'.sched.cancels ++
        [{ due := s.cycle + 60, handle, asid := g.info.asid, core := s.ctx.core
           marks := g.marksOf s.act }] } })

end Sys2Proof.Machine
end

