-- ==== Sys2Proof/Machine/Copy.lean ====
section
/-! DEFINITION. The copy engines (R315-R323, R331): chunks, their checks and timing, landing and counting, completion and faults; and
the start of engine operations of every unit (R154). (DESIGN CHOICE, log 10) -/
namespace Sys2Proof.Machine

/-! ## Where a copy's addresses lead (R319) -/

/-- The place of one element. -/
inductive CopySpot where
  | scr (core engine off cls : Nat)
  | ceil (engine off : Nat)
  | pa (pa : Nat)
  deriving DecidableEq, Repr

/-- The fault of an address check, with reason 6 for a breach of the address format (R358). -/
def routeFault (f : GFault × Nat) : PieceFault := (f.1, f.2, if f.1 = .page ∧ f.2 = 1 then 6 else 0, 0)

/-- An element's address is checked and translated through the copy engine's translation cache, first by leaves pins that an
invalidation has removed since its lookup (R368): its place, or the code, DETAIL bits 1:0, reason and level of its fault. -/
def copySpot (s : State) (core unit : Nat) (g : Gang) (eng : Nat) (a : Word) (n : Nat) (wr : Bool) (pins : List TcEntry := []) :
    State × Except PieceFault CopySpot :=
  if tagOf a = 5 then (s, .error (.page, 2, 0, 0))
  else if tagOf a = 4 then
    let off := (a.extractLsb' 0 22).toNat
    let e := (a.extractLsb' 24 4).toNat
    if a.extractLsb' 28 32 ≠ 0 ∨ a.extractLsb' 22 2 ≠ 0 ∨ !inMask g.live e ∨ g.info.ceilSize < off + n then (s, .error (.scratchRange, 0, 0, 0))
    else if a.toNat % n ≠ 0 then (s, .error (.alignment, 0, 0, 0))
    else if !wr && s.sramPoisoned core e ceilSector off n then (s, .error (.poison, 0, 0, 0))
    else (s, .ok (.ceil e off))
  else
    match routeOf s core g eng .all a n n with
    | .error f => (s, .error (routeFault f))
    | .ok (.scr c e off cls) => if !wr && s.sramPoisoned c e 0 off n then (s, .error (.poison, 0, 0, 0)) else (s, .ok (.scr c e off cls))
    | .ok (.va va) =>
      match s.translatePinned pins (72 + 2 * core + unit) g.info.asid va (!wr) wr with
      | (s, .error f) => (s, .error (f.code, 0, f.reason, f.level))
      | (s, .ok pa) =>
        if !wr && (s.poisoned pa n || s.deadDie (dieOf core)) then (s, .error (.poison, 0, 0, 0)) else (s, .ok (.pa pa))

/-- The bytes at a place, as a copy engine of a core reads them. -/
def copyRead (s : State) (core : Nat) (n : Nat) : CopySpot → State × Nat
  | .scr c e off _ => (s, loadBytes (s.scratch c e) off n)
  | .ceil e off => (s, match s.gang core with
      | some g => loadBytes (g.eng e).ceil off n
      | none => 0)
  | .pa pa =>
    let s := s.fill (dieOf core) (pa / 128)
    (s, s.dieBytes (dieOf core) pa n)

/-- Bytes written at a place; a line of the die cache is noted for the releases of the gang (R322). -/
def copyWrite (s : State) (core n v : Nat) : CopySpot → State
  | .scr c e off _ => s.modScratch c e (fun m => storeBytes m off (someBytes n v))
  | .ceil e off => s.modGang core (fun g => g.modEng e (fun en => { en with ceil := storeBytes en.ceil off (someBytes n v) }))
  | .pa pa =>
    (s.dieStores (dieOf core) pa (someBytes n v)).modGang core (fun g => { g with copied := (g.copied ++ [pa / 128]).eraseDups })

/-! ## Chunks (R318-R321) -/

/-- An element in the destination type (R318). -/
def UnitOp.convert (o : UnitOp) (x : Nat) : Nat :=
  if o.sType = o.dType then x
  else (cvt x (typeOf o.sType) (typeOf o.dType) (rmode (BitVec.ofNat 3 (bitsOf (o.reg 5) 6 3))) ((o.reg 5).getLsbD 9)).1

/-- The fault of an operation: code, address, DETAIL bits 2:0 (bit 2: a destination or lap-word fault), reason and level. -/
def opFaultOf (f : PieceFault) (a : Word) (dst : Bool) : MemFault :=
  { code := f.1, vaddr := a, lanes := 0, detail := f.2.1 % 4 + (if dst then 4 else 0), reason := f.2.2.1, level := f.2.2.2 }

/-! ### Bytes that an operation both reads and writes (R323) -/

/-- A byte's place. -/
abbrev Place := Nat × Nat × Nat × Nat

/-- Where a byte lies, by kind of memory: global (0) by physical address, a scratchpad (1) or a ceiling store (2) by squad position, engine and
offset; a byte that no table maps lies nowhere (3). -/
def copyPlace (s : State) (core unit : Nat) (g : Gang) (eng : Nat) (a : Word) : Place :=
  let off := (a.extractLsb' 0 22).toNat
  let e := (a.extractLsb' 24 4).toNat
  match tagOf a with
  | 0 => (match peekPa s (72 + 2 * core + unit) g.info.asid (a.toNat % 2 ^ 48) false false with
    | some pa => (0, 0, 0, pa)
    | none => (3, 0, 0, a.toNat % 2 ^ 48))
  | 1 => (1, g.info.pos, eng, off)
  | 2 => (1, g.info.pos, e, off)
  | 3 => (1, (a.extractLsb' 28 5).toNat, e, off)
  | _ => (2, g.info.pos, e, off)

/-- The place of byte j past a place. -/
def placeAfter (p : Place) (j : Nat) : Place := (p.1, p.2.1, p.2.2.1, p.2.2.2 + j)

/-- The kind of memory of a space tag. -/
def kindOf (a : Word) : Nat := if tagOf a = 0 then 0 else if tagOf a < 4 then 1 else 2

/-- Every byte that the operation reads, as stretches of consecutive places; none where its destination is another kind of memory. -/
def UnitOp.sources (o : UnitOp) (s : State) (core unit : Nat) (g : Gang) : List (Place × Nat) :=
  if kindOf (o.reg 0) ≠ kindOf (o.reg 1) then []
  else (below (o.n1 * o.n2)).flatMap (fun r =>
    let a := ({ o with chunk := 65536 * r } : UnitOp).srcAddr 0
    let n := o.n0 * typeBytes o.sType
    (if tagOf a = 0 then partsBy 65536 (a.toNat % 2 ^ 48) n else [(0, n)]).map (fun p =>
      (copyPlace s core unit g o.engine (addrAdd a (BitVec.ofNat 64 p.1)), p.2)))

/-- A place lies in one of some stretches. -/
def inStretch (l : List (Place × Nat)) (p : Place) : Bool :=
  l.any (fun q => q.1.1 == p.1 && q.1.2.1 == p.2.1 && q.1.2.2.1 == p.2.2.1 && decide (q.1.2.2.2 ≤ p.2.2.2) && decide (p.2.2.2 < q.1.2.2.2 + q.2))

/-- The operation reads the byte at a place as a source byte. -/
def UnitOp.reads (o : UnitOp) (s : State) (core unit : Nat) (g : Gang) (p : Place) : Bool := inStretch (o.sources s core unit g) p

/-- The byte at a place before the operation overwrote it, if it was a source byte and has been overwritten. -/
def UnitOp.keptAt (o : UnitOp) (p : Place) : Option Byte := (o.kept.find? (fun x => x.1 == p)).map (·.2)

/-- The value of a source element, with the bytes that the operation has overwritten as they were before. (DEDUCED, log 18) -/
def UnitOp.asBefore (o : UnitOp) (s : State) (core unit : Nat) (g : Gang) (a : Word) (n v : Nat) : Nat :=
  if o.kept.isEmpty then v
  else bytesVal ((below n).map (fun j => match o.keptAt (placeAfter (copyPlace s core unit g o.engine a) j) with
    | some b => b
    | none => BitVec.ofNat 8 (v / 2 ^ (8 * j))))

/-- The source elements of a chunk, read in order; the first that fails its checks is the fault. An element of a line that the copy engine
held when it acknowledged an invalidation is read from there (R368). -/
def readChunk (s : State) (core unit : Nat) (g : Gang) (o : UnitOp) : List Nat → State × Except MemFault (List Nat)
  | [] => (s, .ok [])
  | i :: t =>
    let a := o.srcAddr i
    let n := typeBytes o.sType
    let pins := o.pinsAt (o.lineOf i)
    match copySpot s core unit g o.engine a n false pins with
    | (s, .error f) => (s, .error (opFaultOf f a false))
    | (s, .ok sp) =>
      let x : State × Nat := match sp with
        | .pa pa => (match if pins.isEmpty then none else kfind o.caught (pa / 128) with
          | some d => (s, d.toNat / 2 ^ (8 * (pa % 128)) % 2 ^ (8 * n))
          | none => copyRead s core n sp)
        | _ => copyRead s core n sp
      match readChunk x.1 core unit g o t with
      | (s, .error f) => (s, .error f)
      | (s, .ok l) => (s, .ok (o.asBefore s core unit g a n ((ringFree s g.info.asid (freeTag 46 core unit (i % 4096)) a n).getD x.2) :: l))

/-- The places of a chunk's elements in one destination. -/
def destChunk (s : State) (core unit : Nat) (g : Gang) (o : UnitOp) (base : Word) : List Nat → State × Except MemFault (List CopySpot)
  | [] => (s, .ok [])
  | i :: t =>
    let a := o.dstAddr base i
    match copySpot s core unit g o.engine a (typeBytes o.dType) true with
    | (s, .error f) => (s, .error (opFaultOf f a true))
    | (s, .ok sp) =>
      match destChunk s core unit g o base t with
      | (s, .error f) => (s, .error f)
      | (s, .ok l) => (s, .ok (sp :: l))

/-- The places of a chunk in every destination. -/
def destChunks (s : State) (core unit : Nat) (g : Gang) (o : UnitOp) (els : List Nat) :
    List Word → State × Except MemFault (List (List CopySpot))
  | [] => (s, .ok [])
  | b :: t =>
    match destChunk s core unit g o b els with
    | (s, .error f) => (s, .error f)
    | (s, .ok l) =>
      match destChunks s core unit g o els t with
      | (s, .error f) => (s, .error f)
      | (s, .ok ls) => (s, .ok (l :: ls))

/-- The lap word of an operation, checked (R319); none without LAPEN. -/
def lapSpot (s : State) (core : Nat) (g : Gang) (o : UnitOp) : Except MemFault (Option (Nat × Nat × Nat)) :=
  let a := o.reg 6
  if !o.lapEn then .ok none
  else if 6 ≤ tagOf a then .error (opFaultOf (.page, 2, 6, 0) a true)
  else if tagOf a = 0 ∨ 4 ≤ tagOf a then .error (opFaultOf (.page, 2, 0, 0) a true)
  else match routeOf s core g o.engine .scratchOnly a 16 16 with
    | .error f => .error (opFaultOf (routeFault f) a true)
    | .ok (.scr c e off _) => .ok (some (c, e, off))
    | .ok (.va _) => .error (opFaultOf (.page, 2, 0, 0) a true)

/-- A destination element as it is written: a byte that the operation also reads, among its sources, is a free value (R323).
(DEDUCED, log 18) -/
def UnitOp.spoil (o : UnitOp) (s : State) (core unit : Nat) (g : Gang) (srcs : List (Place × Nat)) (a : Word) (i v : Nat) : Nat :=
  let n := typeBytes o.dType
  let p := copyPlace s core unit g o.engine a
  let hit := if srcs.isEmpty then [] else (below n).filter (fun j => inStretch srcs (placeAfter p j))
  if hit.isEmpty then v
  else
    let free := (Config.freeVec s.free (freeTag 44 core unit (i % 4096))).toNat
    bytesVal ((below n).map (fun j => BitVec.ofNat 8 ((if hit.contains j then free else v) / 2 ^ (8 * j))))

/-- The source bytes among those of a destination element, as they stand before it is written. -/
def UnitOp.keeps (o : UnitOp) (s : State) (core unit : Nat) (g : Gang) (srcs : List (Place × Nat)) (a : Word) (sp : CopySpot) :
    List (Place × Byte) :=
  let n := typeBytes o.dType
  let p := copyPlace s core unit g o.engine a
  let hit := if srcs.isEmpty then [] else (below n).filter (fun j => inStretch srcs (placeAfter p j) && (o.keptAt (placeAfter p j)).isNone)
  if hit.isEmpty then []
  else
    let old := (copyRead s core n sp).2
    hit.map (fun j => (placeAfter p j, BitVec.ofNat 8 (old / 2 ^ (8 * j))))

/-- A copy's bytes meet a fenced unit: the sectors that they would reach are poisoned (R407). (DEDUCED, log 46) -/
def CopySpot.hurt (s : State) (core n : Nat) (spot : CopySpot) : State :=
  let sram (c e base off : Nat) : State := s.modGang c (fun g => g.modEng e (fun en =>
    { en with poison := (sectorsOf [(off, List.replicate n 0)]).foldl (fun p k => sput 0 p (base + k) 1) en.poison }))
  match spot with
  | .pa a => (sectorsOf [(a, List.replicate n 0)]).foldl State.hurt s
  | .scr c e off _ => sram c e 0 off
  | .ceil e off => sram core e ceilSector off

/-- A place of a copy's bytes is at a fenced unit, or its way there is. -/
def CopySpot.dead (s : State) (core : Nat) : CopySpot → Bool
  | .pa _ => s.deadDie (dieOf core)
  | .scr c e _ _ => s.deadSram c e
  | .ceil e _ => s.deadSram core e

/-- Written elements of one destination, and whole sectors healed (R194, R319). -/
def writeChunk (s : State) (core n : Nat) (spots : List CopySpot) (vals : List Nat) : State :=
  if spots.any (·.dead s core) then spots.foldl (fun s p => p.hurt s core n) s
  else
  let s := (spots.zip vals).foldl (fun s p => copyWrite s core n p.2 p.1) s
  match spots with
  | .pa pa :: _ => s.heal pa (n * spots.length)
  | .scr c e off _ :: _ => s.healSram c e 0 off (n * spots.length)
  | .ceil e off :: _ => s.healSram core e ceilSector off (n * spots.length)
  | [] => s

/-- The scratchpad units under n bytes from an address, and whose they are. -/
def bankUnits (s : State) (core : Nat) (g : Gang) (eng : Nat) (a : Word) (n : Nat) : Option (Nat × Nat × List Nat) :=
  match routeOf s core g eng .all a n 1 with
  | .ok (.scr c e off _) => some (c, e, unitsOf off n)
  | _ => none

/-- The scratchpad units that the next chunk reads and writes (R177). -/
def UnitOp.chunkUnits (o : UnitOp) (s : State) (core : Nat) (g : Gang) : List (Nat × Nat × List Nat) :=
  ((bankUnits s core g o.engine (o.srcAddr o.elem) (o.chunkLen * typeBytes o.sType)).toList) ++
  (o.dests g).filterMap (fun b => bankUnits s core g o.engine (o.dstAddr b o.elem) (o.chunkLen * typeBytes o.dType))

/-- The next chunk of an operation in full: the state in which it has landed everywhere and been counted, with the operation's kept
bytes, or its fault. (DEDUCED, log 18) -/
def landChunk (s : State) (core unit : Nat) (g : Gang) (o : UnitOp) :
    State × Except MemFault (List (Place × Byte)) :=
  let els := upFrom o.elem o.chunkLen
  match readChunk s core unit g o els with
  | (s, .error f) => (s, .error f)
  | (s, .ok xs) =>
    match destChunks s core unit g o els (o.dests g), lapSpot s core g o with
    | (s, .error f), _ => (s, .error f)
    | (s, .ok _), .error f => (s, .error f)
    | (s, .ok ds), .ok lap =>
      let out := (o.dests g).zip ds
      let srcs := o.sources s core unit g
      let kept := out.flatMap (fun d => (els.zip d.2).flatMap (fun x => o.keeps s core unit g srcs (o.dstAddr d.1 x.1) x.2))
      let s := (o.chunkUnits s core g).foldl (fun s u => s.bankTake u.1 u.2.1 u.2.2) s
      let s := out.foldl (fun s d => writeChunk s core (typeBytes o.dType) d.2
        ((els.zip xs).map (fun x => o.spoil s core unit g srcs (o.dstAddr d.1 x.1) x.1 (o.convert x.2)))) s
      (match lap with
       | some (c, e, off) => s.lapCount c e off (o.chunkLen * typeBytes o.dType)
       | none => s, .ok kept)

/-- Pw: from the data to the landing, with a miss of the copy engine's translation cache (R320, R362). -/
def dstTime (s : State) (core unit : Nat) (g : Gang) (a : Word) : Nat :=
  let pos := (a.extractLsb' 28 5).toNat
  match tagOf a with
  | 0 => 96 + s.missCost (72 + 2 * core + unit) g.info.asid (a.toNat % 2 ^ 48)
  | 3 => classCost (if pos = g.info.pos then 1 else if g.info.sameDie.getLsbD pos then 2 else 3)
  | _ => 4

/-- A source address's lookup fails: the chunk's fault is known with it. -/
def srcFails (s : State) (core unit : Nat) (g : Gang) (pins : List TcEntry) (a : Word) : Bool :=
  tagOf a == 0 && (tcFind pins g.info.asid (a.toNat % 2 ^ 48)).isNone &&
    (peekLine s (72 + 2 * core + unit) g.info.asid (a.toNat % 2 ^ 48) true false).isNone

/-- The cycle in which the next chunk of a started operation lands or fails (R320), contention included. -/
def UnitOp.landAt (o : UnitOp) (s : State) (core unit : Nat) (g : Gang) : Nat :=
  let start := o.started.getD 0
  let i := o.elem + o.chunkLen - 1
  let last := start + 4 + o.lines + o.chunkLines - 1
  let a := o.srcAddr i
  let pins := o.pinsAt (o.lineOf i)
  max (o.lastLand + 1) (last + srcTime s core unit g pins a +
    (if srcFails s core unit g pins a then 0 else dstTime s core unit g (o.dstAddr (o.reg 1) o.elem)) +
    Config.contention start (freeTag 41 core unit (o.chunk % 4096)))

/-- The next chunk waits for a release of one of its pages under way (R367). -/
def UnitOp.waitsRelease (o : UnitOp) (s : State) (g : Gang) : Bool :=
  let held (a : Word) : Bool := tagOf a == 0 && s.releasing g.info.asid (a.toNat % 2 ^ 48)
  (upFrom o.elem o.chunkLen).any (fun i =>
    (held (o.srcAddr i) && (tcFind (o.pinsAt (o.lineOf i)) g.info.asid ((o.srcAddr i).toNat % 2 ^ 48)).isNone) ||
    held (o.dstAddr (o.reg 1) i))

/-! ## Batons (R154, R331) -/

/-- A produced baton is set; a produced baton becomes faulted. -/
def Gang.setBaton (g : Gang) (b : Nat) : Gang := { g with batons := g.batons ||| (1#32 <<< b) }
def Gang.badBaton (g : Gang) (f : FaultedBaton) : Gang :=
  { g with badBatons := g.badBatons.filter (fun b => b.baton != f.baton) ++ [f] }

/-- The fault that a baton carries: DETAIL names the ENGGO's opcode and the baton (R331). -/
def faultedBaton (opcode baton : Nat) (f : MemFault) : FaultedBaton :=
  { baton, code := f.code, vaddr := f.vaddr, detail := 256 * opcode + 8 * baton + f.detail % 8, reason := f.reason, level := f.level }

/-- The bundle at the primary's PC is a restart point: a pre-emption may stop the gang there, so units hold at their stop points
(R333). -/
def holdsUnits (g : Gang) : Bool :=
  g.preemptReq && (match g.code.getD g.prim.pc 0xFFFF#16 with
    | w => if w = escapeWord then (literalBits (g.code.drop (g.prim.pc + 1))).getLsbD 383
           else (g.dict.getD w.toNat 0).getLsbD 383)

/-- The chunk of the running operation of a copy engine is due. -/
def chunkReady (s : State) (core unit : Nat) : Bool :=
  match s.gang core with
  | none => false
  | some g =>
    match (g.unit unit).queue with
    | o :: _ =>
      o.started.isSome && o.fault.isNone && !o.allLanded && !(holdsUnits g && o.elem == 0) &&
        g.st != .preempted && g.st != .cancelled && decide (o.landAt s core unit g ≤ s.cycle) &&
        !o.waitsRelease s g && (o.chunkUnits s core g).all (fun u => s.banksFree u.1 u.2.1 u.2.2 && unitMayTake s u.1 u.2.1 u.2.2)
    | [] => false

/-- The due chunk of a copy engine, tried. (DEDUCED, log 18) -/
def tryChunk (s : State) (core unit : Nat) :
    Option (UnitOp × (State × Except MemFault (List ((Nat × Nat × Nat × Nat) × Byte)))) :=
  match s.gang core with
  | none => none
  | some g =>
    match (g.unit unit).queue with
    | o :: _ => if chunkReady s core unit then some (o, landChunk s core unit g o) else none
    | [] => none

/-- g with the running operation of a unit changed. -/
def Gang.modHead (g : Gang) (unit : Nat) (f : UnitOp → UnitOp) : Gang :=
  g.modUnit unit (fun u => { u with queue := match u.queue with
    | o :: t => f o :: t
    | [] => [] })

/-- COPY_CHUNK_LAND: the due chunk of the named unit lands and is counted. (DEDUCED, log 18) -/
def execCopyChunkLand (s : State) : Out :=
  match tryChunk s s.ctx.core s.ctx.unit with
  | some (_, (t, .ok kept)) =>
    .next (t.modGang s.ctx.core (fun g => g.modHead s.ctx.unit (fun o => { o.advance s.cycle with kept := o.kept ++ kept })))
  | _ => .next s

/-- COPY_CHUNK_FAULT: the due chunk fails its checks; the operation stops and its baton becomes faulted (R331). -/
def execCopyChunkFault (s : State) : Out :=
  match tryChunk s s.ctx.core s.ctx.unit with
  | some (o, (t, .error f)) =>
    .next (t.modGang s.ctx.core (fun g =>
      (g.modHead s.ctx.unit (fun o => { o with fault := some f })).badBaton (faultedBaton o.opcode o.baton f)))
  | _ => .next s

/-- The running operation of a copy engine has landed its last chunk, a cycle ago. -/
def copyDone (s : State) (core unit : Nat) : Bool :=
  match s.gang core with
  | none => false
  | some g =>
    match (g.unit unit).queue with
    | o :: _ => o.started.isSome && o.fault.isNone && o.allLanded && decide (o.lastLand + 1 ≤ s.cycle)
    | [] => false

/-- COPY_COMPLETE: the produced baton is set. -/
def execCopyComplete (s : State) : Out :=
  if !copyDone s s.ctx.core s.ctx.unit then .next s
  else slotGang s (fun g =>
    match (g.unit s.ctx.unit).queue with
    | o :: _ => (g.modUnit s.ctx.unit (fun u => { u with queue := u.queue.drop 1 })).setBaton o.baton
    | [] => g)

/-! ## Starting (R154) -/

/-- The batons of an operation are all set. -/
def batonsSet (g : Gang) (l : List Nat) : Bool := l.all (fun b => g.batons.getLsbD b)
/-- Batons cleared. -/
def Gang.clearBatons (g : Gang) (l : List Nat) : Gang :=
  { g with batons := l.foldl (fun m b => m &&& ~~~ (1#32 <<< b)) g.batons }
/-- A faulted baton among those an operation would consume. -/
def badAmong (g : Gang) (l : List Nat) : Option FaultedBaton := g.badBatons.find? (fun f => l.contains f.baton)

/-- The memory fault that a faulted baton hands on. -/
def FaultedBaton.mem (f : FaultedBaton) : MemFault := { code := f.code, vaddr := f.vaddr, lanes := 0, detail := f.detail, reason := f.reason, level := f.level }

/-- The walkers of an ENGGO.IW stand at the heads of their engines' queues. -/
def walksHead (g : Gang) (o : IwOp) : Bool :=
  (maskList o.engines).all (fun k => match (g.eng k).walks with
    | w :: _ => w.id == o.id
    | [] => false)

/-- What a unit's next operation may do now: nothing, start, or become faulted by a baton. -/
inductive StartKind where
  | no | start | bad (f : FaultedBaton)
  deriving DecidableEq, Repr

/-- Whether an operation waiting at the head of a queue starts (R153, R154, R331). -/
def startOf (s : State) (core : Nat) (g : Gang) (issued : Nat) (marks : List (Nat × Nat)) (consumes : List Nat) : StartKind :=
  match badAmong g consumes with
  | some f => .bad f
  | none => if decide (issued < s.cycle) && batonsSet g consumes && gateOpen s core marks then .start else .no

/-- The first ENGGO.IW that may start, or becomes faulted: its walkers stand at the heads of their engines' queues, and one that waits for a
baton holds up none on other engines (R154, R315). -/
def iwNextStart (s : State) (core : Nat) (g : Gang) : Option (IwOp × StartKind) :=
  g.iwOps.findSome? (fun o =>
    if o.started.isNone && o.fault.isNone && walksHead g o then
      (match startOf s core g o.issued o.marks o.consumes with
       | .no => none
       | k => some (o, k))
    else none)

/-- What the port's next operation reads, when it starts, waits for a release under way (R367). -/
def portReadWaits (s : State) (g : Gang) (o : UnitOp) : Bool :=
  s.invs.any (fun v => v.release.isSome && v.asid == g.info.asid && decide (v.arrives ≤ s.cycle)) && tagOf (o.reg 0) == 0

/-- The next operation of a unit: 0 CP0, 1 CP1, 2 the index walkers, 3 CL. (DEDUCED, log 25) -/
def startKind (s : State) (core unit : Nat) : StartKind :=
  match s.gang core with
  | none => .no
  | some g =>
    if g.st = .preempted ∨ g.st = .cancelled ∨ g.st = .exited ∨ holdsUnits g then .no
    else if unit = 2 then
      ((iwNextStart s core g).map (·.2)).getD .no
    else
      match (g.unit unit).queue with
      | o :: _ =>
        if o.started.isSome || o.fault.isSome || (unit == 3 && portReadWaits s g o) then .no
        else startOf s core g o.issued o.marks o.consumes
      | [] => .no

end Sys2Proof.Machine
end

