-- ==== Sys2Proof/Machine/Scalar.lean ====
section
/-! DEFINITION. Scalar arithmetic and constants (R133, R134): one meaning per form over aluOp. -/
namespace Sys2Proof.Machine

/-- sext(IMM12, 12) (R133). -/
def imm12 (i : BitVec 12) : Word := i.signExtend 64

/-- div of R133: truncated; y = 0 gives all ones; the signed overflow gives −2⁶³. -/
def divOp (u : Bool) (x y : Word) : Word :=
  if y = 0 then BitVec.allOnes 64 else if u then x / y else x.sdiv y

/-- rem of R133: x − y·div(x, y); y = 0 gives x. -/
def remOp (u : Bool) (x y : Word) : Word :=
  if y = 0 then x else if u then x % y else x.srem y

/-- mulh of R133: the high 64 bits of the 128-bit product. -/
def mulhOp (u : Bool) (x y : Word) : Word :=
  if u then ((x.setWidth 128 * y.setWidth 128) >>> 64).setWidth 64
  else ((x.signExtend 128 * y.signExtend 128) >>> 64).setWidth 64

/-- min and max of R133. -/
def minOp (u : Bool) (x y : Word) : Word := if u then (if y.ult x then y else x) else (if y.slt x then y else x)
def maxOp (u : Bool) (x y : Word) : Word := if u then (if x.ult y then y else x) else (if x.slt y then y else x)

/-- The amount of a scalar shift or rotate: y[5:0]. -/
def shAmt (y : Word) : Nat := y.toNat % 64

/-- ext of R133: the field of len bits at pos, bits past 63 reading 0, extended. -/
def extOp (signed : Bool) (x : Word) (pos len : Nat) : Word :=
  let field := x.toNat / 2 ^ pos % 2 ^ len
  if signed then BitVec.ofInt 64 (sextN field len) else BitVec.ofNat 64 field

/-- Leading zeros of the low n bits; n for 0. -/
def clzN (x n : Nat) : Nat := if x % 2 ^ n = 0 then n else n - 1 - Nat.log2 (x % 2 ^ n)
/-- Trailing zeros of the low n bits; n for 0. -/
def ctzN (x n : Nat) : Nat := ((below n).find? (fun i => x.testBit i)).getD n
/-- Set bits of the low n bits. -/
def popcN (x n : Nat) : Nat := ((below n).filter (fun i => x.testBit i)).length
/-- The low n bits in reverse order. -/
def brevN (x n : Nat) : Nat := (below n).foldl (fun acc i => if x.testBit i then acc + 2 ^ (n - 1 - i) else acc) 0


/-- ADD on two registers (R133). -/
def execAddSr (e : BitVec 1) (d a b : BitVec 6) (s : State) : Out :=
  aluOp s e d 1 (fun r => (r a) + (r b))

/-- ADD with an immediate (R133). -/
def execAddSi (e : BitVec 1) (d a : BitVec 6) (i : BitVec 12) (s : State) : Out :=
  aluOp s e d 1 (fun r => (r a) + (imm12 i))

/-- SUB on two registers (R133). -/
def execSubSr (e : BitVec 1) (d a b : BitVec 6) (s : State) : Out :=
  aluOp s e d 1 (fun r => (r a) - (r b))

/-- SUB with an immediate (R133). -/
def execSubSi (e : BitVec 1) (d a : BitVec 6) (i : BitVec 12) (s : State) : Out :=
  aluOp s e d 1 (fun r => (r a) - (imm12 i))

/-- MUL on two registers (R133). -/
def execMulSr (e : BitVec 1) (d a b : BitVec 6) (s : State) : Out :=
  aluOp s e d 3 (fun r => (r a) * (r b))

/-- MUL with an immediate (R133). -/
def execMulSi (e : BitVec 1) (d a : BitVec 6) (i : BitVec 12) (s : State) : Out :=
  aluOp s e d 3 (fun r => (r a) * (imm12 i))

/-- AND on two registers (R133). -/
def execAndSr (e : BitVec 1) (d a b : BitVec 6) (s : State) : Out :=
  aluOp s e d 1 (fun r => (r a) &&& (r b))

/-- AND with an immediate (R133). -/
def execAndSi (e : BitVec 1) (d a : BitVec 6) (i : BitVec 12) (s : State) : Out :=
  aluOp s e d 1 (fun r => (r a) &&& (imm12 i))

/-- OR on two registers (R133). -/
def execOrSr (e : BitVec 1) (d a b : BitVec 6) (s : State) : Out :=
  aluOp s e d 1 (fun r => (r a) ||| (r b))

/-- OR with an immediate (R133). -/
def execOrSi (e : BitVec 1) (d a : BitVec 6) (i : BitVec 12) (s : State) : Out :=
  aluOp s e d 1 (fun r => (r a) ||| (imm12 i))

/-- XOR on two registers (R133). -/
def execXorSr (e : BitVec 1) (d a b : BitVec 6) (s : State) : Out :=
  aluOp s e d 1 (fun r => (r a) ^^^ (r b))

/-- XOR with an immediate (R133). -/
def execXorSi (e : BitVec 1) (d a : BitVec 6) (i : BitVec 12) (s : State) : Out :=
  aluOp s e d 1 (fun r => (r a) ^^^ (imm12 i))

/-- ANDN on two registers (R133). -/
def execAndnSr (e : BitVec 1) (d a b : BitVec 6) (s : State) : Out :=
  aluOp s e d 1 (fun r => (r a) &&& ~~~ (r b))

/-- ANDN with an immediate (R133). -/
def execAndnSi (e : BitVec 1) (d a : BitVec 6) (i : BitVec 12) (s : State) : Out :=
  aluOp s e d 1 (fun r => (r a) &&& ~~~ (imm12 i))

/-- SHL on two registers (R133). -/
def execShlSr (e : BitVec 1) (d a b : BitVec 6) (s : State) : Out :=
  aluOp s e d 1 (fun r => (r a) <<< shAmt (r b))

/-- SHL with an immediate (R133). -/
def execShlSi (e : BitVec 1) (d a : BitVec 6) (i : BitVec 12) (s : State) : Out :=
  aluOp s e d 1 (fun r => (r a) <<< shAmt (imm12 i))

/-- SHR on two registers (R133). -/
def execShrSr (e : BitVec 1) (d a b : BitVec 6) (s : State) : Out :=
  aluOp s e d 1 (fun r => (r a) >>> shAmt (r b))

/-- SHR with an immediate (R133). -/
def execShrSi (e : BitVec 1) (d a : BitVec 6) (i : BitVec 12) (s : State) : Out :=
  aluOp s e d 1 (fun r => (r a) >>> shAmt (imm12 i))

/-- SRA on two registers (R133). -/
def execSraSr (e : BitVec 1) (d a b : BitVec 6) (s : State) : Out :=
  aluOp s e d 1 (fun r => (r a).sshiftRight (shAmt (r b)))

/-- SRA with an immediate (R133). -/
def execSraSi (e : BitVec 1) (d a : BitVec 6) (i : BitVec 12) (s : State) : Out :=
  aluOp s e d 1 (fun r => (r a).sshiftRight (shAmt (imm12 i)))

/-- ROL on two registers (R133). -/
def execRolSr (e : BitVec 1) (d a b : BitVec 6) (s : State) : Out :=
  aluOp s e d 1 (fun r => (r a).rotateLeft (shAmt (r b)))

/-- ROL with an immediate (R133). -/
def execRolSi (e : BitVec 1) (d a : BitVec 6) (i : BitVec 12) (s : State) : Out :=
  aluOp s e d 1 (fun r => (r a).rotateLeft (shAmt (imm12 i)))

/-- MULH on two registers, unsigned with F = 1 (R133). -/
def execMulhSr (e : BitVec 1) (d a b : BitVec 6) (u : BitVec 1) (s : State) : Out :=
  aluOp s e d 3 (fun r => mulhOp (u == 1) (r a) (r b))

/-- MULH with an immediate, signed (R133). -/
def execMulhSi (e : BitVec 1) (d a : BitVec 6) (i : BitVec 12) (s : State) : Out :=
  aluOp s e d 3 (fun r => mulhOp false (r a) (imm12 i))

/-- DIV on two registers, unsigned with F = 1 (R133). -/
def execDivSr (e : BitVec 1) (d a b : BitVec 6) (u : BitVec 1) (s : State) : Out :=
  aluOp s e d 20 (fun r => divOp (u == 1) (r a) (r b))

/-- DIV with an immediate, signed (R133). -/
def execDivSi (e : BitVec 1) (d a : BitVec 6) (i : BitVec 12) (s : State) : Out :=
  aluOp s e d 20 (fun r => divOp false (r a) (imm12 i))

/-- REM on two registers, unsigned with F = 1 (R133). -/
def execRemSr (e : BitVec 1) (d a b : BitVec 6) (u : BitVec 1) (s : State) : Out :=
  aluOp s e d 20 (fun r => remOp (u == 1) (r a) (r b))

/-- REM with an immediate, signed (R133). -/
def execRemSi (e : BitVec 1) (d a : BitVec 6) (i : BitVec 12) (s : State) : Out :=
  aluOp s e d 20 (fun r => remOp false (r a) (imm12 i))

/-- MIN on two registers, unsigned with F = 1 (R133). -/
def execMinSr (e : BitVec 1) (d a b : BitVec 6) (u : BitVec 1) (s : State) : Out :=
  aluOp s e d 1 (fun r => minOp (u == 1) (r a) (r b))

/-- MIN with an immediate, signed (R133). -/
def execMinSi (e : BitVec 1) (d a : BitVec 6) (i : BitVec 12) (s : State) : Out :=
  aluOp s e d 1 (fun r => minOp false (r a) (imm12 i))

/-- MAX on two registers, unsigned with F = 1 (R133). -/
def execMaxSr (e : BitVec 1) (d a b : BitVec 6) (u : BitVec 1) (s : State) : Out :=
  aluOp s e d 1 (fun r => maxOp (u == 1) (r a) (r b))

/-- MAX with an immediate, signed (R133). -/
def execMaxSi (e : BitVec 1) (d a : BitVec 6) (i : BitVec 12) (s : State) : Out :=
  aluOp s e d 1 (fun r => maxOp false (r a) (imm12 i))

/-- CMP on two registers, the condition in F (R133). -/
def execCmpSr (e : BitVec 1) (d a b c : BitVec 6) (s : State) : Out :=
  aluOp s e d 1 (fun r => if cmpCond c.toNat (r a) (r b) then 1 else 0)

/-- CMP against sext(IMM12[8:0], 9) (R133). -/
def execCmpSi (e : BitVec 1) (d a : BitVec 6) (c : BitVec 3) (i : BitVec 9) (s : State) : Out :=
  aluOp s e d 1 (fun r => if cmpCond c.toNat (r a) (i.signExtend 64) then 1 else 0)

/-- SEL: x if reg(F) is nonzero, else y (R133). -/
def execSel (e : BitVec 1) (d a b f : BitVec 6) (s : State) : Out :=
  aluOp s e d 1 (fun r => if r f ≠ 0 then r a else r b)

/-- BITC.CLZ (R133). -/
def execBitcClz (e : BitVec 1) (d a : BitVec 6) (s : State) : Out :=
  aluOp s e d 1 (fun r => BitVec.ofNat 64 (clzN (r a).toNat 64))

/-- BITC.CTZ (R133). -/
def execBitcCtz (e : BitVec 1) (d a : BitVec 6) (s : State) : Out :=
  aluOp s e d 1 (fun r => BitVec.ofNat 64 (ctzN (r a).toNat 64))

/-- BITC.POPC (R133). -/
def execBitcPopc (e : BitVec 1) (d a : BitVec 6) (s : State) : Out :=
  aluOp s e d 1 (fun r => BitVec.ofNat 64 (popcN (r a).toNat 64))

/-- BITC.BREV (R133). -/
def execBitcBrev (e : BitVec 1) (d a : BitVec 6) (s : State) : Out :=
  aluOp s e d 1 (fun r => BitVec.ofNat 64 (brevN (r a).toNat 64))

/-- EXT by a register: pos y[5:0], len y[13:8] + 1 (R133). -/
def execExtSr (e : BitVec 1) (d a b : BitVec 6) (sg : BitVec 1) (s : State) : Out :=
  aluOp s e d 1 (fun r => extOp (sg == 1) (r a) ((r b).toNat % 64) ((r b).toNat / 256 % 64 + 1))

/-- EXT with immediate length and position, zero-extended (R133). -/
def execExtSi (e : BitVec 1) (d a : BitVec 6) (l p : BitVec 6) (s : State) : Out :=
  aluOp s e d 1 (fun r => extOp false (r a) p.toNat (l.toNat + 1))

/-- LI: sext(IMM18, 18) (R134). -/
def execLi (e : BitVec 1) (d : BitVec 6) (i : BitVec 18) (s : State) : Out :=
  aluOp s e d 1 (fun _ => i.signExtend 64)

/-- LIS: the destination shifted left 18 plus zext(IMM18) (R134). -/
def execLis (e : BitVec 1) (d : BitVec 6) (i : BitVec 18) (s : State) : Out :=
  aluOp s e d 1 (fun r => (r d <<< 18) + i.setWidth 64)

end Sys2Proof.Machine
end

