-- ==== Sys2Proof/Machine/Vector.lean ====
section
/-! DEFINITION. The vector unit (R196-R222): every V-slot instruction but the limb chain's, over one frame that reads the sources,
computes element by element under the lane mask, and lands values and flags at the published latency. -/
namespace Sys2Proof

/-- The element type that T names. -/
def VFields.ty (f : VFields) : Machine.EType := Machine.etype f.t
/-- The element width that T gives. -/
def VFields.width (f : VFields) : Nat := f.ty.width
/-- Elements of width w under W (R196). -/
def VFields.count (f : VFields) (w : Nat) : Nat := wBits f.w.toNat / w
/-- T is an integer type. -/
def VFields.isInt (f : VFields) : Bool := tInt f.t.toNat
/-- The part that an inline B names (R217, R218). -/
def VFields.part (f : VFields) : Nat := f.b.toNat - 496

end Sys2Proof

namespace Sys2Proof.Machine

/-- The floating format that T names, FP32 for an integer type. -/
def EType.fmt : EType → FFmt
  | .flt f => f
  | .int _ => .fp32
/-- Source A and source B of engine k in elements of type t. -/
def srcA (s : State) (f : VFields) (k : Nat) (en : Engine) (t : EType) : Vec := vSource s k en t f.a.toNat
def srcB (s : State) (f : VFields) (k : Nat) (en : Engine) (t : EType) : Vec := vSource s k en t f.b.toNat
/-- The register after A (R199). -/
def srcA1 (s : State) (f : VFields) (k : Nat) (en : Engine) : Vec := readV s k en (f.a.toNat + 1)

/-- The frame of an elementwise instruction: in each active engine, op gives the value and flags of each enabled element of width w
below W/w; they land lat cycles on. -/
def vMap (s : State) (f : VFields) (codes : List Nat) (w lat : Nat) (op : Gang → Nat → Engine → Nat → Nat × Nat) : Out :=
  vSlot s f.w f.m codes (fun g k en =>
    let r := op g k en
    en.writeFlagged s.cycle lat f.d.toNat w ((onElems s k en f.m w (f.count w)).map (fun i => (i, r i))))

/-- A two-source elementwise instruction over elements of T, without flags. -/
def vBin (s : State) (f : VFields) (lat : Nat) (op : Nat → Nat → Nat → Nat) : Out :=
  vMap s f [f.a.toNat, f.b.toNat] f.width lat (fun _ k en =>
    let a := srcA s f k en f.ty
    let b := srcB s f k en f.ty
    fun i => (op f.width (elemAt a f.width i) (elemAt b f.width i), 0))

/-- A one-source elementwise instruction over elements of T, without flags. -/
def vUn (s : State) (f : VFields) (op : Nat → Nat → Nat) : Out :=
  vMap s f [f.a.toNat] f.width 2 (fun _ k en =>
    let a := srcA s f k en f.ty
    fun i => (op f.width (elemAt a f.width i), 0))

/-! ## Arithmetic (R202-R204) -/

/-- An exact sum of terms rounded once, NV for a signalling input (R202). -/
def sumFlagged (fmt : FFmt) (rm : RMode) (inputs : List FVal) (terms : List (Option FVal)) : Nat × Nat :=
  sumRound fmt rm terms (inputs.any FVal.isSnan)

/-- VADD and its kin: the integer operation wraps; the floating terms are summed exactly and rounded once. three: the register
after A is an input. -/
def vArithOp (s : State) (f : VFields) (three : Bool) (iop : Int → Int → Int → Int)
    (terms : FVal → FVal → FVal → List (Option FVal)) : Out :=
  vMap s f [f.a.toNat, f.b.toNat] f.width (if f.isInt then 2 else 4) (fun _ k en =>
    let a := srcA s f k en f.ty
    let b := srcB s f k en f.ty
    let c := if three then srcA1 s f k en else 0
    fun i =>
      let w := f.width
      let x := elemAt a w i
      let y := elemAt b w i
      let z := elemAt c w i
      match f.ty with
      | .int _ => (bitsI (iop (sextN x w) (sextN y w) (sextN z w)) w, 0)
      | .flt fmt =>
        let u := fval fmt x
        let v := fval fmt y
        let t := fval fmt z
        sumFlagged fmt (rmode f.rm) (if three then [u, v, t] else [u, v]) (terms u v t))

/-- VADD (R202): Element-wise add. -/
def execVadd (f : VFields) (s : State) : Out := vArithOp s f false (fun x y _ => x + y) (fun x y _ => [some x, some y])
/-- VSUB (R202): Element-wise subtract. -/
def execVsub (f : VFields) (s : State) : Out := vArithOp s f false (fun x y _ => x - y) (fun x y _ => [some x, some y.neg])
/-- VMUL (R202): Element-wise multiply. -/
def execVmul (f : VFields) (s : State) : Out := vArithOp s f false (fun x y _ => x * y) (fun x y _ => [mulVal x y])
/-- VFMA (R202): Fused multiply-add with the addend in A + 1. -/
def execVfma (f : VFields) (s : State) : Out := vArithOp s f true (fun x y z => x * y + z) (fun x y z => [mulVal x y, some z])
/-- VFNMA (R202): Negated fused multiply-add. -/
def execVfnma (f : VFields) (s : State) : Out :=
  vArithOp s f true (fun x y z => -(x * y) + z) (fun x y z => [(mulVal x y).map FVal.neg, some z])

/-- VMULH (R203). -/
def execVmulh (f : VFields) (s : State) : Out :=
  vBin s f 2 (fun w x y =>
    if f.c = 1 then x * y / 2 ^ w else bitsI (Int.fdiv (sextN x w * sextN y w) (2 ^ w : Nat)) w)

/-- VADDS (R203). -/
def execVadds (f : VFields) (s : State) : Out :=
  vBin s f 2 (fun w x y =>
    match f.c.toNat with
    | 0 => sats (sextN x w + sextN y w) w
    | 1 => sats (sextN x w - sextN y w) w
    | 2 => satu ((x : Int) + y) w
    | _ => satu ((x : Int) - y) w)

/-- The four products of a lane and the addend (R204). -/
def dot4 (f : VFields) (x y z : Nat) : Nat × Nat :=
  let byte (v j : Nat) : Nat := v / 256 ^ j % 256
  match f.ty with
  | .flt fmt =>
    let xs := (below 4).map (fun j => fval fmt (byte x j))
    let ys := (below 4).map (fun j => fval fmt (byte y j))
    let t := fval .fp32 z
    sumFlagged .fp32 (rmode f.rm) (xs ++ ys ++ [t]) ((xs.zip ys).map (fun p => mulVal p.1 p.2) ++ [some t])
  | .int _ =>
    let rd (b : Nat) : Int := if f.c = 1 then b else sextN b 8
    (bitsI ((below 4).foldl (fun acc j => acc + rd (byte x j) * rd (byte y j)) (sextN z 32)) 32, 0)

/-- VDOT4: by lanes of 32 bits. -/
def execVdot4 (f : VFields) (s : State) : Out :=
  vMap s f [f.a.toNat, f.b.toNat] 32 4 (fun _ k en =>
    let a := srcA s f k en f.ty
    let b := srcB s f k en f.ty
    let c := srcA1 s f k en
    fun l => dot4 f (elemAt a 32 l) (elemAt b 32 l) (elemAt c 32 l))

/-! ## Comparison, selection and classification (R205-R209) -/

/-- −0 below +0, otherwise by value (R205); neither is NaN. -/
def fltBelow (x y : FVal) : Bool := if x.isZero && y.isZero then x.sign && !y.sign else x.lt y

/-- Minimum and maximum of two elements of a type, unsigned or not for integers (R205). -/
def minMaxOf (t : EType) (unsigned most : Bool) (x y : Nat) : Nat :=
  match t with
  | .flt fmt =>
    let u := fval fmt x
    let v := fval fmt y
    if u.isNan && v.isNan then fmt.dnan else if u.isNan then y else if v.isNan then x
    else if fltBelow u v != most then x else y
  | .int w =>
    let lt : Bool := if unsigned then decide (x < y) else decide (sextN x w < sextN y w)
    if x = y then x else if lt != most then x else y

/-- VMIN and VMAX of one element. -/
def minMax (f : VFields) (most : Bool) (x y : Nat) : Nat := minMaxOf f.ty (f.c = 1) most x y

/-- VMIN (R205): Element-wise minimum. -/
def execVmin (f : VFields) (s : State) : Out := vBin s f (if f.isInt then 2 else 4) (fun _ x y => minMax f false x y)
/-- VMAX (R205): Element-wise maximum. -/
def execVmax (f : VFields) (s : State) : Out := vBin s f (if f.isInt then 2 else 4) (fun _ x y => minMax f true x y)

/-- VABS: the sign bit cleared, or the integer's magnitude. -/
def execVabs (f : VFields) (s : State) : Out :=
  vUn s f (fun w x => if f.isInt then bitsI (sextN x w).natAbs w else x % 2 ^ (w - 1))
/-- VNEG: the sign bit inverted, or the integer negated. -/
def execVneg (f : VFields) (s : State) : Out :=
  vUn s f (fun w x => if f.isInt then bitsI (-(sextN x w)) w else x ^^^ 2 ^ (w - 1))

/-- The conditions of VCMP (R207). -/
def vcond (t : EType) (c x y : Nat) : Bool :=
  match t with
  | .int w =>
    let a := sextN x w
    let b := sextN y w
    match c with
    | 0 => x == y
    | 1 => x != y
    | 2 => decide (a < b)
    | 3 => decide (a ≤ b)
    | 4 => decide (b < a)
    | 5 => decide (b ≤ a)
    | 6 => decide (x < y)
    | _ => decide (y ≤ x)
  | .flt fmt =>
    let a := fval fmt x
    let b := fval fmt y
    let nan := a.isNan || b.isNan
    match c with
    | 0 => !nan && a.eqv b
    | 1 => nan || !a.eqv b
    | 2 => !nan && a.lt b
    | 3 => !nan && (a.lt b || a.eqv b)
    | 4 => !nan && b.lt a
    | 5 => !nan && (b.lt a || a.eqv b)
    | 6 => nan
    | _ => !nan

/-- An e-register with some bits given by index, which land lat cycles on. -/
def Engine.writeEBits (en : Engine) (now lat d : Nat) (bits : List (Nat × Bool)) : Engine :=
  if bits.isEmpty then en
  else
    let place (l : List (Nat × Bool)) : Word := BitVec.ofNat 64 (l.foldl (fun acc b => acc ||| 2 ^ b.1) 0)
    en.land now lat (.e d (place bits) (place (bits.filter (·.2))))

/-- VCMP: the element form, or the lane form with C[3] = 1. -/
def execVcmp (f : VFields) (s : State) : Out :=
  vSlot s f.w f.m [f.a.toNat, f.b.toNat] (fun _ k en =>
    let w := f.width
    let a := srcA s f k en f.ty
    let b := srcB s f k en f.ty
    let cond (i : Nat) : Bool := vcond f.ty (f.c.toNat % 8) (elemAt a w i) (elemAt b w i)
    let bits := if f.c.toNat < 8 then (onElems s k en f.m w (f.count w)).map (fun i => (i, cond i))
      else (onElems s k en f.m 32 (f.count 32)).map (fun l => (l, (upFrom (l * (32 / w)) (32 / w)).any cond))
    en.writeEBits s.cycle 2 f.d.toNat bits)

/-- VSEL. -/
def execVsel (f : VFields) (s : State) : Out :=
  vMap s f [f.a.toNat, f.b.toNat] f.width 2 (fun _ k en =>
    let a := srcA s f k en f.ty
    let b := srcB s f k en f.ty
    let c := readE s k en f.c.toNat
    fun i => (elemAt (if c.getLsbD i then a else b) f.width i, 0))

/-- The class code of an element (R208). -/
def fclass (fmt : FFmt) (x : Nat) : Nat :=
  match fval fmt x with
  | .nan sig => if sig then 8 else 9
  | .inf n => if n then 0 else 7
  | .fin n m _ =>
    let sub := x / 2 ^ fmt.mbits % 2 ^ fmt.ebits = 0
    if m = 0 then (if n then 3 else 4) else if sub then (if n then 2 else 5) else (if n then 1 else 6)

/-- VCLASS. -/
def execVclass (f : VFields) (s : State) : Out := vUn s f (fun _ x => fclass f.ty.fmt x)

/-! ## Logic, shifts and counting (R210-R213) -/

def execVand (f : VFields) (s : State) : Out := vBin s f 2 (fun _ x y => x &&& y)
/-- VOR (R210): Bitwise or. -/
def execVor (f : VFields) (s : State) : Out := vBin s f 2 (fun _ x y => x ||| y)
/-- VXOR (R210): Bitwise xor. -/
def execVxor (f : VFields) (s : State) : Out := vBin s f 2 (fun _ x y => x ^^^ y)
/-- VSHL: an amount of the width or more gives 0. -/
def execVshl (f : VFields) (s : State) : Out := vBin s f 2 (fun w x y => if w ≤ y then 0 else x * 2 ^ y % 2 ^ w)
/-- VSHR (R211): Logical shift right. -/
def execVshr (f : VFields) (s : State) : Out := vBin s f 2 (fun w x y => if w ≤ y then 0 else x / 2 ^ y)
/-- VSRA: an amount of the width or more gives the sign. -/
def execVsra (f : VFields) (s : State) : Out :=
  vBin s f 2 (fun w x y => bitsI (Int.fdiv (sextN x w) (2 ^ min y w : Nat)) w)
/-- VPOPC (R212): Population count per element. -/
def execVpopc (f : VFields) (s : State) : Out := vUn s f (fun w x => popcN x w)
/-- VCLZ (R212): Leading zeros per element. -/
def execVclz (f : VFields) (s : State) : Out := vUn s f (fun w x => clzN x w)
/-- VIOTA. -/
def execViota (f : VFields) (s : State) : Out :=
  vMap s f [f.a.toNat, f.b.toNat] f.width 2 (fun _ k en =>
    let a := srcA s f k en f.ty
    let b := srcB s f k en f.ty
    fun i => (bitsI (sextN (elemAt a f.width i) f.width + i * sextN (elemAt b f.width i) f.width) f.width, 0))

/-! ## Moving data (R214-R216) -/

/-- VMOV. -/
def execVmov (f : VFields) (s : State) : Out := vUn s f (fun _ x => x)

/-- VXFER: any register of the engine, named or indexed; a computed register past its allocation is REG_RANGE in an engine with an
enabled lane (R198, R215). -/
def execVxfer (f : VFields) (s : State) : Out :=
  slotGang s (fun g =>
    let reg (k : Nat) : Nat :=
      if f.c = 0 then f.a.toNat else f.a.toNat + (readE s k (g.eng k) f.c.toNat).toNat % 512
    let bad := (maskList s.act).filter (fun k => f.c ≠ 0 ∧ anyLane s k (g.eng k) f.w f.m ∧
      !inAlloc g.info.regsA g.info.regsB g.info.regsC g.info.regsS (reg k))
    if bad ≠ [] then g.raiseEngs s 0xFF (bad.map (fun k => (k, plainFault .regRange (reg k))))
    else g.mapAct s.act (fun k en =>
      let a := readV s k en (reg k)
      en.writeElems s.cycle 2 f.d.toNat f.width
        ((onElems s k en f.m f.width (f.count f.width)).map (fun i => (i, elemAt a f.width i)))))

/-- The index operand of VEXT and VINS: lane 0 of B as 32 bits. -/
def idxB (s : State) (f : VFields) (k : Nat) (en : Engine) : Nat := elemAt (srcB s f k en (.int 32)) 32 0

/-- VEXT: one element to an e-register, 0 past the last. -/
def execVext (f : VFields) (s : State) : Out :=
  vSlot s f.w f.m [f.a.toNat, f.b.toNat] (fun _ k en =>
    let w := f.width
    let i := idxB s f k en
    let x := elemAt (srcA s f k en f.ty) w i
    en.writeE s.cycle 2 f.d.toNat
      (if f.count w ≤ i then 0 else if f.c = 1 then BitVec.ofInt 64 (sextN x w) else BitVec.ofNat 64 x))

/-- VINS: A with one element from an e-register. -/
def execVins (f : VFields) (s : State) : Out :=
  vMap s f [f.a.toNat, f.b.toNat] f.width 2 (fun _ k en =>
    let a := srcA s f k en f.ty
    let j := idxB s f k en
    let c := readE s k en f.c.toNat
    fun i => (if i = j then c.toNat % 2 ^ f.width else elemAt a f.width i, 0))

/-! ## Conversions and codebooks (R217-R219) -/

/-- VCVT: widening reads part p of A, narrowing writes part p of D. -/
def execVcvt (f : VFields) (s : State) : Out :=
  let src := etype (BitVec.ofNat 3 f.c.toNat)
  let ws := src.width
  let wd := f.width
  let n := wBits f.w.toNat / max ws wd
  vSlot s f.w f.m [f.a.toNat] (fun _ k en =>
    let a := srcA s f k en src
    let elems := (below n).map (fun i => if wd ≤ ws then (i, f.part * n + i) else (f.part * n + i, i))
    let on := elems.filter (fun x => laneOn s k en f.m (x.2 * wd / 32))
    en.writeFlagged s.cycle 3 f.d.toNat wd (on.map (fun x => (x.2, cvt (elemAt a ws x.1) src f.ty (rmode f.rm) (8 ≤ f.c.toNat)))))

/-- A codebook entry widened to T. -/
def cbWide (t : EType) (e : Nat) : Nat :=
  match t with
  | .flt .fp32 => if isnan .bf16 e then FFmt.dnan .fp32 else e * 65536
  | _ => e

/-- VDECB. -/
def execVdecb (f : VFields) (s : State) : Out :=
  vMap s f [f.a.toNat] f.width 3 (fun _ k en =>
    let a := srcA s f k en f.ty
    let cb := readCb s k en (f.c.toNat % 4)
    let n := f.count f.width
    fun i => (cbWide f.ty (fieldAt cb 16 (elemAt a 4 (f.part * n + i))), 0))

/-- The exact distance of two finite values. -/
def distance (x y : FVal) : Dy := (x.dy.add y.dy.neg).abs

/-- The least-indexed candidate that no other beats. -/
def bestOf (better : FVal → FVal → Bool) (l : List (Nat × FVal)) : Option (Nat × FVal) :=
  l.foldl (fun acc c => match acc with
    | none => some c
    | some b => if better c.2 b.2 then some c else some b) none

/-- The code that VENCB chooses, and its flags (R219). (DEDUCED, log 54) -/
def encb (x : FVal) (ents : List FVal) : Nat × Nat :=
  let l := (below 16).zip ents
  let fins := l.filter (fun c => match c.2 with
    | .fin _ _ _ => true
    | _ => false)
  let choice : Option Nat := match x with
    | .nan _ => (l.find? (fun c => c.2.isNan)).map (·.1)
    | .inf n =>
      match l.find? (fun c => c.2 == .inf n) with
      | some c => some c.1
      | none => (bestOf (fun c b => if n then c.lt b else b.lt c) fins).map (·.1)
    | .fin n _ _ =>
      if fins = [] then (l.find? (fun c => c.2 == .inf n)).map (·.1)
      else (bestOf (fun c b => (distance x c).lt (distance x b)) fins).map (·.1)
  let code := choice.getD 0
  let e := ents.getD code (.nan false)
  let same := if x.isNan || e.isNan then x.isNan && e.isNan else x.eqv e
  (code, (if choice.isNone ∨ x.isSnan then flagNV else 0) ||| (if same then 0 else flagNX))

/-- VENCB: nibbles of part p of D. -/
def execVencb (f : VFields) (s : State) : Out :=
  vSlot s f.w f.m [f.a.toNat] (fun _ k en =>
    let a := srcA s f k en f.ty
    let cb := readCb s k en (f.c.toNat % 4)
    let ents := (below 16).map (fun j => fval .bf16 (fieldAt cb 16 j))
    let n := f.count f.width
    let on := (below n).filter (fun i => laneOn s k en f.m ((f.part * n + i) / 8))
    en.writeFlagged s.cycle 3 f.d.toNat 4
      (on.map (fun i => (f.part * n + i, encb (fval f.ty.fmt (elemAt a f.width i)) ents))))

/-! ## Random numbers and top-k insertion (R220-R222) -/

/-- VRNG: a Philox word for each enabled lane. -/
def execVrng (f : VFields) (s : State) : Out :=
  vMap s f [f.a.toNat] 32 8 (fun g k en =>
    let a := srcA s f k en (.int 32)
    let b := srcA1 s f k en
    let q := g.me s
    let k0 : Lane := (readS s q f.b.toNat).setWidth 32
    let k1 : Lane := (readS s q (f.b.toNat + 1)).setWidth 32
    fun l =>
      let r := philox (BitVec.ofNat 32 (elemAt a 32 l)) (BitVec.ofNat 32 (elemAt b 32 l)) (BitVec.ofNat 32 (f.c.toNat % 4)) 0 k0 k1
      let u := match f.c.toNat / 4 with
        | 0 => r.1
        | 1 => r.2.1
        | 2 => r.2.2.1
        | _ => r.2.2.2
      ((if f.t = 0 then unitf u else u).toNat, 0))

/-- The candidate comes before the entry (R221): (value, index) pairs. -/
def topBefore (t : EType) (smallest : Bool) (c e : Nat × Nat) : Bool :=
  match t with
  | .flt fmt =>
    let x := fval fmt c.1
    let y := fval fmt e.1
    if x.isNan && y.isNan then decide (c.2 < e.2)
    else if x.isNan then false
    else if y.isNan then true
    else if x.eqv y then decide (c.2 < e.2)
    else if smallest then x.lt y else y.lt x
  | .int w =>
    let x := sextN c.1 w
    let y := sextN e.1 w
    if x = y then decide (c.2 < e.2) else if smallest then decide (x < y) else decide (y < x)

/-- A candidate inserted in a list: the first k of the result. -/
def topInsert (t : EType) (smallest : Bool) (c : Nat × Nat) : List (Nat × Nat) → List (Nat × Nat)
  | [] => [c]
  | e :: r => if topBefore t smallest c e then c :: e :: r else e :: topInsert t smallest c r

/-- VTOPKI: the list, the candidate and the result by registers of the blocks. -/
def execVtopki (f : VFields) (s : State) : Out :=
  vSlot s f.w f.m [f.a.toNat, f.b.toNat] (fun _ k en =>
    let n := f.c.toNat % 8 + 1
    let b := srcB s f k en f.ty
    let ins := (below (2 * n + 1)).map (fun j => readV s k en (f.a.toNat + j))
    let lanes := onElems s k en f.m 32 (f.count 32)
    let out (l : Nat) : List Nat :=
      let at_ (j : Nat) : Nat := elemAt (ins.getD j 0) 32 l
      let r := (topInsert f.ty (8 ≤ f.c.toNat) (elemAt b 32 l, at_ (2 * n)) ((below n).map (fun j => (at_ (2 * j), at_ (2 * j + 1))))).take n
      r.flatMap (fun e => [e.1, e.2]) ++ [(at_ (2 * n) + 1) % 2 ^ 32]
    let outs := lanes.map (fun l => (l, out l))
    (below (2 * n + 1)).foldl (fun en j =>
      en.writeElems s.cycle (2 + n) (f.d.toNat + j) 32 (outs.map (fun o => (o.1, o.2.getD j 0)))) en)

end Sys2Proof.Machine
end

