-- ==== Sys2Proof/Machine/Crossbar.lean ====
section
/-! DEFINITION. The lane crossbar and the gang network (R233-R244): pattern registers, the vector forms within an engine and across
a gang, and the tile forms. Every source is read in the cycle of issue. (DESIGN CHOICE, log 16) -/
namespace Sys2Proof.Machine

/-! ## Pattern registers (R233, R234) -/

/-- Entry l of a pattern. -/
def patEntry (x : Vec) (l : Nat) : Nat := elemAt x 8 l % 64
/-- NUM of entry l. -/
def patNum (x : Vec) (l : Nat) : Nat := patEntry x l % 32
/-- SKIP of entry l. -/
def patSkip (x : Vec) (l : Nat) : Bool := (patEntry x l).testBit 5
/-- The MODE word of a pattern. -/
def patMode (x : Vec) : Nat := elemAt x 16 16

/-- A source of XPLD that R234 accepts: no entry byte with bits 7:6, no reserved bit or type, U only for an integer min or max. -/
def patOk (x : Vec) : Bool :=
  let m := patMode x
  (below 32).all (fun l => decide (elemAt x 8 l < 64)) && decide (m < 64) && m % 8 != 3 && m % 8 != 4 &&
    (!m.testBit 5 || (decide (5 ≤ m % 8) && (m / 8 % 4 == 1 || m / 8 % 4 == 2)))

/-- XPLD: the pattern of each active engine is checked, and lands 3 cycles later. -/
def execXpld (a : BitVec 5) (t : BitVec 3) (s : State) : Out :=
  slotGang s (fun g =>
    let src (k : Nat) : Vec := readV s k (g.eng k) (288 + a.toNat)
    let bad := (maskList s.act).filter (fun k => !patOk (src k))
    if bad ≠ [] then g.raise s .illegalEncoding (maskOf bad) (0x300 + t.toNat) 0
    else g.mapAct s.act (fun k en => en.land s.cycle 3 (.x t.toNat (src k &&& BitVec.ofNat 1024 (2 ^ 272 - 1)))))

/-! ## The reductions (R237) -/

/-- The element type that MODE names. -/
def patType (m : Nat) : EType := etype (BitVec.ofNat 3 m)

/-- The operation that MODE names, on two elements. -/
def patOp (m : Nat) (x y : Nat) : Nat :=
  match m / 8 % 4 with
  | 0 =>
    match patType m with
    | .int w => bitsI (sextN x w + sextN y w) w
    | .flt f => (sumRound f .rne [some (fval f x), some (fval f y)] false).1
  | 1 => minMaxOf (patType m) (m.testBit 5) false x y
  | 2 => minMaxOf (patType m) (m.testBit 5) true x y
  | _ => x ||| y

/-- XRED and XSCAN in each active engine: element i is combined from the present elements that upTo admits. -/
def laneReduce (s : State) (d a : BitVec 5) (p : BitVec 2) (upTo : Nat → Nat → Bool) : Out :=
  slotGang s (fun g => g.mapAct s.act (fun k en =>
    let x := readX s k en p.toNat
    let v := readV s k en (288 + a.toNat)
    let m := patMode x
    let w := (patType m).width
    let n := 1024 / w
    let out (i : Nat) : Nat := (tree (patOp m) ((below n).map (fun j =>
      if !patSkip x (j * w / 32) && upTo j i then some (elemAt v w j) else none))).getD 0
    en.writeElems s.cycle 6 (288 + d.toNat) w ((below n).map (fun i => (i, out i)))))

/-- XRED (R237): Reduces a register's elements. -/
def execXred (d a : BitVec 5) (p : BitVec 2) (s : State) : Out := laneReduce s d a p (fun _ _ => true)
/-- XSCAN (R237): Prefix-reduces a register's elements. -/
def execXscan (d a : BitVec 5) (p : BitVec 2) (s : State) : Out := laneReduce s d a p (fun j i => decide (j ≤ i))

/-! ## Permutations (R236) -/

/-- The source lanes of a scatter that name a destination lane. -/
def scatterTo (x : Vec) (dest : Nat) : List Nat := (below 32).filter (fun l => !patSkip x l && patNum x l == dest)

/-- XPERM: scatter by destination lane; two sources of one lane are a fault. -/
def execXperm (d a : BitVec 5) (p : BitVec 2) (s : State) : Out :=
  slotGang s (fun g =>
    let twice (k : Nat) : Option Nat :=
      (below 32).find? (fun dest => decide (2 ≤ (scatterTo (readX s k (g.eng k) p.toNat) dest).length))
    match (maskList s.act).filterMap (fun k => (twice k).map (fun dest => (k, dest))) with
    | (k, dest) :: t =>
      let lanes : BitVec 32 := (scatterTo (readX s k (g.eng k) p.toNat) dest).foldl (fun m l => m ||| (1#32 <<< l)) 0
      g.raiseEngs s 0xFF (((k, dest) :: t).map (fun r =>
        (r.1, { code := .xbarCollision, vaddr := 0, lanes, detail := dest + 256 * p.toNat })))
    | [] => g.mapAct s.act (fun k en =>
        let x := readX s k en p.toNat
        let v := readV s k en (288 + a.toNat)
        en.writeElems s.cycle 3 (288 + d.toNat) 32 ((below 32).filterMap (fun dest =>
          ((scatterTo x dest).head?).map (fun l => (dest, elemAt v 32 l))))))

/-- XSHFL: gather by source lane. -/
def execXshfl (d a : BitVec 5) (p : BitVec 2) (s : State) : Out :=
  slotGang s (fun g => g.mapAct s.act (fun k en =>
    let x := readX s k en p.toNat
    let v := readV s k en (288 + a.toNat)
    en.writeElems s.cycle 3 (288 + d.toNat) 32
      (((below 32).filter (fun l => !patSkip x l)).map (fun l => (l, elemAt v 32 (patNum x l))))))

/-! ## The gang network (R238-R240) -/

/-- GVSH: each active engine takes the register of the active engine that its own entry names. -/
def execGvsh (d a : BitVec 5) (p : BitVec 2) (s : State) : Out :=
  slotGang s (fun g => g.mapAct s.act (fun k en =>
    let x := readX s k en p.toNat
    let from_ := patNum x k % 16
    if !patSkip x k && inMask s.act from_ then
      en.land s.cycle 10 (.v (288 + d.toNat) (BitVec.allOnes 1024) (readV s from_ (g.eng from_) (288 + a.toNat)))
    else en))

/-- GVRED: element by element over the engines present, under the MODE of the lowest active engine. -/
def execGvred (d a : BitVec 5) (p : BitVec 2) (s : State) : Out :=
  slotGang s (fun g =>
    let low := (maskList s.act).headD 0
    let m := patMode (readX s low (g.eng low) p.toNat)
    let w := (patType m).width
    let srcs : List (Option Vec) := (below 16).map (fun k =>
      if inMask s.act k && !patSkip (readX s k (g.eng k) p.toNat) k then some (readV s k (g.eng k) (288 + a.toNat)) else none)
    let t := (below (1024 / w)).map (fun i => (i, (tree (patOp m) (srcs.map (fun v => v.map (fun v => elemAt v w i)))).getD 0))
    g.mapAct s.act (fun _ en => en.writeElems s.cycle 14 (288 + d.toNat) w t))

/-! ## Tiles (R241, R242) -/

/-- A tile of undefined values. (DESIGN CHOICE, log 16) -/
def freeTile (s : State) (k i : Nat) : List (BitVec 2048) :=
  (below 64).map (fun m => Config.freeVec s.free (freeTag 14 s.ctx.core k (128 * i + 2 * m)) ++
    Config.freeVec s.free (freeTag 14 s.ctx.core k (128 * i + 2 * m + 1)))

/-- Tile i of engine k holds undefined values, and so will whatever is in flight to it (R242). -/
def Engine.spoilTile (s : State) (k i : Nat) (en : Engine) : Engine :=
  let rows := freeTile s k i
  let spoilRow (r : Nat × BitVec 2048) : Nat × BitVec 2048 :=
    if r.1 / 64 = i then (r.1, rows.getD (r.1 % 64) 0) else r
  { en with
    c := putRows en.c (64 * i) rows
    xops := en.xops.map (fun x =>
      if (x.load.map (fun L => L.kind == 2 && L.dst == i)).getD false then
        { x with load := none, rows := (below 64).map (fun m => (64 * i + m, rows.getD m 0)) }
      else { x with rows := x.rows.map spoilRow })
    lands := en.lands.map (fun L => match L.pay with
      | .tile j _ => if j = i then { L with pay := .tile j rows } else L
      | _ => L) }

/-- Tile i of an engine is busy. -/
def Engine.tileBusy (s : State) (en : Engine) (i : Nat) : Bool := decide (s.cycle < sget 0 en.busy i)

/-- The frame of the tile forms: pairs of a destination engine and the source engines of its value. Tile cd of each is written
whole lat cycles later and busy until then. Where that tile or one of its sources is busy already, all of them hold undefined
values (R242). -/
def tileForm (s : State) (cd cs : Nat) (lat : Nat) (sources : Nat → List Nat)
    (value : Gang → Nat → List Nat → List (BitVec 2048)) : Out :=
  slotGang s (fun g =>
    let dests := (maskList s.act).filter (fun k => sources k != [])
    let clash (k : Nat) : Bool := (g.eng k).tileBusy s cd || (sources k).any (fun j => (g.eng j).tileBusy s cs)
    let g' := g.mapAct (maskOf dests) (fun k en =>
      let en := if clash k then en.spoilTile s k cd else en
      let rows := if clash k then freeTile s k cd else value g k (sources k)
      { en.land s.cycle lat (.tile cd rows) with busy := kput en.busy cd (max (sget 0 en.busy cd) (s.cycle + lat)) })
    g'.mapAct (maskOf ((dests.filter clash).flatMap sources)) (fun k en => en.spoilTile s k cs))

/-- GSHUF (R241): Exchanges tiles between engines by XOR mask. -/
def execGshuf (d t : BitVec 3) (m : BitVec 4) (s : State) : Out :=
  tileForm s d.toNat t.toNat 40 (fun k => [k ^^^ m.toNat].filter (inMask s.act))
    (fun g _ l => (l.head?).elim [] (fun k => readTile s k (g.eng k) t.toNat))
/-- GBCST (R241): Broadcasts a tile from one engine. -/
def execGbcst (d t : BitVec 3) (n : BitVec 4) (s : State) : Out :=
  tileForm s d.toNat t.toNat 40 (fun _ => [n.toNat].filter (inMask s.act))
    (fun g _ l => (l.head?).elim [] (fun k => readTile s k (g.eng k) t.toNat))

/-- The FP32 sum of two patterns (R125). -/
def addFp32 (x y : Nat) : Nat := (sumRound .fp32 .rne [some (fval .fp32 x), some (fval .fp32 y)] false).1

/-- GRED: into the root alone, the sum over the active engines. -/
def execGred (d t : BitVec 3) (q : BitVec 4) (s : State) : Out :=
  tileForm s d.toNat t.toNat 56 (fun k => if k = q.toNat then maskList s.act else [])
    (fun g _ _ =>
      let tiles := (below 16).map (fun k => if inMask s.act k then some (readTile s k (g.eng k) t.toNat) else none)
      (below 64).map (fun m =>
        let rows := tiles.map (fun t => t.map (fun t => t.getD m 0))
        BitVec.ofNat 2048 ((below 64).foldl (fun acc n =>
          acc ||| ((tree addFp32 (rows.map (fun r => r.map (fun r => fieldAt r 32 n)))).getD 0) <<< (32 * n)) 0)))

end Sys2Proof.Machine
end

