-- ==== Sys2Proof/Machine/Ranking.lean ====
section
/-! DEFINITION. The ranking network (R267-R280): the order, the exclusion, rank codes and value lists, and its five instructions.
(DESIGN CHOICE, log 55) -/
namespace Sys2Proof.Machine

/-- The element type that T of a ranking instruction names. -/
def rankType (t : BitVec 2) : EType :=
  match t.toNat with
  | 0 => .flt .fp32
  | 1 => .flt .bf16
  | 2 => .flt .fp16
  | _ => .int 32

/-- An element with its index: (bits, index). -/
abbrev Ranked := Nat × Nat

/-- The value order of elements, greater first, NaN last; equal ones and NaNs by index (R267). -/
def rankBefore (t : EType) (x y : Ranked) : Bool := topBefore t false x y

/-- excluded() of R268 under CR_RTHR. -/
def rankExcluded (t : EType) (rthr : Word) (x : Nat) : Bool :=
  rthr.getLsbD 32 && (match t with
    | .flt f =>
      let v := fval f x
      let h := fval .fp32 (rthr.toNat % 2 ^ 32)
      v.isNan || (!h.isNan && (v.lt h || v.eqv h))
    | .int w => decide (sextN x w ≤ sextN rthr.toNat 32))

/-- The first cut entries of the elements that are not excluded, in order. -/
def rankList (t : EType) (rthr : Word) (cut : Nat) (l : List Ranked) : List Ranked :=
  (sortBy (rankBefore t) (l.filter (fun x => !rankExcluded t rthr x.1))).take cut

/-- Entries laid out as a rank code of 64. -/
def codeReg (l : List (Option Ranked)) : Vec :=
  packElems 16 ((below 64).map (fun q => (q, match l.getD q none with
    | some e => e.2
    | none => 0xFFFF)))
/-- Value slots from..from + n − 1 of width w. -/
def valueReg (w from_ n : Nat) (l : List (Option Ranked)) : Vec :=
  packElems w ((below n).map (fun q => (q, match l.getD (from_ + q) none with
    | some e => e.1
    | none => 0)))
/-- A list in the layout of R269: the code, then two value registers of 32-bit types or one of 16-bit types. -/
def listOf (t : EType) (l : List (Option Ranked)) : List Vec :=
  codeReg l :: (if t.width = 32 then [valueReg 32 0 32 l, valueReg 32 32 32 l] else [valueReg 16 0 64 l])

/-- The elements of a group of registers. -/
def groupElems (w : Nat) (regs : List Vec) : List Ranked :=
  let n := 1024 / w
  (below (n * regs.length)).map (fun i => (elemAt (regs.getD (i / n) 0) w (i % n), i))

/-- The cut that AUX[3:2] names. -/
def cutOf (en : Engine) (c : BitVec 2) : Nat :=
  match c.toNat with
  | 0 => en.rcut
  | 1 => 8
  | 2 => 16
  | _ => 32

/-- Registers v288 + a on, n of them. -/
def sharedRegs (s : State) (k : Nat) (en : Engine) (a : BitVec 5) (n : Nat) : List Vec :=
  (below n).map (fun j => readV s k en (288 + a.toNat + j))

/-- A ranking instruction of engine k writes whole registers from v288 + d on; one that issues inside the interval of the last leaves
the destinations of both undefined (R279). -/
def Engine.rankWrite (en : Engine) (s : State) (k lat gap : Nat) (d : BitVec 5) (vs : List Vec) : Engine :=
  let dst := (below vs.length).map (fun j => 288 + d.toNat + j)
  let early := decide (s.cycle < en.rankFree)
  let undef (r : Nat) : Vec := Config.freeVec s.free (freeTag 14 s.ctx.core k r)
  let en := if early then { en with lands := en.lands.map (fun L => match L.pay with
    | .v i m _ => if en.rankDst.contains i then { L with pay := .v i m (undef i) } else L
    | _ => L) } else en
  let en := { en with rankFree := s.cycle + gap, rankDst := dst }
  (dst.zip vs).foldl (fun en p => en.land s.cycle lat (.v p.1 (BitVec.allOnes 1024) (if early then undef p.1 else p.2))) en

/-- Latency and interval of RANK, RANKV and RANKC (R279). -/
def rankLat (t : EType) (g : Nat) : Nat := [42, 54, 68, 84, 102].getD (g + if t.width = 32 then 0 else 1) 102
def rankGap (t : EType) (g : Nat) : Nat := 2 ^ (g + if t.width = 32 then 0 else 1)

/-- RANK, and RANKV with the values. -/
def rankOp (t : BitVec 2) (d a : BitVec 5) (c g : BitVec 2) (values : Bool) (s : State) : Out :=
  slotGang s (fun gg => gg.mapAct s.act (fun k en =>
    let ty := rankType t
    let l := (rankList ty en.rthr (cutOf en c) (groupElems ty.width (sharedRegs s k en a (2 ^ g.toNat)))).map some
    en.rankWrite s k (rankLat ty g.toNat) (rankGap ty g.toNat) d (if values then listOf ty l else [codeReg l])))

/-- RANK (R274): Ranks up to eight shared registers into a rank code. -/
def execRank (t : BitVec 2) (d a : BitVec 5) (c g : BitVec 2) (s : State) : Out := rankOp t d a c g false s
/-- RANKV (R274): Ranks into a rank code with its value list. -/
def execRankv (t : BitVec 2) (d a : BitVec 5) (c g : BitVec 2) (s : State) : Out := rankOp t d a c g true s

/-- RANKC: each of E interleaved columns in a block of its own (R275). -/
def execRankc (t : BitVec 2) (d a : BitVec 5) (e g : BitVec 2) (s : State) : Out :=
  slotGang s (fun gg => gg.mapAct s.act (fun k en =>
    let ty := rankType t
    let cols := 2 ^ e.toNat
    let m := min en.rcut (64 / cols)
    let all := groupElems ty.width (sharedRegs s k en a (2 ^ g.toNat))
    let col (j : Nat) : List (Option Ranked) :=
      let l := rankList ty en.rthr m ((all.filter (fun x => x.2 % cols == j)).map (fun x => (x.1, x.2 / cols)))
      l.map some ++ List.replicate (m - l.length) none
    en.rankWrite s k (rankLat ty g.toNat) (rankGap ty g.toNat) d (listOf ty ((below cols).flatMap col))))

/-- The present entries of a list in registers: up to the first 0xFFFF (R270). -/
def presentOf (t : EType) (regs : List Vec) : List Ranked :=
  let code := regs.getD 0 0
  let value (q : Nat) : Nat :=
    if t.width = 32 then elemAt (regs.getD (1 + q / 32) 0) 32 (q % 32) else elemAt (regs.getD 1 0) 16 q
  ((below 64).map (fun q => (value q, elemAt code 16 q))).takeWhile (fun e => e.2 != 0xFFFF)

/-- RMERGE (R276). -/
def execRmerge (t : BitVec 2) (d a : BitVec 5) (c : BitVec 2) (s : State) : Out :=
  slotGang s (fun gg => gg.mapAct s.act (fun k en =>
    let ty := rankType t
    let b := if ty.width = 32 then 3 else 2
    let regs := sharedRegs s k en a (2 * b)
    let l := (rankList ty en.rthr (cutOf en c) (presentOf ty (regs.take b) ++ presentOf ty (regs.drop b))).map some
    en.rankWrite s k 20 1 d (listOf ty l)))

/-- conv() of R277 on a BF16 pattern. -/
def attConv (t : EType) (x : Nat) : Nat :=
  match t with
  | .flt .bf16 => x
  | .flt f => (cvtFloat (fval .bf16 x) f .rne).1
  | .int _ => x

/-- Ranks in order placed at their indices; the first of an index stands. -/
def unrankPut (n : Nat) (conv : Nat → Nat) (at_ : Nat → Nat) (q : Nat) (out : List (Nat × Nat)) : List Nat → List (Nat × Nat)
  | [] => out
  | i :: t => unrankPut n conv at_ (q + 1) (if i < n ∧ (kfind out i).isNone then kput out i (conv (at_ q)) else out) t

/-- UNRANK (R277). -/
def execUnrank (t : BitVec 2) (d a : BitVec 5) (n sel : BitVec 1) (g : BitVec 2) (s : State) : Out :=
  slotGang s (fun gg => gg.mapAct s.act (fun k en =>
    let ty := rankType t
    let w := ty.width
    let per := 1024 / w
    let total := per * 2 ^ g.toNat
    let lim := if n = 1 then 64 else en.rcut
    let tab := readAtt s k en sel.toNat
    let code := readV s k en (288 + a.toNat)
    let idx := ((below lim).map (fun q => elemAt code 16 q)).takeWhile (· != 0xFFFF)
    let put := unrankPut total (attConv ty) (elemAt tab 16) 0 [] idx
    let reg (j : Nat) : Vec := packElems w ((below per).map (fun i => (i, (kfind put (per * j + i)).getD (en.rfill.toNat % 2 ^ w))))
    en.rankWrite s k 10 1 d ((below (2 ^ g.toNat)).map reg)))

end Sys2Proof.Machine
end

