-- ==== Sys2Proof/Machine/SaveArea.lean ====
section
/-! DEFINITION. What the hub reads and writes in an address space at package scope (R361, R376), and a gang's save area: the gang
status block (R48) and the layout of R391. Bytes whose form the manual leaves to the device are free values. -/
namespace Sys2Proof.Machine

/-! ## Memory through the hub cache -/

/-- Bytes of an address space, page by page; the fault of the first page that cannot be read. -/
def hubReadParts (s : State) (asid va : Nat) : List (Nat × Nat) → State × Except GFault (List Byte)
  | [] => (s, .ok [])
  | (lo, n) :: t =>
    match s.translate 224 asid (va + lo) true false with
    | (s, .error f) => (s, .error f.code)
    | (s, .ok pa) =>
      if s.poisoned pa n then (s, .error .poison)
      else match hubReadParts s asid va t with
        | (s, .error f) => (s, .error f)
        | (s, .ok l) => (s, .ok (bytesOf n (s.homeBytes pa n) ++ l))

/-- n bytes at a virtual address, at package scope. (DEDUCED, log 81) -/
def hubRead (s : State) (asid va n : Nat) : State × Except GFault (List Byte) :=
  hubReadParts s asid va (partsBy 65536 va n)

/-- A write of the hub waits: for a release of its page under way (R367), or behind an earlier one that does. (DEDUCED, log 81) -/
def State.hubHeld (s : State) (asid va : Nat) : Bool :=
  s.releasing asid va || s.hubLater.any (fun w => w.asid == asid && w.va / 65536 == va / 65536)

/-- Bytes written page by page; a page that cannot be written is left out, one that is being released is written later.
(DEDUCED, log 36) (DEDUCED, log 81) -/
def hubWriteParts (s : State) (asid va : Nat) (bs : List Byte) : List (Nat × Nat) → State
  | [] => s
  | (lo, n) :: t =>
    let b := (bs.drop lo).take n
    if s.hubHeld asid (va + lo) then
      hubWriteParts { s with hubLater := s.hubLater ++ [{ asid, va := va + lo, bytes := b }] } asid va bs t
    else match s.translate 224 asid (va + lo) false true with
      | (s, .error _) => hubWriteParts s asid va bs t
      | (s, .ok pa) => hubWriteParts ((s.homeStores pa (b.map some)).heal pa n) asid va bs t

/-- Bytes written at a virtual address, at package scope. -/
def hubWrite (s : State) (asid va : Nat) (bs : List Byte) : State := hubWriteParts s asid va bs (partsBy 65536 va bs.length)

/-- The writes that have waited are tried again, in order (R367). (DEDUCED, log 81) -/
def State.tickHub (s : State) : State :=
  s.hubLater.foldl (fun s w => hubWrite s w.asid w.va w.bytes) { s with hubLater := [] }

/-! ## The gang status block (R48) -/

/-- Fields of given sizes in bytes, the first lowest. -/
def packBytes (l : List (Nat × Nat)) : List Byte := l.flatMap (fun f => bytesOf f.1 f.2)

/-- One half of the block. -/
def Status.bytes (st : Status) : List Byte :=
  packBytes [(4, st.state), (2, st.fault), (2, st.engmask.toNat), (4, st.pc), (4, st.rppc), (1, st.slot), (1, st.queue),
             (1, st.traps), (1, 0), (4, st.detail), (8, st.vaddr.toNat), (4, st.lanes.toNat), (4, 0), (8, st.cycle), (16, 0)]

/-- The block as it stands: the spare's half is used only while a split is outstanding. -/
def Gang.statusBlock (g : Gang) : List Byte :=
  g.prim.status.bytes ++ (if g.split then g.spare.status else {}).bytes

/-- The block is written to the gang's save area, where the task has one. (DEDUCED, log 38) -/
def State.writeStatus (s : State) (core : Nat) : State :=
  match s.gang core with
  | some g => if g.info.saveBase = 0 then s else hubWrite s g.info.asid g.info.saveBase g.statusBlock
  | none => s

/-! ## The save area (R391) -/

/-- A number of bytes rounded up to 4 KiB. -/
def up4k (n : Nat) : Nat := (n + 4095) / 4096 * 4096
/-- A cluster's allocation (R91). -/
def alloc8 (n : Nat) : Nat := (n + 7) / 8 * 8

/-- ENGSZ of a task: register declarations, saved tiles and latches, scratchpad and ceiling bytes. -/
def engSize (ra rb rc rs tiles latches scr ceil : Nat) : Nat :=
  up4k (0x8000 + 128 * (alloc8 ra + alloc8 rb + alloc8 rc + alloc8 rs) + 16384 * tiles + 16384 * latches + up4k scr + up4k ceil)
/-- SAVESZ. -/
def saveSize (e : Nat) : Nat := 0x1000 + 16 * e

/-- A piece of a save area: its offset and its bytes. -/
abbrev SavePiece := Nat × List Byte

/-- Bytes whose form the manual does not give. (DESIGN CHOICE, log 37) -/
def freeBytes (epoch tag n : Nat) : List Byte := bytesOf n (Config.freeNat epoch tag)

/-- The loop state of a sequencer: first and last bundle, iterations to begin, and whether there is one. (DESIGN CHOICE, log 37) -/
def loopBytes : Option LoopState → List Byte
  | some l => packBytes [(4, l.first), (4, l.last), (4, l.remain), (4, 1 + 2 * l.turn.toNat)]
  | none => bytesOf 16 0

/-- The saved state of a sequencer, at an offset. -/
def Seq.savePieces (q : Seq) (g : Gang) (spare : Bool) (off : Nat) : List SavePiece :=
  let regs := (below 64).flatMap (fun i => bytesOf 8 (sget 0 q.s i).toNat)
  let gs := (below 8).flatMap (fun i => bytesOf 2 (if i = 0 then g.live else sget 0 q.g i).toNat)
  let depth := fieldsVal [(16, q.callDepth), (8, q.spilled), (0, q.resident)]
  let split := fieldsVal [(48, if g.split then g.splitDepth else 0), (32, if g.split then g.splitTag else 0),
                          (17, spare.toNat), (16, g.split.toNat), (0, (g.other spare).toNat)]
  [(off, regs), (off + 0x200, gs), (off + 0x210, bytesOf 4 q.active.toNat), (off + 0x214, bytesOf 4 q.pc),
   (off + 0x218, bytesOf 8 depth.toNat), (off + 0x220, loopBytes q.loop), (off + 0x230, bytesOf 8 split.toNat),
   (off + 0x240, (below 32).flatMap (fun i => bytesOf 8 (sget 0 q.stack i).toNat))]

/-- The entries of a queue that a save holds: the unpopped ones (R50). -/
def unpopped (l : List QEntry) : List QEntry := l.filter (fun e => e.popped.isNone)

/-- The data of a queue's entries, oldest first. -/
def queueBytes (l : List QEntry) : List Byte :=
  (unpopped l).flatMap (fun e => match e.result with
    | some (.data v) => bytesOf 128 v.toNat
    | _ => bytesOf 128 0)

/-- The records of a queue's entries: valid, resolved, fault code, faulting address; 64 of 16 B. (DESIGN CHOICE, log 37) -/
def queueRecords (l : List QEntry) : List Byte :=
  ((unpopped l).map (fun e => packBytes (match e.result with
    | some (.data _) => [(1, 1), (1, 1), (2, 0), (4, 0), (8, 0)]
    | some (.fault f) => [(1, 1), (1, 1), (2, f.code.code), (4, 0), (8, f.vaddr.toNat)]
    | none => [(1, 1), (1, 0), (2, 0), (4, 0), (8, 0)])) ++
    List.replicate (64 - (unpopped l).length) (bytesOf 16 0)).flatten

/-- The registers of an index-walker operation or of its shadow set (R327). -/
def walkRegs (r : RegFile 64) : List Byte := (below 6).flatMap (fun i => bytesOf 8 (sget 0 r i).toNat)

/-- The index walker of an engine: position, what stands in its queue, its first two operations and the shadow set.
(DESIGN CHOICE, log 37) -/
def walkerBytes (en : Engine) : List Byte :=
  let op (i : Nat) : WalkOp := en.walks.getD i { id := 0, regs := [] }
  packBytes [(4, (op 0).tile), (4, (op 0).batch), (4, en.walks.length), (4, (op 0).started.isSome.toNat)] ++ walkRegs (op 0).regs ++
    walkRegs (op 1).regs ++ walkRegs en.iwShadow ++ bytesOf 32 0

/-- The vector registers of the allocations, cluster by cluster. -/
def vecBytes (en : Engine) (i : GangInfo) : List Byte :=
  ([(0, i.regsA), (96, i.regsB), (192, i.regsC), (288, i.regsS)]).flatMap (fun c =>
    (upFrom c.1 (alloc8 c.2)).flatMap (fun r => bytesOf 128 (sget 0 en.v r).toNat))

/-- The saved state of engine k, at an offset; e0 is the engine index (R30). -/
def Engine.savePieces (en : Engine) (k : Nat) (i : GangInfo) (epoch tag off : Nat) : List SavePiece :=
  let w (l : List Word) : List Byte := l.flatMap (fun x => bytesOf 8 x.toNat)
  [(off, w ((below 16).map (fun r => if r = 0 then BitVec.ofNat 64 k else sget 0 en.e r))), (off + 0x80, w ((below 32).map (sget 0 en.a))),
   (off + 0x180, (below 32).flatMap (fun r => bytesOf 4 (sget 0 en.st r).toNat)), (off + 0x200, w ((below 8).map (sget 0 en.h))),
   (off + 0x240, (below 4).flatMap (fun r => bytesOf 32 (sget 0 en.cb r).toNat)),
   (off + 0x2C0, (below 2).flatMap (fun r => bytesOf 128 (sget 0 en.att r).toNat)),
   (off + 0x3C0, (below 4).flatMap (fun r => bytesOf 256 (sget 0 en.sc r).toNat)),
   (off + 0x7C0, (below 4).flatMap (fun r => bytesOf 34 (sget 0 en.x r).toNat ++ bytesOf 30 0)),
   (off + 0x8C0, bytesOf 8 en.sb.toNat ++ w ([0x00A, 0x400, 0x200, 0x201, 0x202, 0x303, 0x302].map (crEngine en))),
   (off + 0x900, freeBytes epoch tag 64), (off + 0x940, walkerBytes en),
   (off + 0x1000, queueBytes en.q0), (off + 0x3000, queueBytes en.q1), (off + 0x5000, queueBytes en.iq),
   (off + 0x7000, queueRecords en.q0 ++ queueRecords en.q1 ++ queueRecords en.iq),
   (off + 0x7C00, packBytes [(4, (unpopped en.q0).length), (4, (unpopped en.q1).length), (4, (unpopped en.iq).length), (4, 0)]),
   (off + 0x8000, vecBytes en i ++
     (below (64 * i.ntile)).flatMap (fun r => bytesOf 256 (sget 0 en.c r).toNat) ++
     (below (64 * i.nlatch)).flatMap (fun r => bytesOf 256 (sget 0 en.l r).toNat) ++
     (below (up4k i.spSize)).map (fun b => sget 0 en.scratch b) ++ (below (up4k i.ceilSize)).map (fun b => sget 0 en.ceil b))]

/-- The save of a gang, piece by piece; an engine fenced since the gang was placed, one of lost, has no block written.
(DESIGN CHOICE, log 37) -/
def Gang.savePieces (g : Gang) (epoch core : Nat) (lost : Mask) : List SavePiece :=
  let i := g.info
  let size := engSize i.regsA i.regsB i.regsC i.regsS i.ntile i.nlatch i.spSize i.ceilSize
  let tag (e : Nat) : Nat := freeTag 50 core e 0
  [(0, g.statusBlock)] ++ g.prim.savePieces g false 0x80 ++
    (if g.split then g.spare.savePieces g true 0x480 else [(0x480, bytesOf 1024 0)]) ++
    [(0x880, bytesOf 8 g.events.toNat ++ bytesOf 8 g.timer ++ bytesOf 8 g.lapGate.toNat ++ bytesOf 8 g.batons.toNat ++
       bytesOf 8 g.watchdog), (0x8A8, freeBytes epoch (tag 0 + 16) 88), (0x900, freeBytes epoch (tag 0 + 17) 768)] ++
    (maskList (g.live &&& ~~~ lost)).flatMap (fun e => (g.eng e).savePieces e i epoch (tag e + 32) (0x1000 + e * size))

/-- The save of the gang on a core is written (R389). -/
def State.writeSave (s : State) (core : Nat) : State :=
  match s.gang core with
  | some g =>
    if g.info.saveBase = 0 then s
    else (g.savePieces s.free core (s.core core).fencedEngines).foldl (fun s p => hubWrite s g.info.asid (g.info.saveBase + p.1) p.2) s
  | none => s

end Sys2Proof.Machine
end

