-- ==== Sys2Proof/Machine/Collective.lean ====
section
/-! DEFINITION. The package collective unit and the cores' collective ports (R335-R345): groups and ranks, instances, the five
operations, the commit point and the failures, and the completion of a member; and the start of engine operations of every
unit (R154), which for the port joins an instance. (DESIGN CHOICE, log 10; DEDUCED, log 29) -/
namespace Sys2Proof.Machine

/-! ## The operation's fields (R335) -/

/-- OP, RED, TYPE, COUNT, NCUT and ROOT, which every member gives alike (R338). -/
def UnitOp.collParams (o : UnitOp) : Nat × Nat × Nat × Nat × Nat × Nat :=
  (bitsOf (o.reg 4) 0 3, bitsOf (o.reg 4) 3 2, bitsOf (o.reg 4) 5 3, bitsOf (o.reg 2) 0 24, bitsOf (o.reg 4) 8 7,
   bitsOf (o.reg 3) 40 11)
def UnitOp.mask (o : UnitOp) : Nat := bitsOf (o.reg 3) 0 32
def UnitOp.pen (o : UnitOp) : Bool := (o.reg 3).getLsbD 39
def UnitOp.peer (o : UnitOp) : Nat := bitsOf (o.reg 3) 32 6
def UnitOp.timeout (o : UnitOp) : Nat := bitsOf (o.reg 4) 32 32

/-- The group identity by which a port numbers its operations (R338). -/
def UnitOp.identity (o : UnitOp) : Nat := o.mask + 2 ^ 32 * o.pen.toNat + 2 ^ 33 * o.peer

/-- Gangs of a group in each package. -/
def groupSize (k : CollKey) : Nat := popMask k.mask.toNat
/-- P of an instance: 0 when it is not known. -/
def CollInst.size (i : CollInst) : Nat := groupSize i.key * i.npkg
/-- The rank of the gang at a position (R337). -/
def CollInst.rankOf (i : CollInst) (pos : Nat) : Nat := i.prank * groupSize i.key + popMask (i.key.mask.toNat % 2 ^ pos)

/-- Bytes of a contribution (R339, R340). -/
def srcBytes (p : Nat × Nat × Nat × Nat × Nat × Nat) : Nat :=
  let n := typeBytes p.2.2.1
  if p.1 = 4 then 128 * (if n = 4 then 3 else 2) else p.2.2.2.1 * n
/-- Bytes of a result among P members. -/
def dstBytes (p : Nat × Nat × Nat × Nat × Nat × Nat) (size : Nat) : Nat :=
  if p.1 = 1 then srcBytes p / size else if p.1 = 2 then srcBytes p * size else srcBytes p

/-- The parts of n bytes from an address, one for each 128 B line: offset and length. -/
def lineParts (a n : Nat) : List (Nat × Nat) := partsBy 128 a n

/-! ## Addresses (R343, R344) -/

/-- A line part of a port is checked and translated through the hub cache: its place, or its fault with reason and level (R344, R358). -/
def clSpot (s : State) (core : Nat) (g : Gang) (eng : Nat) (a : Word) (n align : Nat) (wr : Bool) :
    State × Except PieceFault CopySpot :=
  if tagOf a ≠ 0 ∧ tagOf a ≠ 2 then (s, .error (.page, 2, if 6 ≤ tagOf a then 6 else 0, 0))
  else match routeOf s core g eng .all a n align with
    | .error f => (s, .error (routeFault f))
    | .ok (.scr c e off cls) => if !wr && s.sramPoisoned c e 0 off n then (s, .error (.poison, 0, 0, 0)) else (s, .ok (.scr c e off cls))
    | .ok (.va va) =>
      match s.translate 224 g.info.asid va (!wr) wr with
      | (s, .error f) => (s, .error (f.code, 0, f.reason, f.level))
      | (s, .ok pa) => if !wr && s.poisoned pa n then (s, .error (.poison, 0, 0, 0)) else (s, .ok (.pa pa))

/-- The bytes at a place at package scope. -/
def clRead (s : State) (n : Nat) : CopySpot → Nat
  | .scr c e off _ => loadBytes (s.scratch c e) off n
  | .ceil _ _ => 0
  | .pa pa => s.homeBytes pa n

/-- Bytes written at a place at package scope; whole sectors are healed (R194). -/
def clWrite (s : State) (core n v : Nat) : CopySpot → State
  | .pa pa => (s.homeStores pa (someBytes n v)).heal pa n
  | .scr c e off cls =>
    if s.deadSram c e then CopySpot.hurt s core n (.scr c e off cls) else (copyWrite s core n v (.scr c e off cls)).healSram c e 0 off n
  | .ceil e off => copyWrite s core n v (.ceil e off)

/-- What the lookups of the pages of a port's n bytes at an address add to its published time, which holds hits in the hub cache (R362).
(DEDUCED, log 80) -/
def collMiss (s : State) (asid : Nat) (a : Word) (n : Nat) : Nat :=
  if tagOf a ≠ 0 then 0 else s.hubMiss asid (a.toNat % 2 ^ 48) n

/-- A contribution, line by line. -/
def clReadParts (s : State) (core : Nat) (g : Gang) (eng : Nat) (a : Word) (align : Nat) :
    List (Nat × Nat) → State × Except MemFault Nat
  | [] => (s, .ok 0)
  | (lo, n) :: t =>
    let b := addrAdd a (BitVec.ofNat 64 lo)
    match clSpot s core g eng b n align false with
    | (s, .error f) => (s, .error (opFaultOf f b false))
    | (s, .ok sp) =>
      let v := (ringFree s g.info.asid (freeTag 48 core (lo / 2 ^ 19 % 16) (lo / 128 % 4096)) b n).getD (clRead s n sp)
      match clReadParts s core g eng a align t with
      | (s, .error f) => (s, .error f)
      | (s, .ok rest) => (s, .ok (v + 2 ^ (8 * n) * rest))

/-- Lines written in turn: how many are written now, and the fault that stops the port. -/
def clWriteParts (s : State) (core : Nat) (g : Gang) (eng : Nat) (a : Word) (align v : Nat) :
    List (Nat × Nat) → State × Nat × Option MemFault
  | [] => (s, 0, none)
  | (lo, n) :: t =>
    let b := addrAdd a (BitVec.ofNat 64 lo)
    match clSpot s core g eng b n align true with
    | (s, .error f) => (s, 0, some (opFaultOf f b true))
    | (s, .ok sp) =>
      let s := clWrite s core n (v / 2 ^ (8 * lo) % 2 ^ (8 * n)) sp
      match clWriteParts s core g eng a align v t with
      | (s, k, f) => (s, k + 1, f)

/-! ## The operations (R339, R340) -/

/-- red(i): the i-th elements of the contributions combined by tree() over the ranks. -/
def collRed (p : Nat × Nat × Nat × Nat × Nat × Nat) (elems : List Nat) : Nat :=
  (treeRed (patOp (p.2.2.1 + 8 * p.2.1)) 11 (elems.map some)).getD 0

/-- The list of a TOPK contribution in registers. -/
def topList (w v : Nat) : List Ranked :=
  presentOf (if w = 32 then .int 32 else .int 16) ((below 3).map (fun j => BitVec.ofNat 1024 (v / 2 ^ (1024 * j))))

/-- Entries of two lists in the order of R340: by R267, then as they stood, lower rank and place first. -/
def topMerge (t : EType) (ncut : Nat) (ls : List (List Ranked)) : List Vec :=
  let e := sortBy (rankBefore t) ls.flatten
  listOf t ((e.take ncut).map some)

/-- A list of equal-sized pieces as one number, the first lowest. -/
def packNat (w : Nat) : List Nat → Nat
  | [] => 0
  | x :: t => x % 2 ^ w + 2 ^ w * packNat w t

/-- The result of rank r from the contributions by rank. -/
def collResult (p : Nat × Nat × Nat × Nat × Nat × Nat) (cs : List Nat) (r : Nat) : Nat :=
  let w := 8 * typeBytes p.2.2.1
  let count := p.2.2.2.1
  let red (i : Nat) : Nat := collRed p (cs.map (fun c => c / 2 ^ (w * i) % 2 ^ w))
  match p.1 with
  | 0 => packNat w ((below count).map red)
  | 1 => packNat w ((upFrom (r * (count / cs.length)) (count / cs.length)).map red)
  | 2 => packNat (w * count) cs
  | 3 => cs.getD p.2.2.2.2.2 0
  | _ => packNat 1024 ((topMerge (typeOf p.2.2.1) p.2.2.2.2.1 (cs.map (topList w))).map (·.toNat))

/-! ## Instances (R338, R341, R342) -/

/-- Only the root's source is read by BCAST (R339). -/
def contributes (p : Nat × Nat × Nat × Nat × Nat × Nat) (rank : Nat) : Bool := p.1 != 3 || rank == p.2.2.2.2.2

/-- The contribution of a rank once the instance has committed; another package's comes from outside. -/
def CollInst.contribution (i : CollInst) (at_ r : Nat) : Nat :=
  match i.members.find? (fun m => m.rank == r) with
  | some m => m.data.getD 0
  | none =>
    match i.members with
    | m :: _ => packNat 8 ((below (srcBytes m.params)).map (fun j => Config.remote at_ r j))
    | [] => 0

/-- s with the instance of a key changed. -/
def State.modColl (s : State) (k : CollKey) (f : CollInst → CollInst) : State :=
  { s with coll := s.coll.map (fun i => if i.key = k then f i else i) }

/-- The instance that the running operation of a gang's port belongs to, with its member. -/
def runningColl (s : State) (g : Gang) : Option (CollInst × CollMember) :=
  s.coll.findSome? (fun i =>
    if i.key.handle = g.info.handle ∧ i.key.squad = g.info.squad then
      (i.members.find? (fun m => m.pos == g.info.pos && !m.finished)).map (fun m => (i, m))
    else none)

/-- All of this package's members of an instance have started and contributed. -/
def CollInst.gathered (i : CollInst) : Bool :=
  i.members.length == groupSize i.key && i.members.all (fun m => m.data.isSome)
/-- Their lookups are over (R362). (DEDUCED, log 80) -/
def CollInst.arrivedAll (i : CollInst) (now : Nat) : Bool := i.members.all (fun m => decide (m.ready ≤ now))

/-- The members disagree, or the peer context is missing, or REDSCAT does not divide (R338). -/
def CollInst.mismatched (i : CollInst) : Bool :=
  match i.members with
  | [] => false
  | m :: t => i.npkg == 0 || t.any (fun n => n.params != m.params) || (m.params.1 == 1 && m.params.2.2.2.1 % i.size != 0)

/-- A member stands on a fenced core (R342). -/
def CollInst.lost (i : CollInst) (s : State) : Bool :=
  s.cores.any (fun c => c.fenced && (match c.gang with
    | some g => g.info.handle == i.key.handle && g.info.squad == i.key.squad && i.key.mask.getLsbD g.info.pos
    | none => false))

/-- Connections to the other packages of a group: number PEER, one for each package. -/
def peerConn (peer rank : Nat) : Nat := peer + 256 * rank

/-- A package of the group is unreachable (R342). -/
def CollInst.unreachable (i : CollInst) (s : State) : Bool :=
  decide (1 < i.npkg) && (below i.npkg).any (fun r => r != i.prank && (kfind s.hub.conns (peerConn i.key.peer r)).isNone)

/-- The failing event of an open instance other than its timeout. -/
def CollInst.failing (i : CollInst) (s : State) : Option Nat :=
  if i.fate ≠ .waiting ∨ i.members = [] then none
  else if i.mismatched then some 3
  else if i.members.any (fun m => m.data.isNone) then some 4
  else if i.lost s then some 2
  else if i.unreachable s then some 5
  else none

/-- The first open instance with a failing event, and its cause. -/
def collFailing (s : State) : Option (CollKey × Nat) := s.coll.findSome? (fun i => (i.failing s).map (fun c => (i.key, c)))

/-- An instance is at its commit point: the contributions of every member are held. -/
def CollInst.atCommit (i : CollInst) (now : Nat) (outside : Bool) : Bool :=
  i.fate == .waiting && i.gathered && i.arrivedAll now && (if outside then decide (1 < i.npkg) else i.npkg == 1)

/-- COLLECTIVE_COMMIT: the first instance that holds every contribution commits; of a group over several packages, once this package's
members have contributed and the outside world brings the others' contributions. (DESIGN CHOICE, log 30) -/
def execCollectiveCommit (s : State) : Out :=
  let best := match s.coll.find? (·.atCommit s.cycle false) with
    | some i => some i
    | none => s.coll.find? (·.atCommit s.cycle true)
  match best with
  | some i => .next (s.modColl i.key (fun i => { i with fate := .done s.cycle }))
  | none => .next s

/-- The event behind a failure has happened: of a group over several packages the outside world brings the failures that arise at members
of the others (R342); of any other the members here show it. (DESIGN CHOICE, log 30) -/
def CollInst.mayFail (i : CollInst) (s : State) (cause : Nat) : Bool :=
  i.fate == .waiting && ((i.key.pen && decide (1 ≤ cause ∧ cause ≤ 5)) || i.failing s == some cause)

/-- COLLECTIVE_FAIL: an open instance fails, with the same cause for every member; a later event changes nothing for it.
(DESIGN CHOICE, log 30) -/
def execCollectiveFail (key : CollKey) (cause : Nat) (s : State) : Out :=
  .next (s.modColl key (fun i => if i.mayFail s cause then { i with fate := .failed cause s.cycle } else i))

/-- Some member's TIMEOUT has passed. -/
def CollInst.timedOut (i : CollInst) (now : Nat) : Bool :=
  i.fate == .waiting && i.members.any (fun m => decide (m.started + m.timeout ≤ now))

/-- COLLECTIVE_TIMEOUT: the first instance with a member whose TIMEOUT has passed fails with cause 1. -/
def execCollectiveTimeout (s : State) : Out :=
  match s.coll.find? (·.timedOut s.cycle) with
  | some i => .next (s.modColl i.key (fun i => { i with fate := .failed 1 s.cycle }))
  | none => .next s

/-! ## Completion of a member (R341, R343) -/

/-- Lines of the larger span of a member. -/
def UnitOp.collLines (o : UnitOp) (size : Nat) : Nat :=
  let p := o.collParams
  max (lineParts (o.reg 0).toNat (srcBytes p)).length (lineParts (o.reg 1).toNat (dstBytes p size)).length

/-- The status record. -/
def statusRecord (i : CollInst) (m : CollMember) : Nat :=
  let sc : Nat × Nat := match i.fate with
    | .done _ => (1, 0)
    | .failed c _ => (2, c)
    | .waiting => (0, 0)
  sc.1 + 2 ^ 32 * sc.2 + 2 ^ 48 * (i.size % 65536) + 2 ^ 64 * (i.key.number % 2 ^ 32) + 2 ^ 96 * (m.rank % 2 ^ 32)

/-- The cycle in which a member writes its record. -/
def collDue (s : State) (asid : Nat) (i : CollInst) (m : CollMember) (o : UnitOp) : Option Nat :=
  let miss := max (collMiss s asid (o.reg 5) 16) (match i.fate with
    | .done _ => collMiss s asid (o.reg 1) (dstBytes o.collParams i.size)
    | _ => 0)
  match i.fate with
  | .waiting => none
  | .done at_ => some (at_ + 300 + 2 * o.collLines i.size + miss + Config.contention at_ (freeTag 43 m.core 0 m.pos))
  | .failed _ at_ => some (max at_ m.started + 300 + miss + Config.contention at_ (freeTag 43 m.core 0 m.pos))

/-- Line parts of a member's writes: its result, then the record. -/
def collWrites (i : CollInst) (o : UnitOp) : List (Bool × Nat × Nat) :=
  (match i.fate with
    | .done _ => (lineParts (o.reg 1).toNat (dstBytes o.collParams i.size)).map (fun p => (true, p))
    | _ => []) ++ (lineParts (o.reg 5).toNat 16).map (fun p => (false, p))

/-- A line that the port is about to write waits for a release of its page under way (R367), or for a sector that a commit has locked
(R308). -/
def collWaits (s : State) (asid : Nat) (i : CollInst) (o : UnitOp) : Bool :=
  ((collWrites i o).drop o.chunk).any (fun (p : Bool × Nat × Nat) =>
    let a := addrAdd (o.reg (if p.1 then 1 else 5)) (BitVec.ofNat 64 p.2.1)
    let va := a.toNat % 2 ^ 48
    tagOf a == 0 && (s.releasing asid va ||
      (s.commits != [] && (match peekLine s 224 asid va false true with
        | some l => s.locked (128 * l + va % 128) p.2.2
        | none => false))))

/-- The port of a core has its next writes or its baton due. -/
def collReady (s : State) (core : Nat) : Option (CollInst × CollMember × UnitOp) :=
  match s.gang core with
  | none => none
  | some g =>
    match g.cl.queue, runningColl s g with
    | o :: _, some (i, m) =>
      if o.started.isSome && o.fault.isNone && g.st != .preempted && g.st != .cancelled && !collWaits s g.info.asid i o then
        match collDue s g.info.asid i m o with
        | some t =>
          let late := match i.fate with
            | .failed _ _ => true
            | _ => false
          if late && decide ((collWrites i o).length ≤ o.chunk) then
            (if o.lastLand + 1 ≤ s.cycle then some (i, m, o) else none)
          else if t ≤ s.cycle then some (i, m, o) else none
        | none => none
      else none
    | _, _ => none

/-- The member is done: its operation leaves the port and its baton is set; an instance whose members are all done is forgotten. -/
def State.endColl (s : State) (core : Nat) (i : CollInst) (m : CollMember) (o : UnitOp) : State :=
  let s := s.modGang core (fun g => (g.modUnit 3 (fun u => { u with queue := u.queue.drop 1 })).setBaton o.baton)
  let s := s.modColl i.key (fun i => { i with members := i.members.map (fun n => if n.pos = m.pos then { n with finished := true } else n) })
  { s with coll := s.coll.filter (fun j => !(j.key == i.key && j.members.length == groupSize j.key && j.members.all (·.finished))) }

/-- Where n bytes at a port's address lie, as stretches of places (R323, R343). -/
def clPlaces (s : State) (g : Gang) (a : Word) (n : Nat) : List (Place × Nat) :=
  if tagOf a = 2 then [((1, g.info.pos, (a.extractLsb' 24 4).toNat, (a.extractLsb' 0 22).toNat), n)]
  else (partsBy 65536 (a.toNat % 2 ^ 48) n).map (fun p =>
    ((match peekPa s 224 g.info.asid ((a.toNat + p.1) % 2 ^ 48) false false with
      | some pa => (0, 0, 0, pa)
      | none => (3, 0, 0, (a.toNat + p.1) % 2 ^ 48)), p.2))

/-- Two stretches of places have a byte in common. -/
def stretchMeets (p q : Place × Nat) : Bool :=
  p.1.1 == q.1.1 && p.1.2.1 == q.1.2.1 && p.1.2.2.1 == q.1.2.2.1 && decide (p.1.2.2.2 < q.1.2.2.2 + q.2) && decide (q.1.2.2.2 < p.1.2.2.2 + p.2)

/-- CL_SRC and CL_DST of a member overlap: the bytes of its result are undefined (R343). (DESIGN CHOICE, log 82) -/
def UnitOp.collOverlap (o : UnitOp) (s : State) (g : Gang) (size : Nat) : Bool :=
  (clPlaces s g (o.reg 0) (srcBytes o.collParams)).any (fun p =>
    (clPlaces s g (o.reg 1) (dstBytes o.collParams size)).any (stretchMeets p))

/-- The result of a member, undefined where it overlaps the contribution (R343). (DESIGN CHOICE, log 82) -/
def memberResult (s : State) (g : Gang) (i : CollInst) (m : CollMember) (o : UnitOp) (at_ : Nat) : Nat :=
  if o.collOverlap s g i.size then
    bytesVal ((below (dstBytes o.collParams i.size)).map (fun j =>
      BitVec.ofNat 8 (Config.freeVec s.free (freeTag 45 m.core (j / 2 ^ 12) (j % 2 ^ 12))).toNat))
  else collResult o.collParams ((below i.size).map (i.contribution at_)) m.rank

/-- COLLECTIVE_MEMBER_COMPLETE: the port of the core writes its result and its record, and sets its baton: at once when DONE, a cycle
after the record when FAILED. A fault stops it at the faulting line. -/
def execCollectiveMemberComplete (s : State) : Out :=
  let core := s.ctx.core
  match collReady s core, s.gang core with
  | some (i, m, o), some g =>
    let writes := collWrites i o
    if writes.length ≤ o.chunk then .next (s.endColl core i m o)
    else
      let todo := writes.drop o.chunk
      let res := match i.fate with
        | .done at_ => memberResult s g i m o at_
        | _ => 0
      let x := clWriteParts s core g o.engine (o.reg 1) (typeBytes o.collParams.2.2.1) res ((todo.filter (·.1)).map (·.2))
      let y : State × Nat × Option MemFault := match x.2.2 with
        | some f => (x.1, 0, some f)
        | none => clWriteParts x.1 core g o.engine (o.reg 5) 16 (statusRecord i m) ((todo.filter (fun (p : Bool × Nat × Nat) => !p.1)).map (·.2))
      let o' := { o with chunk := o.chunk + x.2.1 + y.2.1, lastLand := s.cycle }
      match y.2.2 with
      | some f => .next (y.1.modGang core (fun g =>
          (g.modHead 3 (fun _ => { o' with fault := some f })).badBaton (faultedBaton o.opcode o.baton f)))
      | none =>
        let t := y.1.modGang core (fun g => g.modHead 3 (fun _ => o'))
        match i.fate with
        | .failed _ _ => .next t
        | _ => .next (t.endColl core i m o')
  | _, _ => .next s

/-! ## Starting (R154, R338) -/

/-- The peer context of an operation: this package's place and the packages of the group. -/
def groupOf (s : State) (o : UnitOp) : Nat × Nat :=
  if o.pen then
    match kfind s.peers o.peer with
    | some c => (c.prank, c.packages.length)
    | none => (0, 0)
  else (0, 1)

/-- The port's operation, which has just started, joins its instance: it takes its number, and its contribution is read. -/
def State.joinColl (s : State) (core : Nat) (o : UnitOp) : State :=
  match s.gang core with
  | none => s
  | some g =>
    let n := (kfind g.clCount o.identity).getD 0
    let s := s.modGang core (fun g => { g with clCount := kput g.clCount o.identity (n + 1) })
    let key : CollKey := { handle := g.info.handle, squad := g.info.squad, mask := BitVec.ofNat 32 o.mask, pen := o.pen, peer := o.peer, number := n }
    let grp := groupOf s o
    let s := if s.coll.any (fun i => i.key == key) then s
      else { s with coll := s.coll ++ [{ key, prank := grp.1, npkg := grp.2 }] }
    match s.coll.find? (fun i => i.key == key) with
    | none => s
    | some i =>
      let p := o.collParams
      let rank := i.rankOf g.info.pos
      let mem (d : Option Nat) : CollMember :=
        { core, pos := g.info.pos, rank, started := s.cycle, timeout := o.timeout, params := p, data := d
          ready := s.cycle + if contributes p rank then collMiss s g.info.asid (o.reg 0) (srcBytes p) else 0 }
      let doomed := ({ i with members := i.members ++ [mem (some 0)] } : CollInst).failing s
      let x : State × Except MemFault Nat := if i.fate = .waiting ∧ doomed.isNone ∧ contributes p rank then
          clReadParts s core g o.engine (o.reg 0) (typeBytes p.2.2.1) (lineParts (o.reg 0).toNat (srcBytes p))
        else (s, .ok 0)
      match x with
      | (s, .ok v) => s.modColl key (fun i => { i with members := i.members ++ [mem (some v)] })
      | (s, .error f) =>
        (s.modColl key (fun i => { i with members := i.members ++ [mem none] })).modGang core (fun g =>
          (g.modHead 3 (fun o => { o with fault := some f })).badBaton (faultedBaton o.opcode o.baton f))

/-- ENGINE_OP_START: the next operation of the named unit starts, its batons consumed; or a faulted baton makes it faulted.
(DEDUCED, log 29) -/
def execEngineOpStart (s : State) : Out :=
  let unit := s.ctx.unit
  match startKind s s.ctx.core unit with
  | .no => .next s
  | .start =>
    let started := slotGang s (fun g =>
      if unit = 2 then
        match iwNextStart s s.ctx.core g with
        | some (o, _) =>
          let g := { g.clearBatons o.consumes with iwOps := g.iwOps.map (fun (p : IwOp) => if p.id = o.id then { p with started := some s.cycle } else p) }
          g.mapAct o.engines (fun _ en => { en with walks := en.walks.map (fun (w : WalkOp) => if w.id = o.id then { w with started := some s.cycle } else w) })
        | none => g
      else
        match (g.unit unit).queue with
        | o :: _ => (g.clearBatons o.consumes).modHead unit (fun o => { o with started := some s.cycle })
        | [] => g)
    match started, s.gang s.ctx.core with
    | .next t, some g =>
      (match unit, g.cl.queue with
       | 3, o :: _ => .next (t.joinColl s.ctx.core { o with started := some s.cycle })
       | _, _ => .next t)
    | out, _ => out
  | .bad f => slotGang s (fun g =>
      if unit = 2 then
        match iwNextStart s s.ctx.core g with
        | some (o, _) =>
          { g with iwOps := g.iwOps.map (fun (p : IwOp) => if p.id = o.id then { p with fault := some f.mem } else p) }.badBaton { f with baton := o.baton }
        | none => g
      else
        match (g.unit unit).queue with
        | o :: _ => (g.modHead unit (fun o => { o with fault := some f.mem })).badBaton { f with baton := o.baton }
        | [] => g)

end Sys2Proof.Machine
end

