-- ==== Sys2Proof/Machine/Limb.lean ====
section
/-! DEFINITION. The limb chain (R283-R295): BIND and the six chain instructions over the chains of each engine or group of engines. -/
namespace Sys2Proof.Machine

/-- Limbs of a chain under a code 1-9 of R283. -/
def limbCount (c : Nat) : Nat := 2 ^ c
/-- Engines of a group under a code. -/
def bindEngs (c : Nat) : Nat := if c ≤ 5 then 1 else 2 ^ (c - 5)
/-- The engines of a group. -/
def groupMask (base n : Nat) : Mask := engRange base (base + n - 1)

/-- BIND: every group that an active engine belongs to must be live and active; the binding is there from the next cycle on. -/
def execBind (f : VFields) (s : State) : Out :=
  slotGang s (fun g =>
    let n := bindEngs f.c.toNat
    let grp (k : Nat) : Mask := groupMask (k / n * n) n
    let bad := (maskList s.act).filter (fun k => grp k &&& s.act &&& g.live ≠ grp k)
    if 1 < n ∧ bad ≠ [] then g.raiseEngs s 0xFF (bad.map (fun k => (k, plainFault .bindDiverge 0x11)))
    else g.mapAct s.act (fun k en => en.land s.cycle 1 (.bind (k / n * n) n f.c.toNat)))

/-- The first check of R289 that engine k fails. -/
def limbReason (s : State) (f : VFields) (k : Nat) (en : Engine) : Option Nat :=
  let grp := groupMask en.bind.base en.bind.engs
  if en.bind.code = 0 then some 2
  else if f.m ≠ 0 ∧ (readE s k en f.m.toNat).setWidth 32 ≠ BitVec.allOnes 32 then some 3
  else if grp &&& s.act ≠ grp then some 4
  else none

/-- A register of a chain group as one number: the engines' registers, the base engine's least significant. -/
def groupVal (rd : Nat → Vec) (base n : Nat) : Nat :=
  (below n).foldl (fun acc j => acc + (rd (base + j)).toNat * 2 ^ (1024 * j)) 0

/-- The result of one chain: its new value, the high word of VLMUL, and the three condition bits. -/
structure ChainRes where
  r : Nat
  h : Nat := 0
  c0 : Bool := false
  c1 : Bool := false
  c2 : Bool := false
  deriving DecidableEq, Repr

/-- The chain instructions, whose pops fault under any lane mask (R289): op takes the chain's width in bits, X(A), X(B) and the scalar of B (R290). wide writes D, high also
D + 1, and cond the bits of R291 in e[C]. -/
def limb (s : State) (f : VFields) (codes : List Nat) (wide high cond : Bool) (op : Nat → Nat → Nat → Nat → ChainRes) : Out :=
  slotGang s (fun g =>
    let g' := g.raisePopsWith s (fun _ => true) codes (fun k =>
      (limbReason s f k (g.eng k)).toList.map (fun r => plainFault .bindDiverge (0x20 + r)))
    if g'.raised.length ≠ g.raised.length then g'
    else g.mapAct s.act (fun k en =>
      let b := en.bind
      let bits := 32 * limbCount b.code
      let chains := if b.engs = 1 then 1024 / bits else 1
      let own := k - b.base
      let x := groupVal (fun j => srcA s f j (g.eng j) (.int 32)) b.base b.engs
      let y := groupVal (fun j => srcB s f j (g.eng j) (.int 32)) b.base b.engs
      let rs := (below chains).map (fun j =>
        let lo := 2 ^ (bits * j)
        (j, op bits (x / lo % 2 ^ bits) (y / lo % 2 ^ bits) (y / lo % 2 ^ 32)))
      let whole := rs.foldl (fun acc r => acc + r.2.r % 2 ^ bits * 2 ^ (bits * r.1)) 0
      let highs := rs.foldl (fun acc r => acc + r.2.h % 2 ^ 32 * 2 ^ (bits * r.1)) 0
      let lat := 8 + 3 * (b.engs - 1)
      let put (en : Engine) (d v : Nat) : Engine :=
        en.land s.cycle lat (.v d (BitVec.allOnes 1024) (BitVec.ofNat 1024 (v / 2 ^ (1024 * own))))
      let en := if wide then put en f.d.toNat whole else en
      let en := if high then put en (f.d.toNat + 1) highs else en
      let conds := rs.foldl (fun acc r => acc + r.2.c0.toNat * 2 ^ r.1 + r.2.c1.toNat * 2 ^ (16 + r.1) + r.2.c2.toNat * 2 ^ (32 + r.1)) 0
      let en := if cond && f.c != 0 && k == b.base + b.engs - 1 then en.writeE s.cycle lat f.c.toNat (BitVec.ofNat 64 conds) else en
      en.pops s.cycle codes))

/-- The signed reading of a chain overflows. -/
def signedOut (v : Int) (n : Nat) : Bool := decide (v < -(2 ^ (n - 1) : Nat)) || decide ((2 ^ (n - 1) : Nat) ≤ v)

/-- VLADD (R290): Adds limb chains with carry and overflow. -/
def execVladd (f : VFields) (s : State) : Out :=
  limb s f [] true false true (fun n x y _ =>
    { r := (x + y) % 2 ^ n, c0 := decide (2 ^ n ≤ x + y), c1 := signedOut (sextN x n + sextN y n) n })
/-- VLSUB (R290): Subtracts limb chains with borrow and overflow. -/
def execVlsub (f : VFields) (s : State) : Out :=
  limb s f [] true false true (fun n x y _ =>
    { r := bitsI ((x : Int) - y) n, c0 := decide (x < y), c1 := signedOut (sextN x n - sextN y n) n })
/-- VLSHL (R290): Shifts limb chains left. -/
def execVlshl (f : VFields) (s : State) : Out :=
  limb s f [f.b.toNat] true false false (fun n x _ w => { r := if n ≤ w then 0 else x * 2 ^ w % 2 ^ n })
/-- VLSHR (R290): Shifts limb chains right, logically or arithmetically. -/
def execVlshr (f : VFields) (s : State) : Out :=
  limb s f [f.b.toNat] true false false (fun n x _ w =>
    { r := if f.c = 1 then bitsI (Int.fdiv (sextN x n) (2 ^ min w n : Nat)) n else if n ≤ w then 0 else x / 2 ^ w })
/-- VLCMP (R290): Compares limb chains into an e-register. -/
def execVlcmp (f : VFields) (s : State) : Out :=
  limb s f [] false false true (fun n x y _ =>
    { r := 0, c0 := decide (x < y), c1 := x == y, c2 := decide (sextN x n < sextN y n) })
/-- VLMUL (R290): Multiplies limb chains by a word into D and D + 1. -/
def execVlmul (f : VFields) (s : State) : Out :=
  limb s f [f.b.toNat] true true false (fun n x _ w => { r := x * w % 2 ^ n, h := x * w / 2 ^ n })

end Sys2Proof.Machine
end

