-- ==== Sys2Proof/Machine/Matrix.lean ====
section
/-! DEFINITION. The matrix array and the ceiling store (R245-R266): multiplies, the tile port, the repeat prefix, and the table loads
of the K slot. The results of an X instruction stand in the engine as an XOp and land whole at their completion (R255). A bundle's
repeat reaches its X slot in the step's subject: unit 1 for RX = 1, and value for s[RCNT]. -/
namespace Sys2Proof.Machine

/-! ## Frame and faults (R248, R264) -/

/-- DETAIL of an X-slot fault. -/
def xDetail (op reason : Nat) (tag : Bool) (h : BitVec 3) : Nat := 256 * op + 16 * reason + (if tag then 8 else 0) + h.toNat

/-- The frame of every X-slot meaning: the checks of the active engines raise their faults, or each engine performs. -/
def xSlot (s : State) (check : Gang → Nat → Engine → Option MemFault) (f : Gang → Nat → Engine → Engine) : Out :=
  slotGang s (fun g =>
    match (maskList s.act).filterMap (fun k => (check g k (g.eng k)).map (fun e => (k, e))) with
    | [] => g.mapAct s.act (fun k en => f g k en)
    | bad => g.raiseEngs s 0xFF bad)

/-- Repetitions of the X slot (R262). -/
def State.repeats (s : State) : Nat := if s.ctx.unit = 1 then s.ctx.value.toNat else 1

/-- Busy bits of tiles and latches set until a cycle (R253). -/
def Engine.setBusy (en : Engine) (ids : List Nat) (until_ : Nat) : Engine :=
  { en with busy := ids.foldl (fun b i => kput b i (max (sget 0 b i) until_)) en.busy }

/-- PACKB of a shape word (R248). -/
def shapePack (h : Word) : Bool := h.getLsbD 32

/-- Rows of 32-byte units that hold n bytes. -/
def up32 (n : Nat) : Nat := (n + 31) / 32 * 32

/-- The lowest offset at or beyond a limit among the bytes of rows of len bytes. -/
def lowBad (limit len : Nat) (offs : List Nat) : Option Nat :=
  ((offs.filter (fun o => decide (limit < o + len))).map (fun o => max o limit)).foldl
    (fun m o => match m with
      | none => some o
      | some x => some (min x o)) none

/-- An address of the same space with its low bits replaced. -/
def withOffset (a : Word) (off : Nat) : Word := (a &&& 0xF000000000000000#64) ||| BitVec.ofNat 64 (off % 2 ^ 60)

/-! ## Values (R115, R247) -/

/-- val() of an array operand under a type code: an integer, or a floating value. -/
def arrVal (t b : Nat) : FVal :=
  match typeArr t with
  | .int w => let x := sextN b w; .fin (decide (x < 0)) x.natAbs 0
  | .flt f => fval f b
where
  /-- The element type of a code of R97. -/
  typeArr (t : Nat) : EType := etype (BitVec.ofNat 3 t)

/-- One step of R123: the products are added to the accumulator and the sum is rounded once. -/
def arrStep (acc : Nat) (products : List (Option FVal)) : Nat :=
  (sumRound .fp32 .rne (some (fval .fp32 acc) :: products) false).1

/-- A tile with the elements below m and n replaced by f of them; the others are unchanged. -/
def mapTile (rows : List (BitVec 2048)) (m n : Nat) (f : Nat → Nat → Nat → Nat) : List (BitVec 2048) :=
  (below 64).map (fun i =>
    let r := rows.getD i 0
    if i < m then
      BitVec.ofNat 2048 ((below 64).foldl (fun acc j =>
        acc ||| ((if j < n then f i j (fieldAt r 32 j) else fieldAt r 32 j) % 2 ^ 32) <<< (32 * j)) 0)
    else r)

/-- Tile i as the X slot reads it. -/
def Engine.tileRows (en : Engine) (i : Nat) : List (BitVec 2048) := (below 64).map (fun m => sget 0 en.c (64 * i + m))
/-- The rows of tile or latch id (latch i is 8 + i) at their keys. -/
def keyed (id : Nat) (rows : List (BitVec 2048)) : List (Nat × BitVec 2048) :=
  ((below rows.length).zip rows).map (fun r => (64 * id + r.1, r.2))

/-- Byte o of row m in the latches from l on (R251). -/
def Engine.latchByte (en : Engine) (l m o : Nat) : Nat := fieldAt (sget 0 en.l (64 * (l + o / 256) + m)) 8 (o % 256)
/-- A[m][k] in the latches from l on, of size sA. -/
def Engine.latchVal (en : Engine) (l t sA m k : Nat) : FVal :=
  arrVal t (if sA = 2 then en.latchByte l m (2 * k) + 256 * en.latchByte l m (2 * k + 1) else en.latchByte l m k)

/-! ## The array operations (R249, R256-R259, R262) -/

/-- The fields that MMA, MMAS and MMAR share; sA is 1 for a rank map. -/
structure ArrFields where
  op : Nat
  c : BitVec 3
  l : BitVec 2
  h : BitVec 3
  r : BitVec 5
  sA : Nat
  fb : Nat
  inc : BitVec 1
  cinc : BitVec 1
  deriving DecidableEq, Repr

/-- Bytes of n elements of B. -/
def ArrFields.bytesB (f : ArrFields) (n : Nat) : Nat := if f.fb = 6 then (n + 1) / 2 else if f.fb = 1 then 2 * n else n
/-- The row pitch of B. -/
def ArrFields.pitch (f : ArrFields) (h : Word) : Nat := if shapePack h then up32 (f.bytesB (shapeN h)) else f.bytesB 64
/-- Rows of B that one repetition reads. -/
def ArrFields.rowsB (f : ArrFields) (h : Word) : Nat := if f.op = 2 then shapeK h / 2 else shapeK h
/-- Latches that A takes. -/
def ArrFields.latches (f : ArrFields) (h : Word) : Nat := (shapeK h * f.sA + 255) / 256

/-- The address of B in repetition j. -/
def ArrFields.addr (f : ArrFields) (s : State) (k : Nat) (en : Engine) (j : Nat) : Word :=
  let a := readA s k en f.r.toNat
  if f.inc = 1 then addrAdd a (BitVec.ofNat 64 j * (readSt s k en f.r.toNat).signExtend 64) else a

/-- The reason of R248 that an engine's shape fails, 0 where it passes. -/
def ArrFields.shapeReason (f : ArrFields) (s : State) (g : Gang) (k : Nat) (en : Engine) : Nat :=
  let h := readH s k en f.h.toNat
  let sb := (readSb s k en).toNat
  if en.capRows < shapeM h then 1
  else if 4 < f.l.toNat + f.latches h then 2
  else if f.op = 2 ∧ shapeK h % 4 ≠ 0 then 3
  else if 4096 < s.repeats ∨ (f.cinc = 1 ∧ 8 < s.repeats) then 4
  else if f.op = 2 ∧ (sb % 4 ≠ 0 ∨ 4 * g.stencil.length < sb + shapeK h) then 5
  else 0

/-- The checks of one engine at issue (R248, R249): shape, tag, alignment, range of every repetition. (DEDUCED, log 15) -/
def ArrFields.check (f : ArrFields) (s : State) (g : Gang) (k : Nat) (en : Engine) : Option MemFault :=
  let h := readH s k en f.h.toNat
  let a := readA s k en f.r.toNat
  let bad (code : GFault) (tag : Bool) (va : Word) : Option MemFault :=
    some { code, vaddr := va, lanes := 0, detail := xDetail f.op 0 tag f.h }
  let off (b : Word) : Nat := b.toNat % 2 ^ 22
  let reason := f.shapeReason s g k en
  if s.repeats = 0 then none
  else if reason ≠ 0 then some (plainFault .shape (xDetail f.op reason false f.h))
  else if tagOf a ≠ 4 then bad .scratchRange true a
  else if off a % 32 ≠ 0 ∨ (f.inc = 1 ∧ (readSt s k en f.r.toNat).toNat % 32 ≠ 0) then bad .alignment false a
  else
    let len := f.bytesB (shapeN h)
    let out := (below s.repeats).filterMap (fun j =>
      let b := f.addr s k en j
      if b.extractLsb' 28 32 ≠ 0 ∨ b.extractLsb' 22 2 ≠ 0 then some b
      else if off b + (f.rowsB h - 1) * f.pitch h + len ≤ g.info.ceilSize then none
      else (lowBad g.info.ceilSize len ((below (f.rowsB h)).map (fun i => off b + i * f.pitch h))).map
        (fun o => (b &&& 0xFFFFFFFFFFC00000#64) + BitVec.ofNat 64 o))
    match out with
    | [] => none
    | b :: t => bad .scratchRange false (t.foldl (fun m x => if x.toNat < m.toNat then x else m) b)

/-- B[i][n] in the ceiling at an offset: i counts rows as stored (R249). -/
def ArrFields.elemB (f : ArrFields) (en : Engine) (cb : BitVec 256) (pitch base i n : Nat) : FVal :=
  let at_ := base + i * pitch
  if f.fb = 6 then
    fval .bf16 (fieldAt cb 16 ((sget 0 en.ceil (at_ + n / 2)).toNat / 16 ^ (n % 2) % 16))
  else if f.fb = 1 then arrVal 1 (loadBytes en.ceil (at_ + 2 * n) 2)
  else arrVal f.fb (sget 0 en.ceil (at_ + n)).toNat

/-- The steps of element (m, n) over a repetition whose B elements are given (R123, R256, R258, R259). -/
abbrev ArrSteps := (Nat → Nat → FVal) → Nat → Nat → List (List (Option FVal))

/-- A tile after one repetition. -/
def arrRepeat (rows : List (BitVec 2048)) (h : Word) (steps : ArrSteps) (b : Nat → Nat → FVal) : List (BitVec 2048) :=
  mapTile rows (shapeM h) (shapeN h) (fun m n acc => (steps b m n).foldl arrStep acc)

/-- The tiles that n repetitions from j on complete, in order: with CINC each its own (R262). -/
def arrTiles (f : ArrFields) (h : Word) (steps : ArrSteps) (b : Nat → Nat → Nat → FVal) (en : Engine) :
    Nat → Nat → List (BitVec 2048) → List (Nat × List (BitVec 2048))
  | 0, _, _ => []
  | n + 1, j, rows =>
    let c := if f.cinc = 1 then (f.c.toNat + j) % 8 else f.c.toNat
    let rows := arrRepeat (if f.cinc = 1 then en.tileRows c else rows) h steps (b j)
    (c, rows) :: arrTiles f h steps b en n (j + 1) rows

/-- Every row of a tile, or of latch id - 8, undefined. -/
def freeRows (s : State) (core k id : Nat) : List (Nat × BitVec 2048) :=
  (below 64).map (fun m => (64 * id + m, Config.freeVec s.free (freeTag 65 core k (128 * id + 2 * m)) ++
    Config.freeVec s.free (freeTag 65 core k (128 * id + 2 * m + 1))))

/-- The offset of the first word in a poisoned sector of the scratchpad, or of the ceiling from sector `base` on, among the bytes that an
X-slot operation reads: offsets and lengths (R265, R405). (DEDUCED, log 47) -/
def Engine.badWord (en : Engine) (base : Nat) (reads : List (Nat × Nat)) : Option Nat :=
  if en.poison.isEmpty then none
  else (reads.flatMap (fun r => upFrom (r.1 / 8) ((r.1 + r.2 - 1) / 8 + 1 - r.1 / 8))).find? (fun w => sget 0 en.poison (base + w / 4) == 1#1)
    |>.map (8 * ·)

/-- An array operation of stream time S in one engine. What has read a poisoned word lands undefined rows (R265). -/
def Engine.arrIssue (en : Engine) (s : State) (k : Nat) (f : ArrFields) (cb : BitVec 256) (steps : ArrSteps) (stream : Nat) : Engine :=
  let h := readH s k en f.h.toNat
  let n := s.repeats
  let b (j : Nat) : Nat → Nat → FVal := f.elemB en cb (f.pitch h) ((f.addr s k en j).toNat % 2 ^ 22)
  let tiles := arrTiles f h steps b en n 0 (en.tileRows f.c.toNat)
  let bad (j : Nat) : Option Nat := en.badWord ceilSector ((below (f.rowsB h)).map (fun i =>
    ((f.addr s k en j).toNat % 2 ^ 22 + i * f.pitch h, f.bytesB (shapeN h))))
  let op (j : Nat) (due : Nat) (t : Nat × List (BitVec 2048)) : XOp :=
    let bad := if f.cinc = 1 then bad j else (below n).findSome? bad
    { issued := s.cycle, due, serial := en.serial, opcode := f.op, rows := if bad.isSome then freeRows s s.ctx.core k t.1 else keyed t.1 t.2
      load := none, bad := bad.map (fun o => BitVec.ofNat 64 (4 * 2 ^ 60 + o)) }
  let done : List (Nat × (Nat × List (BitVec 2048))) :=
    if f.cinc = 1 then ((below n).zip tiles).map (fun t => (s.cycle + 20 + (t.1 + 1) * stream, t.2))
    else (tiles.getLast?).elim [] (fun t => [(s.cycle + 20 + n * stream, t)])
  let en' := { en with
    xops := en.xops ++ ((below done.length).zip done).map (fun (d : Nat × Nat × (Nat × List (BitVec 2048))) => op d.1 d.2.1 d.2.2),
    arrayFree := s.cycle + n * stream, serial := en.serial + 1 }
  let en' := done.foldl (fun (en : Engine) (d : Nat × (Nat × List (BitVec 2048))) => en.setBusy [d.2.1] d.1) en'
  let en' := en'.setBusy ((below (f.latches h)).map (fun i => 8 + f.l.toNat + i)) (s.cycle + n * stream)
  if f.inc = 1 then en'.land s.cycle 1 (.a f.r.toNat false (f.addr s k en n)) else en'

/-- The frame of the array operations: a count of 0 performs nothing. -/
def arrOp (s : State) (f : ArrFields) (cb : Nat → Engine → BitVec 256)
    (steps : Gang → Nat → Engine → Word → ArrSteps × Nat) : Out :=
  xSlot s (f.check s) (fun g k en =>
    if s.repeats = 0 then en
    else
      let x := steps g k en (readH s k en f.h.toNat)
      en.arrIssue s k f (cb k en) x.1 x.2)

/-- MMA (R256): each step is one product, or two with CB4. -/
def execMma (c : BitVec 3) (l : BitVec 2) (h : BitVec 3) (r : BitVec 5) (a b : BitVec 3) (i t : BitVec 1) (k : BitVec 2)
    (s : State) : Out :=
  let sA := if a = 1 then 2 else 1
  arrOp s { op := 1, c, l, h, r, sA, fb := b.toNat, inc := i, cinc := t } (fun e en => readCb s e en k.toNat)
    (fun _ _ en w =>
      let kk := shapeK w
      let per := if b = 6 then 2 else 1
      (fun bel m n => (below ((kk + per - 1) / per)).map (fun q =>
          ((upFrom (per * q) per).filter (fun x => x < kk)).map (fun x => mulVal (en.latchVal l.toNat a.toNat sA m x) (bel x n))),
       if b = 6 then (kk + 1) / 2 else if a = 1 then 2 * kk else kk))

/-- The two kept offsets of a nibble of the stencil (R257), lowest first. -/
def keptOf (nibble : Nat) : List Nat := ((below 4).filter (fun b => nibble.testBit b)).take 2

/-- MMAS (R258). -/
def execMmas (c : BitVec 3) (l : BitVec 2) (h : BitVec 3) (r : BitVec 5) (a b : BitVec 3) (i t : BitVec 1) (s : State) : Out :=
  arrOp s { op := 2, c, l, h, r, sA := 1, fb := b.toNat, inc := i, cinc := t } (fun _ _ => 0)
    (fun g k en w =>
      let sb := (readSb s k en).toNat
      let kept (j n : Nat) : List Nat := keptOf ((g.stencil.getD (sb / 4 + j) 0).toNat / 16 ^ (n / 8) % 16)
      (fun bel m n => (below (shapeK w / 4)).map (fun j =>
          ((below 2).zip (kept j n)).map (fun x => mulVal (en.latchVal l.toNat a.toNat 1 m (4 * j + x.2)) (bel (2 * j + x.1) n))),
       shapeK w / 2))

/-- MMAR (R259): the rows that have ranked k take a step for it. -/
def execMmar (c : BitVec 3) (l : BitVec 2) (h : BitVec 3) (r : BitVec 5) (b : BitVec 3) (i t n : BitVec 1) (s : State) : Out :=
  arrOp s { op := 3, c, l, h, r, sA := 1, fb := b.toNat, inc := i, cinc := t } (fun _ _ => 0)
    (fun _ k en w =>
      let table := readAtt s k en n.toNat
      let entry (m x : Nat) : Nat := en.latchByte l.toNat m x
      let ranked := (below (shapeK w)).filter (fun x => (below (shapeM w)).any (fun m => (entry m x).testBit 7))
      (fun bel m col => (ranked.filter (fun x => (entry m x).testBit 7)).map (fun x =>
          [mulVal (fval .bf16 (elemAt table 16 (entry m x % 64))) (bel x col)]),
       ranked.length))

/-! ## The tile port (R251, R252, R260, R261) -/

/-- Cycles that a scratchpad read of the tile port takes (R254). -/
def XLoad.time (x : XLoad) : Nat := (if x.kind = 1 then 24 else 16) + x.m

/-- Tiles and latches that a read of the tile port writes. -/
def XLoad.ids (x : XLoad) : List Nat :=
  if x.kind = 2 then [x.dst] else (below ((x.bytes + 255) / 256)).map (fun i => 8 + x.dst + i)

/-- The rank map of a code (R252): its bytes below K. -/
def rankMap (code : List Nat) (kk : Nat) : List Nat :=
  let used := code.takeWhile (fun i => i != 0xFFFF)
  (below kk).map (fun x => match used.findIdx? (fun i => i == x) with
    | some q => 0x80 + q
    | none => 0)

/-- The rows that a read of the tile port gives, as it finds scratchpad and registers. -/
def XLoad.rows (x : XLoad) (en : Engine) : List (Nat × BitVec 2048) :=
  let row (m : Nat) : Nat := ((x.off : Int) + (m : Int) * x.pitch).toNat
  if x.kind = 2 then
    keyed x.dst (mapTile (en.tileRows x.dst) x.m x.n (fun m n _ => loadBytes en.scratch (row m + 4 * n) 4))
  else
    let bytesOfRow (m : Nat) : List Nat :=
      if x.kind = 0 then (below x.bytes).map (fun o => (sget 0 en.scratch (row m + o)).toNat)
      else rankMap ((below x.ncut).map (fun q => loadBytes en.scratch (row m + 2 * q) 2)) x.bytes
    (below x.m).flatMap (fun m =>
      let bs := bytesOfRow m
      (below ((x.bytes + 255) / 256)).map (fun i =>
        let key := 64 * (x.dst + i) + m
        let part := (bs.drop (256 * i)).take 256
        let v := part.foldr (fun b acc => b + 256 * acc) 0
        let mask := BitVec.ofNat 2048 (2 ^ (8 * part.length) - 1)
        (512 + key, mergeBits (sget 0 en.l key) mask (BitVec.ofNat 2048 v))))

/-- What a read of the tile port gives when it is made: its rows, all of them undefined where it meets a poisoned word, and that word's
address (R265). -/
def XLoad.give (x : XLoad) (s : State) (core k : Nat) (en : Engine) : List (Nat × BitVec 2048) × Option Word :=
  let len := if x.kind = 2 then 4 * x.n else if x.kind = 0 then x.bytes else 2 * x.ncut
  match en.badWord 0 ((below x.m).map (fun (m : Nat) => (((x.off : Int) + (m : Int) * x.pitch).toNat, len))) with
  | some o => (x.ids.flatMap (freeRows s core k), some (BitVec.ofNat 64 (2 ^ 60 + o)))
  | none => (x.rows en, none)

/-- A read of the tile port: made at once where the marks before it let it, else held until they do (R261). -/
def Engine.portLoad (en : Engine) (s : State) (g : Gang) (k op : Nat) (x : XLoad) : Engine :=
  let now := mayPerform s s.ctx.core g k en.serial 7 .load
  let due := s.cycle + x.time + (if now then 0 else 1)
  let got := if now then x.give s s.ctx.core k en else ([], none)
  let x' : XOp := { issued := s.cycle, due, serial := en.serial, opcode := op, rows := got.1, load := if now then none else some x
                    bad := got.2 }
  ({ en with xops := en.xops ++ [x'], portFree := due, serial := en.serial + 1 }).setBusy x.ids due

/-- The checks of a scratchpad access of the tile port: tag 1, alignment of the offset and of the stride, range of every row. -/
def portCheck (g : Gang) (a : Word) (op : Nat) (h : BitVec 3) (stride : Int) (rows len : Nat) : Option MemFault :=
  let bad (code : GFault) (tag : Bool) (va : Word) : Option MemFault :=
    some { code, vaddr := va, lanes := 0, detail := xDetail op 0 tag h }
  let off : Nat := a.toNat % 2 ^ 60
  if tagOf a ≠ 1 then bad .scratchRange true a
  else if off % 32 ≠ 0 ∨ stride.emod 32 ≠ 0 then bad .alignment false a
  else
    match lowBad g.info.spSize len ((below rows).map (fun (m : Nat) => (((off : Int) + (m : Int) * stride).emod (2 ^ 60)).toNat)) with
    | none => none
    | some o => bad .scratchRange false (withOffset a o)

/-- The post-increment of an X instruction. -/
def Engine.xInc (en : Engine) (s : State) (k r : Nat) (i : BitVec 1) (a : Word) : Engine :=
  if i = 0 then en else en.land s.cycle 1 (.a r false (addrAdd a ((readSt s k en r).signExtend 64)))

/-- LATLD, plain (R251). -/
def execLatld (l : BitVec 2) (h : BitVec 3) (r : BitVec 5) (a : BitVec 3) (i : BitVec 1) (s : State) : Out :=
  let sA := if a = 1 then 2 else 1
  let bytes (k : Nat) (en : Engine) : Nat := shapeK (readH s k en h.toNat) * sA
  let rows (k : Nat) (en : Engine) : Nat := shapeM (readH s k en h.toNat)
  xSlot s (fun g k en =>
      if 4 < l.toNat + (bytes k en + 255) / 256 then some (plainFault .shape (xDetail 4 2 false h))
      else portCheck g (readA s k en r.toNat) 4 h (up32 (bytes k en)) (rows k en) (bytes k en))
    (fun g k en =>
      let v := readA s k en r.toNat
      (en.portLoad s g k 4 { kind := 0, dst := l.toNat, m := rows k en, n := 0, bytes := bytes k en, off := v.toNat % 2 ^ 60,
                             pitch := up32 (bytes k en), ncut := 0 }).xInc s k r.toNat i v)

/-- LATLD in rank-expand mode (R252). -/
def execLatldRank (l : BitVec 2) (h : BitVec 3) (r : BitVec 5) (i : BitVec 1) (n : BitVec 6) (s : State) : Out :=
  let ncut := n.toNat + 1
  let kk (k : Nat) (en : Engine) : Nat := shapeK (readH s k en h.toNat)
  let rows (k : Nat) (en : Engine) : Nat := shapeM (readH s k en h.toNat)
  xSlot s (fun g k en =>
      if 4 < l.toNat + (kk k en + 255) / 256 then some (plainFault .shape (xDetail 4 2 false h))
      else portCheck g (readA s k en r.toNat) 4 h (up32 (2 * ncut)) (rows k en) (2 * ncut))
    (fun g k en =>
      let v := readA s k en r.toNat
      (en.portLoad s g k 4 { kind := 1, dst := l.toNat, m := rows k en, n := 0, bytes := kk k en, off := v.toNat % 2 ^ 60,
                             pitch := up32 (2 * ncut), ncut }).xInc s k r.toNat i v)

/-- A result of the tile port that takes time cycles: tile c gets rows; the tiles ids are busy. -/
def Engine.portWrite (en : Engine) (s : State) (op time c : Nat) (ids : List Nat) (rows : List (BitVec 2048)) : Engine :=
  let x : XOp := { issued := s.cycle, due := s.cycle + time, serial := en.serial, opcode := op, rows := keyed c rows, load := none }
  { en with xops := en.xops ++ [x], portFree := s.cycle + time, serial := en.serial + 1 }.setBusy ids (s.cycle + time)

/-- TZERO: the whole tile. -/
def execTzero (c : BitVec 3) (s : State) : Out :=
  xSlot s (fun _ _ _ => none) (fun _ _ en => en.portWrite s 5 4 c.toNat [c.toNat] (List.replicate 64 0))

/-- TLD (R260). -/
def execTld (c h : BitVec 3) (r : BitVec 5) (s : State) : Out :=
  let stride (k : Nat) (en : Engine) : Int := (readSt s k en r.toNat).toInt
  xSlot s (fun g k en =>
      let w := readH s k en h.toNat
      portCheck g (readA s k en r.toNat) 6 h (stride k en) (shapeM w) (4 * shapeN w))
    (fun g k en =>
      let w := readH s k en h.toNat
      en.portLoad s g k 6 { kind := 2, dst := c.toNat, m := shapeM w, n := shapeN w, bytes := 0,
                            off := (readA s k en r.toNat).toNat % 2 ^ 60, pitch := stride k en, ncut := 0 })

/-- TST (R260): one entry of the store queue, complete when the tile has been read. A full queue is tested before the port's tag,
alignment and range. (DEDUCED, log 15) -/
def execTst (c h : BitVec 3) (r : BitVec 5) (s : State) : Out :=
  xSlot s (fun g k en =>
      let w := readH s k en h.toNat
      if !en.room 2 1 then some (plainFault .queueOverflow (xDetail 7 0 false h))
      else portCheck g (readA s k en r.toNat) 7 h (readSt s k en r.toNat).toInt (shapeM w) (4 * shapeN w))
    (fun _ k en =>
      let w := readH s k en h.toNat
      let a := readA s k en r.toNat
      let st := (readSt s k en r.toNat).signExtend 64
      let pieces := (below (shapeM w)).flatMap (fun m => (below (shapeN w)).map (fun n =>
        { lane := 0, bytes := 4, data := fieldAt (sget 0 en.c (64 * c.toNat + m)) 32 n
          addr := addrAdd a (BitVec.ofNat 64 m * st + BitVec.ofNat 64 (4 * n)) : Piece }))
      let acc : Access := { kind := .long, opcode := 7, sizeCode := 2, write := true, scope := 0, block := false, pieces, data := 0, cmp := 0 }
      let t := 4 + shapeM w
      let e : SQEntry := { serial := en.serial, acc, marker := none, completeAt := s.cycle + t, issued := s.cycle }
      { en with sq := en.sq ++ [e], portFree := s.cycle + t, serial := en.serial + 1 }.setBusy [c.toNat] (s.cycle + t))

/-- TADD (R260, R124). -/
def execTadd (c h t : BitVec 3) (s : State) : Out :=
  xSlot s (fun _ _ _ => none) (fun _ k en =>
    let w := readH s k en h.toNat
    let src := en.tileRows t.toNat
    en.portWrite s 8 (8 + shapeM w) c.toNat [c.toNat, t.toNat] (mapTile (en.tileRows c.toNat) (shapeM w) (shapeN w)
      (fun m n x => (sumRound .fp32 .rne [some (fval .fp32 x), some (fval .fp32 (fieldAt (src.getD m 0) 32 n))] false).1)))

/-- TSCL (R260, R124). -/
def execTscl (c h : BitVec 3) (n : BitVec 2) (s : State) : Out :=
  xSlot s (fun _ _ _ => none) (fun _ k en =>
    let w := readH s k en h.toNat
    let sc := readSc s k en n.toNat
    en.portWrite s 9 (8 + shapeM w) c.toNat [c.toNat] (mapTile (en.tileRows c.toNat) (shapeM w) (shapeN w)
      (fun _ j x => (sumRound .fp32 .rne [mulVal (fval .fp32 x) (fval .fp32 (fieldAt sc 32 j))] false).1)))

/-! ## What an X instruction waits for (R35, R253) -/

/-- The tiles and latches that an X instruction reads or writes in an engine, whether it takes the compute array, and the opcode's
repetitions. -/
def xTouches (s : State) (k : Nat) (en : Engine) (i : Instr) : List Nat × Bool :=
  let lat (l : BitVec 2) (bytes : Nat) : List Nat := ((below ((bytes + 255) / 256)).map (fun j => 8 + l.toNat + j)).filter (fun j => j < 12)
  let kOf (h : BitVec 3) : Nat := shapeK (readH s k en h.toNat)
  let tiles (c : BitVec 3) (t : BitVec 1) : List Nat :=
    if t = 1 then (below (min 8 s.repeats)).map (fun j => (c.toNat + j) % 8) else [c.toNat]
  match i with
  | .mma c l h _ a _ _ t _ => (tiles c t ++ lat l (kOf h * (if a = 1 then 2 else 1)), true)
  | .mmas c l h _ _ _ _ t => (tiles c t ++ lat l (kOf h), true)
  | .mmar c l h _ _ _ t _ => (tiles c t ++ lat l (kOf h), true)
  | .latld l h _ a _ => (lat l (kOf h * (if a = 1 then 2 else 1)), false)
  | .latldRank l h _ _ _ => (lat l (kOf h), false)
  | .tzero c => ([c.toNat], false)
  | .tld c _ _ => ([c.toNat], false)
  | .tst c _ _ => ([c.toNat], false)
  | .tadd c _ t => ([c.toNat, t.toNat], false)
  | .tscl c _ _ => ([c.toNat], false)
  | _ => ([], false)

/-- The X instruction of a bundle must wait in some active engine (wait 2 of R35). A count of 0 waits for nothing. -/
def xWaits (s : State) (g : Gang) (i : Instr) : Bool :=
  s.repeats != 0 && (maskList s.act).any (fun k =>
    let en := g.eng k
    let x := xTouches s k en i
    decide (s.cycle < (if x.2 then en.arrayFree else en.portFree)) || x.1.any (fun id => decide (s.cycle < sget 0 en.busy id)))

/-! ## Completion (R255) -/

/-- Rows take their places: tiles below key 512, latches above. -/
def Engine.putXRows (en : Engine) (rows : List (Nat × BitVec 2048)) : Engine :=
  rows.foldl (fun en r => if r.1 < 512 then { en with c := sput 0 en.c r.1 r.2 } else { en with l := sput 0 en.l (r.1 - 512) r.2 }) en

/-- An X operation completes in this cycle. -/
def XOp.isDue (x : XOp) (now : Nat) : Bool := x.load.isNone && decide (x.due ≤ now)

/-- ARRAY_OP_COMPLETE: the tile and latch rows of an operation of the named engine land whole, here and in the checkpoint that was
taken while it ran; one that has read a poisoned word halts the gang (R265). (DEDUCED, log 15) -/
def execArrayOpComplete (s : State) : Out :=
  slotGang s (fun g =>
    let k := s.ctx.engine
    match (g.eng k).xops.find? (fun x => x.isDue s.cycle) with
    | none => g
    | some x =>
      let old (c : Option Ckpt) : Option Ckpt := c.map (fun c =>
        if x.issued < c.at_ then { c with engines := c.engines.map (fun e =>
          if e.1 = k then (k, { e.2.putXRows x.rows with xops := e.2.xops.filter (fun y => y.serial != x.serial || (y.due != x.due && y.load.isNone)) }) else e) } else c)
      let g := { g.modEng k (fun en => { en.putXRows x.rows with xops := en.xops.filter (fun y => y.serial != x.serial || y.due != x.due) }) with
        ckptP := old g.ckptP, ckptS := old g.ckptS }
      (match x.bad with
       | some va => g.poisonHalt k 8 va
       | none => g))

/-- The reads of the tile port that a fence or QSYNC holds back: each begins in the first cycle in which it may, and its busy time
grows until then (R261). -/
def State.tickPort (s : State) (core : Nat) : State :=
  match s.gang core with
  | none => s
  | some g =>
    s.putGang core { g with engines := ((below g.engines.length).zip g.engines).map (fun e =>
      let en := e.2
      if en.xops.all (fun x => x.load.isNone) then en
      else
        let step (en : Engine) (x : XOp) : Engine × XOp :=
          match x.load with
          | none => (en, x)
          | some ld =>
            let now := mayPerform s core g e.1 x.serial 7 .load
            let due := s.cycle + ld.time + (if now then 0 else 1)
            (({ en with portFree := max en.portFree due }).setBusy ld.ids due,
             let got := if now then ld.give s core e.1 en else ([], none)
             { x with due, rows := got.1, load := if now then none else some ld, bad := got.2 })
        en.xops.foldl (fun acc x => let r := step acc x; { r.1 with xops := r.1.xops ++ [r.2] }) { en with xops := [] }) }

/-! ## Table loads of the K slot (R263) -/

/-- A table load: one result of each active engine from v288 + A, 3 cycles later. -/
def tableLoad (s : State) (a : BitVec 5) (pay : Vec → EPay) : Out :=
  slotGang s (fun g => g.mapAct s.act (fun k en => en.land s.cycle 3 (pay (readV s k en (288 + a.toNat)))))

/-- CBLD (R263): Loads a codebook. -/
def execCbld (a : BitVec 5) (t : BitVec 3) (s : State) : Out := tableLoad s a (fun v => .cb t.toNat (v.extractLsb' 0 256))
/-- SCLD (R263): Loads half of a column scale vector. -/
def execScld (a : BitVec 5) (t : BitVec 3) (h : BitVec 1) (s : State) : Out := tableLoad s a (fun v => .sc t.toNat (h = 1) v)
/-- ATLD (R278). -/
def execAtld (a : BitVec 5) (t : BitVec 3) (s : State) : Out := tableLoad s a (fun v => .att t.toNat v)
/-- STBS (R263): Sets the stencil base. -/
def execStbs (a : BitVec 5) (s : State) : Out := tableLoad s a (fun v => .sb (v.extractLsb' 0 32))

end Sys2Proof.Machine
end

