-- ==== Sys2Proof/Machine/SpecialFn.lean ====
section
/-! DEFINITION. The special-function unit (R225-R232). The exact result of a function is found to 448 fractional bits; the value
returned is one that the function's error bound allows, chosen by a fixed function of opcode and input that the manual leaves to the
implementation (R227); special inputs, exact cases, overflow and flags are the manual's. -/
namespace Sys2Proof.Machine

/-! ## Fixed-point functions -/

/-- Fractional bits of the fixed-point values below. -/
abbrev fixP : Nat := 448
/-- One. -/
def fixOne : Int := 2 ^ fixP
/-- Product and quotient of fixed-point values. -/
def fixMul (a b : Int) : Int := Int.fdiv (a * b) fixOne
def fixDiv (a b : Int) : Int := Int.fdiv (a * fixOne) b

/-- A power series by the ratio of its terms: n more terms from term t of index i. -/
def series (ratio : Nat → Int → Int) (weigh : Nat → Int → Int) (n i : Nat) (t acc : Int) : Int :=
  match n with
  | 0 => acc
  | n + 1 => series ratio weigh n (i + 1) (ratio i t) (acc + weigh i t)

/-- ln of a value from 1 to 2, by 2·artanh((x − 1)/(x + 1)). -/
def fixLn (x : Int) : Int :=
  let t := fixDiv (x - fixOne) (x + fixOne)
  let t2 := fixMul t t
  2 * series (fun _ u => fixMul u t2) (fun i u => Int.fdiv u (2 * i + 1)) 150 0 t 0
/-- ln 2. -/
def fixLn2 : Int := fixLn (2 * fixOne)
/-- e^x for |x| at most 1. -/
def fixExp (x : Int) : Int := series (fun i u => Int.fdiv (fixMul u x) (i + 1)) (fun _ u => u) 100 0 fixOne 0
/-- arctan(1/n). -/
def fixAtan (n : Int) : Int :=
  series (fun _ u => -(Int.fdiv u (n * n))) (fun i u => Int.fdiv u (2 * i + 1)) 120 0 (Int.fdiv fixOne n) 0
/-- π, by Machin's formula. -/
def fixPi : Int := 16 * fixAtan 5 - 4 * fixAtan 239
/-- sin and cos of an angle from 0 to π/2. -/
def fixSin (x : Int) : Int :=
  series (fun i u => -(Int.fdiv (fixMul u (fixMul x x)) ((2 * i + 2) * (2 * i + 3)))) (fun _ u => u) 80 0 x 0
def fixCos (x : Int) : Int :=
  series (fun i u => -(Int.fdiv (fixMul u (fixMul x x)) ((2 * i + 1) * (2 * i + 2)))) (fun _ u => u) 80 0 fixOne 0

/-- The integer square root, bit by bit from bit n − 1. -/
def isqrtBits (n x r : Nat) : Nat :=
  match n with
  | 0 => r
  | n + 1 => isqrtBits n x (if (r + 2 ^ n) * (r + 2 ^ n) ≤ x then r + 2 ^ n else r)
/-- The integer square root of a number below 2^2048. -/
def isqrt (x : Nat) : Nat := isqrtBits 1024 x 0

/-- A truncated value with a sticky bit below: it rounds as the exact one does. -/
def sticky (q : Int) (e : Int) : Dy := ⟨2 * q + 1, e - 1⟩
/-- A fixed-point value of an irrational result. -/
def ofFix (q : Int) : Dy := sticky q (-(fixP : Int))

/-! ## Exact results (R228) -/

/-- The value as fixed point; exact for every FP32 value below 2^299 in magnitude that is a multiple of 2^-448. -/
def toFix (x : Dy) : Int := x.at (-(fixP : Int))

/-- 1/x and whether it is exact. -/
def rcpExact (x : Dy) : Dy × Bool :=
  let n := x.m.natAbs
  let q : Int := 2 ^ 64 / n
  let r : Dy := if 2 ^ 64 % n = 0 then ⟨q, -64 - x.e⟩ else sticky q (-64 - x.e)
  (if x.m < 0 then r.neg else r, 2 ^ 64 % n == 0)

/-- √x, and 1/√x, of a positive value. -/
def sqrtExact (x : Dy) : Dy × Bool :=
  let odd := x.e % 2 = 1
  let m := (if odd then 2 * x.m.natAbs else x.m.natAbs) * 2 ^ 80
  let e := ((if odd then x.e - 1 else x.e) - 80) / 2
  let r := isqrt m
  if r * r = m then (⟨r, e⟩, true) else (sticky r e, false)
def rsqExact (x : Dy) : Dy × Bool :=
  let odd := x.e % 2 = 1
  let m := if odd then 2 * x.m.natAbs else x.m.natAbs
  let e := if odd then x.e - 1 else x.e
  let q := isqrt (2 ^ 160 / m)
  if q * q * m = 2 ^ 160 then (⟨q, -80 - e / 2⟩, true) else (sticky q (-80 - e / 2), false)

/-- 2^x: an integer x is exact; far below every format the value is a small one. -/
def exp2Exact (x : Dy) : Dy × Bool :=
  if Dy.lt x ⟨-400, 0⟩ then (⟨1, -400⟩, false)
  else if Dy.lt ⟨400, 0⟩ x then (⟨1, 400⟩, false)
  else
    let f := toFix x
    let n := Int.fdiv f fixOne
    let r := f - n * fixOne
    if r = 0 then (⟨1, n⟩, true) else (sticky (fixExp (fixMul r fixLn2)) (n - fixP), false)

/-- log₂ of a positive value: a power of two is exact. -/
def log2Exact (x : Dy) : Dy × Bool :=
  let k := Nat.log2 x.m.natAbs
  let m := toFix ⟨x.m, -(k : Int)⟩
  let n := x.e + k
  if m = fixOne then (⟨n, 0⟩, true) else (ofFix (n * fixOne + fixDiv (fixLn m) fixLn2), false)

/-- tanh of a value; beyond 32 one stand-in just below 1, so all these inputs of one sign give one value. (DESIGN CHOICE, log 11) -/
def tanhExact (x : Dy) : Dy × Bool :=
  let a := x.abs
  let y : Dy :=
    if Dy.lt ⟨32, 0⟩ a then ofFix (fixOne - 2 ^ 300)
    else
      let z := 2 * toFix a
      let n := Int.fdiv z fixLn2
      let ex := Int.fdiv (fixExp (n * fixLn2 - z)) (2 ^ n.toNat)
      ofFix (fixDiv (fixOne - ex) (fixOne + ex))
  (if x.m < 0 then y.neg else y, false)

/-- sin 2πx, shifted by a number of quarter turns: quarter points are exact. -/
def turnExact (x : Dy) (quarters : Int) : Dy × Bool :=
  let f := if 0 ≤ x.e then 0 else toFix ⟨x.m % 2 ^ (-x.e).toNat, x.e⟩
  let r := Int.fmod f fixOne + quarters * (fixOne / 4)
  let q := Int.fdiv r (fixOne / 4) % 4
  let t := Int.fmod r (fixOne / 4)
  let ang := 2 * fixMul fixPi t
  if t = 0 then (⟨if q = 0 ∨ q = 2 then 0 else if q = 1 then 1 else -1, 0⟩, true)
  else
    let y := if q = 0 ∨ q = 2 then ofFix (fixSin ang) else ofFix (fixCos ang)
    (if q ≤ 1 then y else y.neg, false)

/-- erf of a value; beyond 6 one stand-in just below 1, so all these inputs of one sign give one value. (DESIGN CHOICE, log 11) -/
def erfExact (x : Dy) : Dy × Bool :=
  let a := x.abs
  let y : Dy :=
    if Dy.lt ⟨6, 0⟩ a then ofFix (fixOne - 2 ^ 300)
    else
      let z := toFix a
      let z2 := fixMul z z
      let sum := series (fun i u => -(Int.fdiv (fixMul u z2) (i + 1))) (fun i u => Int.fdiv u (2 * i + 1)) 330 0 z 0
      ofFix (fixDiv (2 * sum) ((isqrt (fixPi * fixOne).toNat : Nat) : Int))
  (if x.m < 0 then y.neg else y, false)

/-- The exact result of the function with opcode 1-9 on a finite input that R229 does not list, and whether it is a number the
fixed point holds exactly. -/
def sfExact (op : Nat) (x : Dy) : Dy × Bool :=
  match op with
  | 1 => rcpExact x
  | 2 => rsqExact x
  | 3 => sqrtExact x
  | 4 => exp2Exact x
  | 5 => log2Exact x
  | 6 => tanhExact x
  | 7 => turnExact x 0
  | 8 => turnExact x 1
  | _ => erfExact x

/-! ## Special inputs (R229) -/

/-- A zero or an infinity of a format with a sign. -/
def zeroOf (f : FFmt) (neg : Bool) : Nat := if neg then f.signBit else 0
def infOf (f : FFmt) (neg : Bool) : Nat := zeroOf f neg + f.infEnc
/-- One with a sign. -/
def oneOf (f : FFmt) (neg : Bool) : Nat := zeroOf f neg + f.bias * 2 ^ f.mbits

/-- The listed result and flags of a special input. -/
def sfSpecial (op : Nat) (f : FFmt) (v : FVal) : Option (Nat × Nat) :=
  let bad := some (f.dnan, flagNV)
  match v with
  | .nan s => some (f.dnan, if s then flagNV else 0)
  | .inf n =>
    match op with
    | 1 => some (zeroOf f n, 0)
    | 2 => if n then bad else some (0, 0)
    | 3 => if n then bad else some (f.infEnc, 0)
    | 4 => if n then some (0, 0) else some (f.infEnc, 0)
    | 5 => if n then bad else some (f.infEnc, 0)
    | 6 => some (oneOf f n, 0)
    | 7 => bad
    | 8 => bad
    | _ => some (oneOf f n, 0)
  | .fin n 0 _ =>
    match op with
    | 1 => some (infOf f n, flagDZ)
    | 2 => some (infOf f n, flagDZ)
    | 4 => some (oneOf f false, 0)
    | 5 => some (infOf f true, flagDZ)
    | 8 => some (oneOf f false, 0)
    | _ => some (zeroOf f n, 0)
  | .fin n m e =>
    let x : Dy := ⟨m, e⟩
    let part (k : Nat) : Bool := e < 0 && m * k % 2 ^ (-e).toNat != 0
    match op with
    | 2 => if n then bad else none
    | 3 => if n then bad else none
    | 5 => if n then bad else if x.eqv ⟨1, 0⟩ then some (0, 0) else none
    | 7 => if part 2 then none else some (zeroOf f n, 0)
    | 8 => if !part 4 && part 2 then some (0, 0) else none
    | _ => none

/-! ## The returned value (R227, R228) -/

/-- The value of an FP32 magnitude pattern. -/
def val32 (p : Nat) : Dy := (fval .fp32 p).dy
/-- The exact result from which on a function may return the FP32 magnitude p on one monotonic piece: free within 4 ulp of p.
(DESIGN CHOICE, log 11) -/
def sfFrom (op piece p : Nat) : Dy :=
  (val32 p).add ⟨(Config.sfPick op piece p % 2 ^ 259 : Nat) - (2 ^ 258 : Int), ((val32 p).ulp .fp32).e - 256⟩

/-- The least value that a monotonic function within 2 ulp may return for y: an ulp counts half below a power of two. -/
def sfLow (y : Dy) : Dy :=
  let u := y.ulp .fp32
  let k := leadExp y.m.natAbs y.e
  let d := y.add ⟨-2, u.e⟩
  let b := (Dy.mk 1 k).add ⟨-1, u.e⟩
  if FFmt.fp32.emin < k ∧ Dy.lt d b then b else d

/-- A magnitude that the function has reached at y, on the way up: it must have been, or it lies within 2 ulp and its turn has come. -/
def sfReached (op piece : Nat) (y : Dy) (p : Nat) : Bool :=
  p == 0 || (val32 (p - 1)).lt (sfLow y) ||
    (!(y.add ⟨2, (y.ulp .fp32).e⟩).lt (val32 p) && !y.lt (sfFrom op piece p))

/-- The monotonic piece of a function that an input lies on: the sign of the input, for SINT and COST the quarter turn. -/
def sfPiece (op : Nat) (x : Dy) : Nat :=
  let n : Int := if op = 7 ∨ op = 8 then Int.fdiv (toFix x) (fixOne / 4) else if x.m < 0 then -1 else 1
  2 * n.natAbs + (if n < 0 then 1 else 0)

/-- The FP32 magnitude for an exact result of magnitude y that no FP32 value equals: correctly rounded; one of the two that bracket
it; or one within 2 ulp and no more than 1. It never falls as y rises on one piece (R228). (DESIGN CHOICE, log 11) -/
def sfMag (op piece : Nat) (y : Dy) : Nat :=
  let lo := (roundZ .fp32 .rtz false y).1
  let hi := min (roundZ .fp32 .rup false y).1 FFmt.fp32.maxEnc
  if op = 3 ∨ (op = 4 ∧ Dy.lt y ⟨1, -126⟩) then (roundZ .fp32 .rne false y).1
  else if op ≤ 5 then (if y.lt (sfFrom op piece hi) then lo else hi)
  else min (oneOf .fp32 false) (((upFrom (lo - 4) 9).filter (sfReached op piece y)).foldl max 0)

/-- The FP32 pattern that the function gives for an exact result y of input x: its sign is y's, also where the magnitude returned is
0. (DESIGN CHOICE, log 11) -/
def sfPattern (op : Nat) (x y : Dy) (exact : Bool) : Nat :=
  let a := y.abs
  let lo := (roundZ .fp32 .rtz false a).1
  zeroOf .fp32 (decide (y.m < 0)) + (if exact && (val32 lo).eqv a then lo else sfMag op (sfPiece op x) a)

/-- The function on one element of format f: its value and flags. (DESIGN CHOICE, log 11) -/
def sfElem (op : Nat) (f : FFmt) (b : Nat) : Nat × Nat :=
  match sfSpecial op f (fval f b) with
  | some r => r
  | none =>
    let z := sfExact op (fval f b).dy
    let y := z.1
    let big := roundZ f .rne false y
    if big.2 / flagOF % 2 = 1 then big
    else
      let g32 := sfPattern op (fval f b).dy y z.2
      let neg := decide (y.m < 0)
      let g0 := if f = .fp32 then g32 else (roundZ f .rne neg (fval .fp32 g32).dy).1
      let g := if g0 % f.signBit = f.infEnc then g0 - 1 else g0
      let same := z.2 && (fval f g).dy.eqv y
      let small := Dy.lt (fval f g).dy.abs ⟨1, f.emin⟩
      (g, if same then 0 else flagNX + (if small then flagUF else 0))

/-- The format that the F slot's T names. -/
def fmtF (t : BitVec 2) : FFmt := if t = 0 then .fp32 else if t = 1 then .bf16 else .fp16

/-- The frame of a function: the enabled elements of v288 + A below W/w, landing in v288 + D with their flags (R226). -/
def sfOp (op lat : Nat) (w t : BitVec 2) (d a : BitVec 5) (m : BitVec 3) (s : State) : Out :=
  slotGang s (fun g => g.mapAct s.act (fun k en =>
    let f := fmtF t
    let x := readV s k en (288 + a.toNat)
    en.writeFlagged s.cycle lat (288 + d.toNat) f.size
      ((onElems s k en m f.size (wBits w.toNat / f.size)).map (fun i => (i, sfElem op f (elemAt x f.size i))))))

/-- RCP (R228): Reciprocal. -/
def execRcp (w t : BitVec 2) (d a : BitVec 5) (m : BitVec 3) (s : State) : Out := sfOp 1 8 w t d a m s
/-- RSQ (R228): Reciprocal square root. -/
def execRsq (w t : BitVec 2) (d a : BitVec 5) (m : BitVec 3) (s : State) : Out := sfOp 2 8 w t d a m s
/-- SQRT (R228): Square root, correctly rounded. -/
def execSqrt (w t : BitVec 2) (d a : BitVec 5) (m : BitVec 3) (s : State) : Out := sfOp 3 8 w t d a m s
/-- EXP2 (R228): Power of two. -/
def execExp2 (w t : BitVec 2) (d a : BitVec 5) (m : BitVec 3) (s : State) : Out := sfOp 4 10 w t d a m s
/-- LOG2 (R228): Base-2 logarithm. -/
def execLog2 (w t : BitVec 2) (d a : BitVec 5) (m : BitVec 3) (s : State) : Out := sfOp 5 10 w t d a m s
/-- TANH (R228): Hyperbolic tangent. -/
def execTanh (w t : BitVec 2) (d a : BitVec 5) (m : BitVec 3) (s : State) : Out := sfOp 6 12 w t d a m s
/-- SINT (R228): Sine of 2 pi x. -/
def execSint (w t : BitVec 2) (d a : BitVec 5) (m : BitVec 3) (s : State) : Out := sfOp 7 12 w t d a m s
/-- COST (R228): Cosine of 2 pi x. -/
def execCost (w t : BitVec 2) (d a : BitVec 5) (m : BitVec 3) (s : State) : Out := sfOp 8 12 w t d a m s
/-- ERF (R228): Error function. -/
def execErf (w t : BitVec 2) (d a : BitVec 5) (m : BitVec 3) (s : State) : Out := sfOp 9 12 w t d a m s

end Sys2Proof.Machine
end

