-- ==== Sys2Proof/Machine/Slots.lean ====
section
/-! DEFINITION. What the instruction in a slot of a bundle does when its bundle issues: its meaning. An event stands in no slot,
and leaves the machine as it is. -/
namespace Sys2Proof.Machine

/-- The effect of a slot instruction in the slot that the step names. -/
def slotExec (i : Instr) (s : State) : Out :=
  match i with
  | .addSr e d a b => execAddSr e d a b s
  | .addSi e d a i2 => execAddSi e d a i2 s
  | .subSr e d a b => execSubSr e d a b s
  | .subSi e d a i2 => execSubSi e d a i2 s
  | .mulSr e d a b => execMulSr e d a b s
  | .mulSi e d a i2 => execMulSi e d a i2 s
  | .mulhSr e d a b u => execMulhSr e d a b u s
  | .mulhSi e d a i2 => execMulhSi e d a i2 s
  | .divSr e d a b u => execDivSr e d a b u s
  | .divSi e d a i2 => execDivSi e d a i2 s
  | .remSr e d a b u => execRemSr e d a b u s
  | .remSi e d a i2 => execRemSi e d a i2 s
  | .andSr e d a b => execAndSr e d a b s
  | .andSi e d a i2 => execAndSi e d a i2 s
  | .orSr e d a b => execOrSr e d a b s
  | .orSi e d a i2 => execOrSi e d a i2 s
  | .xorSr e d a b => execXorSr e d a b s
  | .xorSi e d a i2 => execXorSi e d a i2 s
  | .andnSr e d a b => execAndnSr e d a b s
  | .andnSi e d a i2 => execAndnSi e d a i2 s
  | .shlSr e d a b => execShlSr e d a b s
  | .shlSi e d a i2 => execShlSi e d a i2 s
  | .shrSr e d a b => execShrSr e d a b s
  | .shrSi e d a i2 => execShrSi e d a i2 s
  | .sraSr e d a b => execSraSr e d a b s
  | .sraSi e d a i2 => execSraSi e d a i2 s
  | .rolSr e d a b => execRolSr e d a b s
  | .rolSi e d a i2 => execRolSi e d a i2 s
  | .cmpSr e d a b c => execCmpSr e d a b c s
  | .cmpSi e d a c i2 => execCmpSi e d a c i2 s
  | .minSr e d a b u => execMinSr e d a b u s
  | .minSi e d a i2 => execMinSi e d a i2 s
  | .maxSr e d a b u => execMaxSr e d a b u s
  | .maxSi e d a i2 => execMaxSi e d a i2 s
  | .sel e d a b f => execSel e d a b f s
  | .bitcClz e d a => execBitcClz e d a s
  | .bitcCtz e d a => execBitcCtz e d a s
  | .bitcPopc e d a => execBitcPopc e d a s
  | .bitcBrev e d a => execBitcBrev e d a s
  | .extSr e d a b s2 => execExtSr e d a b s2 s
  | .extSi e d a l p => execExtSi e d a l p s
  | .li e d i2 => execLi e d i2 s
  | .lis e d i2 => execLis e d i2 s
  | .movc e d c => execMovc e d c s
  | .movtc e a c => execMovtc e a c s
  | .gpredSet d a => execGpredSet d a s
  | .gpredAnd d a b => execGpredAnd d a b s
  | .gpredOr d a b => execGpredOr d a b s
  | .gpredAndn d a b => execGpredAndn d a b s
  | .gpredXor d a b => execGpredXor d a b s
  | .gpredNot d a => execGpredNot d a s
  | .gpredFroms d a => execGpredFroms d a s
  | .gpredRange d a h l => execGpredRange d a h l s
  | .gqryMask d a => execGqryMask d a s
  | .gqryMaskE d a => execGqryMaskE d a s
  | .gqryCount d a => execGqryCount d a s
  | .gqryAny d a => execGqryAny d a s
  | .gqryAll d a => execGqryAll d a s
  | .gqryFirst d a => execGqryFirst d a s
  | .gqryAct d => execGqryAct d s
  | .gqryBit d a n => execGqryBit d a n s
  | .egetSr d a b => execEgetSr d a b s
  | .egetSi d n b => execEgetSi d n b s
  | .eputSr d a b => execEputSr d a b s
  | .eputSi d a i2 => execEputSi d a i2 s
  | .shpSr e d a => execShpSr e d a s
  | .shpK e d k => execShpK e d k s
  | .asetSr e d a b => execAsetSr e d a b s
  | .asetSi e d a i2 => execAsetSi e d a i2 s
  | .astrSr e d a b => execAstrSr e d a b s
  | .astrSi e d a i2 => execAstrSi e d a i2 s
  | .engwSr e d a b u => execEngwSr e d a b u s
  | .engwSi e d a u i2 => execEngwSi e d a u i2 s
  | .enggoCp0 p x y z => execEnggoCp0 p x y z s
  | .enggoCp1 p x y z => execEnggoCp1 p x y z s
  | .enggoIw p x y z => execEnggoIw p x y z s
  | .enggoCl p x y z => execEnggoCl p x y z s
  | .bwait d a k n => execBwait d a k n s
  | .wait d k a m => execWait d k a m s
  | .signalSr a => execSignalSr a s
  | .signalSi p => execSignalSi p s
  | .lapsetSr a => execLapsetSr a s
  | .lapsetSi h l => execLapsetSi h l s
  | .jmp o => execJmp o s
  | .bz a o => execBz a o s
  | .bnz a o => execBnz a o s
  | .bltz a o => execBltz a o s
  | .call o => execCall o s
  | .loop a o => execLoop a o s
  | .bmz a o => execBmz a o s
  | .gif a o => execGif a o s
  | .gelse o => execGelse o s
  | .gsplit a o => execGsplit a o s
  | .bar l => execBar l s
  | .sysLaunch a b => execSysLaunch a b s
  | .sysCancel a => execSysCancel a s
  | .sysStkspill d => execSysStkspill d s
  | .sysStkfill a => execSysStkfill a s
  | .vadd f => execVadd f s
  | .vsub f => execVsub f s
  | .vmul f => execVmul f s
  | .vfma f => execVfma f s
  | .vfnma f => execVfnma f s
  | .vmin f => execVmin f s
  | .vmax f => execVmax f s
  | .vabs f => execVabs f s
  | .vneg f => execVneg f s
  | .vand f => execVand f s
  | .vor f => execVor f s
  | .vxor f => execVxor f s
  | .vshl f => execVshl f s
  | .vshr f => execVshr f s
  | .vsra f => execVsra f s
  | .vcmp f => execVcmp f s
  | .vsel f => execVsel f s
  | .vmov f => execVmov f s
  | .vxfer f => execVxfer f s
  | .vcvt f => execVcvt f s
  | .vdecb f => execVdecb f s
  | .vencb f => execVencb f s
  | .vclass f => execVclass f s
  | .vrng f => execVrng f s
  | .vtopki f => execVtopki f s
  | .viota f => execViota f s
  | .vmulh f => execVmulh f s
  | .vadds f => execVadds f s
  | .vdot4 f => execVdot4 f s
  | .vpopc f => execVpopc f s
  | .vclz f => execVclz f s
  | .vext f => execVext f s
  | .vins f => execVins f s
  | .vladd f => execVladd f s
  | .vlsub f => execVlsub f s
  | .vlshl f => execVlshl f s
  | .vlshr f => execVlshr f s
  | .vlcmp f => execVlcmp f s
  | .vlmul f => execVlmul f s
  | .bind f => execBind f s
  | .rcp w t d a m => execRcp w t d a m s
  | .rsq w t d a m => execRsq w t d a m s
  | .sqrt w t d a m => execSqrt w t d a m s
  | .exp2 w t d a m => execExp2 w t d a m s
  | .log2 w t d a m => execLog2 w t d a m s
  | .tanh w t d a m => execTanh w t d a m s
  | .sint w t d a m => execSint w t d a m s
  | .cost w t d a m => execCost w t d a m s
  | .erf w t d a m => execErf w t d a m s
  | .rank t d a c g => execRank t d a c g s
  | .rankv t d a c g => execRankv t d a c g s
  | .rankc t d a e g => execRankc t d a e g s
  | .rmerge t d a c => execRmerge t d a c s
  | .unrank t d a n s2 g => execUnrank t d a n s2 g s
  | .ld r m s2 q i2 => execLd r m s2 q i2 s
  | .ldg r v m s2 q i2 => execLdg r v m s2 q i2 s
  | .st r v m s2 i2 => execSt r v m s2 i2 s
  | .sts r v m s2 i2 => execSts r v m s2 i2 s
  | .ldl r m q i2 => execLdl r m q i2 s
  | .stl r v m i2 => execStl r v m i2 s
  | .atom r v o w s2 q => execAtom r v o w s2 q s
  | .atomg r v o w s2 q => execAtomg r v o w s2 q s
  | .fence k s2 => execFence k s2 s
  | .aadd r i2 => execAadd r i2 s
  | .pref r s2 h i2 => execPref r s2 h i2 s
  | .scopLd r q i2 => execScopLd r q i2 s
  | .scopSt r v i2 => execScopSt r v i2 s
  | .scopExch r v q i2 => execScopExch r v q i2 s
  | .scopCas r v q i2 => execScopCas r v q i2 s
  | .lapadd r n => execLapadd r n s
  | .rpass r v s2 q => execRpass r v s2 q s
  | .rtake r s2 q => execRtake r s2 q s
  | .rtakeArm r => execRtakeArm r s
  | .rtakeStat r q => execRtakeStat r q s
  | .txbegin m => execTxbegin m s
  | .txbeginSerial m => execTxbeginSerial m s
  | .txend q => execTxend q s
  | .txabort m => execTxabort m s
  | .pcommit r s2 q => execPcommit r s2 q s
  | .prelease r s2 q => execPrelease r s2 q s
  | .tlbinv r v s2 q => execTlbinv r v s2 q s
  | .tlbinvAll q => execTlbinvAll q s
  | .mma c l h r a b i2 t k => execMma c l h r a b i2 t k s
  | .mmas c l h r a b i2 t => execMmas c l h r a b i2 t s
  | .mmar c l h r b i2 t n => execMmar c l h r b i2 t n s
  | .latld l h r a i2 => execLatld l h r a i2 s
  | .latldRank l h r i2 n => execLatldRank l h r i2 n s
  | .tzero c => execTzero c s
  | .tld c h r => execTld c h r s
  | .tst c h r => execTst c h r s
  | .tadd c h s2 => execTadd c h s2 s
  | .tscl c h n => execTscl c h n s
  | .xperm d a p => execXperm d a p s
  | .xshfl d a p => execXshfl d a p s
  | .xred d a p => execXred d a p s
  | .xscan d a p => execXscan d a p s
  | .gvsh d a p => execGvsh d a p s
  | .gvred d a p => execGvred d a p s
  | .gshuf d s2 m => execGshuf d s2 m s
  | .gred d s2 q => execGred d s2 q s
  | .gbcst d s2 n => execGbcst d s2 n s
  | .cbld a t => execCbld a t s
  | .scld a t h => execScld a t h s
  | .atld a t => execAtld a t s
  | .xpld a t => execXpld a t s
  | .stbs a => execStbs a s
  | .signalOthers => execSignalOthers s
  | .ret => execRet s
  | .gjoin => execGjoin s
  | .gmerge => execGmerge s
  | .sysExit => execSysExit s
  | .sysBrk => execSysBrk s
  | .qsync => execQsync s
  | .finish _ => .next s
  | .eccCorrection _ _ _ => .next s
  | .uncorrectableError _ => .next s
  | .engineFence _ _ _ => .next s
  | .coreFence _ _ => .next s
  | .channelFence _ _ => .next s
  | .cdieFence _ _ => .next s
  | .mdieFence _ _ => .next s
  | .portFence _ => .next s
  | .ufpFrameReceive _ => .next s
  | .ufpAck _ => .next s
  | .ufpResponse _ => .next s
  | .hubAgeWrite _ => .next s
  | .installContext _ _ => .next s
  | .removeContext _ => .next s
  | .addFrames _ _ _ => .next s
  | .removeFrames _ _ _ => .next s
  | .installRingContext _ _ => .next s
  | .installPeerContext _ _ _ => .next s
  | .openConnection _ _ => .next s
  | .closeConnection _ => .next s
  | .readSaveArea _ _ _ _ _ => .next s
  | .resumeGang _ _ _ => .next s
  | .cancelTaskMessage _ => .next s
  | .firmwareBegin _ => .next s
  | .firmwareChunk _ _ => .next s
  | .attestationReport _ => .next s
  | .submissionArrival _ => .next s
  | .gangStart _ _ => .next s
  | .taskCancel _ _ => .next s
  | .dieCacheEviction _ _ => .next s
  | .collectiveFail _ _ => .next s
  | .pageWalk _ _ _ => .next s
  | .crEventsWrite _ => .next s
  | .crTimerWrite _ => .next s
  | .crBatonsWrite _ => .next s
  | .crWatchdogWrite _ => .next s
  | .crFpflagsWrite _ _ => .next s
  | .crStkdepthWrite _ => .next s
  | .crRcutWrite _ _ => .next s
  | .powerGood => .next s
  | .powerGoodWithdrawn => .next s
  | .thermalTrip => .next s
  | .patrolScrub => .next s
  | .ufpWrite => .next s
  | .ufpRead => .next s
  | .ufpSend => .next s
  | .ufpAtomic => .next s
  | .ufpSubmit => .next s
  | .ufpAckSend => .next s
  | .ufpRetransmitTimeout => .next s
  | .firmwareCommit => .next s
  | .getCertificate => .next s
  | .taskAccept => .next s
  | .taskReady => .next s
  | .squadPlace => .next s
  | .agingExpiry => .next s
  | .preemptionRequest => .next s
  | .preemptStop => .next s
  | .squadResume => .next s
  | .gangExitComplete => .next s
  | .taskComplete => .next s
  | .autoCommit => .next s
  | .bundleIssue => .next s
  | .batchRelease => .next s
  | .loadEntryResolve => .next s
  | .scopPerform => .next s
  | .timingTrap => .next s
  | .longWaitHalt => .next s
  | .faultHalt => .next s
  | .timerExpiry => .next s
  | .barrierOpen => .next s
  | .waitWake => .next s
  | .bwaitWake => .next s
  | .gmergeWaitEnd => .next s
  | .signalDelivery => .next s
  | .arrayOpComplete => .next s
  | .engineOpStart => .next s
  | .copyChunkLand => .next s
  | .copyChunkFault => .next s
  | .copyComplete => .next s
  | .walkerBatchPush => .next s
  | .walkerComplete => .next s
  | .collectiveCommit => .next s
  | .collectiveTimeout => .next s
  | .collectiveMemberComplete => .next s
  | .ringWatchEvent => .next s
  | .txCommit => .next s
  | .txEntryResolve => .next s
  | .serialLockGrant => .next s
  | .serialLockRelease => .next s
  | .invalidationAck => .next s
  | .frameReturn => .next s
  | .hubFailure => .next s

end Sys2Proof.Machine
end

