-- ==== Sys2Proof/Machine/Issue.lean ====
section
/-! DEFINITION. Issue (R35-R48, R75-R81, R102, R129, R130, R143, R149-R151, R160-R163): fetching a bundle, its static checks, the five
waits, restart points and their checkpoints, the commit of a bundle, timing traps and halts. -/
namespace Sys2Proof.Machine

/-! ## Fetching (R75-R79) -/

/-- The bundle at a code address and whether it is a literal; none for an illegal code word or an address past the image. -/
def Gang.fetch (g : Gang) (pc : Nat) : Option (BundleBits × Bool) :=
  if g.code.length ≤ pc then none
  else if g.word pc = escapeWord then
    (if pc + 25 ≤ g.code.length then some (literalBits (g.code.drop (pc + 1)), true) else none)
  else if (g.word pc).toNat < g.dict.length then some (g.dict.getD (g.word pc).toNat 0, false)
  else none

/-- A slot that decodes, or is empty where its word names no instruction. -/
def looseSlot (o : Option (Option Instr)) : Option Instr := o.getD none

/-- The slots of a bundle one by one, as they decode. -/
def slotsOf (w : BundleBits) : List (Slot × Option (Option Instr)) :=
  [(.s0, decodeSlot decodeS (fld w 328 32)), (.s1, decodeSlot decodeS (fld w 296 32)),
   (.v0, decodeWideSlot (fld w 294 2) decodeV (fld w 248 48)), (.v1, decodeWideSlot (fld w 246 2) decodeV (fld w 200 48)),
   (.v2, decodeWideSlot (fld w 198 2) decodeV (fld w 152 48)), (.f, decodeWideSlot (fld w 144 2) decodeF (fld w 128 24)),
   (.m0, decodeSlot decodeM (fld w 96 32)), (.m1, decodeSlot decodeM (fld w 64 32)), (.x, decodeSlot decodeX (fld w 32 32)),
   (.l, decodeSlot decodeL (fld w 16 16)), (.k, decodeSlot decodeK (fld w 0 16))]

/-- The bundle with the slots that do not decode left idle. -/
def looseBundle (w : BundleBits) : Bundle :=
  { rp := fld w 383 1 = 1#1, rx := fld w 382 1 = 1#1, rcnt := fld w 376 6, pv0 := fld w 374 2, pv1 := fld w 372 2,
    pv2 := fld w 370 2, pf := fld w 368 2, wown := fld w 366 2,
    s0 := looseSlot (decodeSlot decodeS (fld w 328 32)), s1 := looseSlot (decodeSlot decodeS (fld w 296 32)),
    v0 := looseSlot (decodeWideSlot (fld w 294 2) decodeV (fld w 248 48)),
    v1 := looseSlot (decodeWideSlot (fld w 246 2) decodeV (fld w 200 48)),
    v2 := looseSlot (decodeWideSlot (fld w 198 2) decodeV (fld w 152 48)),
    f := looseSlot (decodeWideSlot (fld w 144 2) decodeF (fld w 128 24)),
    m0 := looseSlot (decodeSlot decodeM (fld w 96 32)), m1 := looseSlot (decodeSlot decodeM (fld w 64 32)),
    x := looseSlot (decodeSlot decodeX (fld w 32 32)), l := looseSlot (decodeSlot decodeL (fld w 16 16)),
    k := looseSlot (decodeSlot decodeK (fld w 0 16)) }

/-- A fault that belongs to a slot and to no engine; slot 14 for none. -/
def slotFault (code : GFault) (rank slot detail : Nat) : FaultRec :=
  { code, rank, slot, queue := 0xFF, engmask := 0, detail, vaddr := 0, lanes := 0 }

/-- The first slot of a bundle that names no instruction, breaks a static rule of its own, or is charged with a rule that spans
slots (R79). -/
def badSlot (w : BundleBits) (b : Bundle) : Option Slot :=
  match (slotsOf w).find? (fun x => x.2.isNone || !b.slotOk x.1) with
  | some x => some x.1
  | none => b.firstBad

/-- The static faults of a bundle, as a literal raises them at issue (R79, R91, R102), an X instruction's with its opcode and H field
(R264). (DEDUCED, log 13) -/
def staticFaults (g : Gang) (w : BundleBits) (b : Bundle) : List FaultRec :=
  (if fld w 360 6 ≠ 0#6 ∨ !b.headerOk then [slotFault .illegalEncoding 2 14 0]
   else match badSlot w b with
    | some .x => [slotFault .illegalEncoding 2 8 (xDetail (fld w 58 6).toNat 0 false (fld w 50 3))]
    | some sl => [slotFault .illegalEncoding 2 (slotNum sl) 0]
    | none => []) ++
  (match b.granule g.info.regsA g.info.regsB g.info.regsC g.info.regsS with
   | some (sl, r) => [slotFault .regRange (6 + slotNum sl) (slotNum sl) r]
   | none => [])

/-- An S0 instruction that no bundle of a loop body may hold (R143): OP 0x25, 0x26 or 0x30-0x3E. -/
def loopForbids (i : Instr) : Bool :=
  let op := (encodeS i).toNat / 2 ^ 26
  op == 0x25 || op == 0x26 || (decide (0x30 ≤ op) && decide (op ≤ 0x3E))

/-- The bundle at PC stands in the body of the loop that runs and breaks R143. -/
def loopFaults (q : Seq) (b : Bundle) : List FaultRec :=
  match q.loop, b.s0 with
  | some l, some i =>
    if l.first ≤ q.pc ∧ q.pc ≤ l.last ∧ loopForbids i then [slotFault .illegalEncoding 2 0 0] else []
  | _, _ => []

/-! ## Waits (R35) -/

/-- The bundle at PC has to wait in this cycle. -/
def Seq.noteWait (q : Seq) (k : WaitKind) (now watchdog : Nat) : Seq :=
  let same := match q.wait with
    | some (j, _) => j == k
    | none => false
  if same then { q with tried := some now }
  else { q.endWait now with wait := some (k, now), bound := watchdog, tried := some now }

/-- The queue codes in a V slot. -/
def slotCodes (o : Option Instr) : List Nat :=
  match o with
  | some i => (vSources i).filterMap codeQueue
  | none => []

/-- The entries that the V slots of a bundle wait for, in the active engines: unresolved heads, or none in an iq that its walker is
still to fill (R173, R174). -/
def waitedHeads (s : State) (g : Gang) (b : Bundle) : List (Option QEntry) :=
  let codes := (slotCodes b.v0 ++ slotCodes b.v1 ++ slotCodes b.v2).eraseDups
  (maskList s.act).flatMap (fun k => codes.filterMap (fun c =>
    let en := g.eng k
    match headEntry (en.queue c) s.cycle with
    | some e => if e.resolved s.cycle then none else some (some e)
    | none => if c = 3 ∧ en.walks.any (fun w => !w.done) then some none else none))

/-- The latency class by which an access reaches another engine's scratchpad, if it does (R54). -/
def remoteClass (g : Gang) (acc : Access) : Option Nat :=
  (acc.pieces.map (fun p =>
    let pos := (p.addr.extractLsb' 28 5).toNat
    if tagOf p.addr = 2 then 1
    else if tagOf p.addr = 3 then (if pos = g.info.pos then 1 else if g.info.sameDie.getLsbD pos then 2 else 3) else 0)).foldl
    (fun m c => if c = 0 then m else some (max c (m.getD 0))) none

/-- A remote-scratchpad entry is late: 32 cycles past its issue and its class's latency (R41). -/
def entryLate (s : State) (g : Gang) (e : QEntry) : Bool :=
  match remoteClass g e.acc with
  | some c => decide (e.issued + classCost c + 32 ≤ s.cycle)
  | none => false

/-- A sealed batch is not yet handed to memory; after a merge the spare's counts as the primary's. -/
def batchPending (g : Gang) (spare : Bool) : Bool :=
  (g.seq spare).batch.isSome || (!spare && !g.split && g.spare.batch.isSome)

/-! ## Restart points (R37-R39) -/

/-- A queue at a restart point: popped entries go. -/
def atRestartQueue (l : List QEntry) : List QEntry := l.filter (fun e => e.popped.isNone)

/-- The entries of a checkpoint as they stand now, where the queue still has them. -/
def heldEntries (old now : List QEntry) : List QEntry := old.map (fun e => (now.find? (fun f => f.serial == e.serial)).getD e)

/-- A checkpoint of the primary from before the split keeps the entries that the spare, at a restart point of its own, lets go (R38).
(DEDUCED, log 61) -/
def Ckpt.holdEntries (c : Ckpt) (g : Gang) (own : Mask) : Ckpt :=
  { c with engines := c.engines.map (fun e => if own.getLsbD e.1 then
      (e.1, { e.2 with q0 := heldEntries e.2.q0 (g.eng e.1).q0, q1 := heldEntries e.2.q1 (g.eng e.1).q1, iq := heldEntries e.2.iq (g.eng e.1).iq })
    else e) }

/-- The held stores of a set of engines become one sealed batch of a sequencer (R39). -/
def Gang.seal (g : Gang) (spare : Bool) (own : Mask) (now : Nat) : Gang :=
  let entries := ((maskList own).filter (fun k => !(g.eng k).sq.isEmpty)).map (fun k => (k, (g.eng k).sq))
  let ends := (maskList own).map (fun k => (k, (g.eng k).serial))
  let g := g.mapAct own (fun _ en => { en with sq := [], regionFrom := en.serial })
  if entries.isEmpty then g
  else g.modSeq spare (fun q => { q with batch := some { entries, sealedAt := now, fault := none, ends } })

/-- A restart point issues: its region's stores are sealed unless they have been or this is no new region, and the checkpoint is
taken (R38, R41, R42). -/
def Gang.atRestart (g : Gang) (spare : Bool) (now : Nat) (new sealing : Bool) : Gang :=
  let own := g.driven spare
  let g := g.mapAct own (fun _ en => { en with occSeen := some en.queueWord })
  let g := if sealing then g.seal spare own now else g
  let g := if spare then { g with ckptP := g.ckptP.map (fun c => if c.split then c else c.holdEntries g own) } else g
  let g := g.mapAct own (fun _ en => { en with q0 := atRestartQueue en.q0, q1 := atRestartQueue en.q1, iq := atRestartQueue en.iq })
  let g := g.modSeq spare (fun q =>
    { q with reissue := false, immediate := false, rppc := q.pc, traps := if new && q.pc != q.rppc then 0 else q.traps })
  let ck : Ckpt := { at_ := now, seq := g.seq spare, engines := (maskList own).map (fun k => (k, g.eng k)), split := g.split,
                     splitTag := g.splitTag, splitDepth := g.splitDepth, splitEngines := g.splitEngines }
  let g := if new then { g with lockKept := false } else g
  if spare then { g with ckptS := some ck } else { g with ckptP := some ck, ckptS := if g.split then g.ckptS else none }

/-- What a bundle's WAIT or BWAIT has cleared is noted in the checkpoint (R157). -/
def Gang.noteCleared (g : Gang) (spare : Bool) (events : BitVec 4) (batons : BitVec 32) : Gang :=
  let put (c : Option Ckpt) : Option Ckpt := c.map (fun c =>
    { c with events := (events &&& ~~~ g.events).toNat, batons := batons &&& ~~~ g.batons })
  if spare then { g with ckptS := put g.ckptS } else { g with ckptP := put g.ckptP }

/-! ## Commit (R33, R44, R47, R80, R130) -/

/-- The instructions of a bundle in program order; a slot that breaks a rule of its own (R86) holds none. -/
def bundleSlots (b : Bundle) : List (Slot × Instr) :=
  allSlots.filterMap (fun sl => match b.at sl with
    | some i => if fieldsOk sl i then some (sl, i) else none
    | none => none)

/-- The slots of a bundle performed one after the other; every source is read as it stood at issue, since results only land later.
What S0 does at once to an event, a baton or the lap gate is seen by a MOVC in S1 of its bundle. (DESIGN CHOICE, log 12) -/
def runSlots (s : State) : List (Slot × Instr) → State
  | [] => s
  | (sl, i) :: t =>
    match slotExec i { s with ctx := { s.ctx with slot := sl } } with
    | .next s' => runSlots s' t
    | _ => runSlots s t

/-- The fault that R47 chooses among those raised. -/
def chooseFault : List FaultRec → Option FaultRec
  | [] => none
  | r :: t => some (t.foldl (fun m x => if x.rank < m.rank then x else m) r)

/-- The step's subject while a bundle issues. -/
def issueCtx (s : State) (core : Nat) (spare : Bool) (g : Gang) (b : Bundle) : Ctx :=
  let q := g.seq spare
  let c : Ctx := { core, spare, act := q.active }
  { c with unit := b.rx.toNat, value := readS { s with ctx := c } q b.rcnt.toNat }

/-- A bundle of a loop body has issued (R143): the iteration that it begins has begun; after the last bundle the body's first follows
while iterations remain, for which the spare pays 2 cycles. -/
def loopStep (c : SeqCtl) (pc : Nat) (spare : Bool) : SeqCtl × Nat :=
  match c.loop with
  | some l =>
    let l := { l with remain := if pc = l.first then l.following else l.remain, turn := l.turn && pc != l.first }
    if pc = l.last then
      (if l.remain = 0 then ({ c with loop := none }, 0)
       else ({ c with pc := l.first, loop := some { l with turn := true, buffered := !spare } }, if spare then 2 else 0))
    else ({ c with loop := some l }, 0)
  | none => (c, 0)

/-- GSPLIT's other half (R149): the spare starts, with its start as its first checkpoint. -/
def Gang.startSpare (g : Gang) (other : Mask) (target tag now : Nat) : Gang :=
  let sp : Seq := { spareStart g other target now with batch := g.spare.batch }
  { g with
    split := true, splitTag := tag, splitDepth := g.prim.callDepth, splitEngines := other, spare := sp
    ckptS := some { at_ := now + 1, seq := sp, engines := (maskList other).map (fun k => (k, g.eng k)), split := true,
                    splitTag := tag, splitDepth := g.prim.callDepth, splitEngines := other } }

/-- EXIT's commit (R162, R311): the region's stores are sealed, open transactions are discarded, and the gang is exiting. -/
def Gang.startExit (g : Gang) (spare : Bool) (now : Nat) : Gang :=
  let g := g.seal spare g.live now
  let g := g.mapAct 0xFFFF (fun _ en => { en with tx := { en.tx with opened := false, cur := {} } })
  { g with st := .exiting, lockKept := false }

/-- BREAK's record (R163). -/
def brkFault : FaultRec := slotFault .brk 0 0 0

/-- A bundle commits: what its S0 made of the sequencer comes into force, and the next issue is due (R80). -/
def Gang.commit (g : Gang) (spare : Bool) (c : SeqCtl) (now : Nat) : Gang :=
  let g := g.mapAct 0xFFFF (fun _ en => { en with occSeen := none })
  let q := g.seq spare
  let l := loopStep c q.pc spare
  let base := now + 1 + (if c.taken then 2 else 0) + l.2
  let done (q : Seq) : Seq :=
    { q with base, tried := none, wait := none, arrived := false, perf := { q.perf with issued := q.perf.issued + 1 } }
  match c.act with
  | .none => g.modSeq spare (fun q => done (q.applyCtl l.1))
  | .brk => (g.modSeq spare (fun q => done (q.applyCtl l.1))).beginHalt spare brkFault
  | .exit => (g.modSeq spare (fun q => { done q with ctl := none })).startExit spare now
  | .split other target => (g.modSeq spare (fun q => done (q.applyCtl l.1))).startSpare other target q.pc now
  | .merge => g.modSeq spare (fun q => { done q with ctl := some c })

/-- The wait that a bundle must enter before it is about to issue: its popped entries and its predecessor's batch first, then the
array (R35). -/
def waitOf (s : State) (g : Gang) (spare : Bool) (b : Bundle) : Option WaitKind :=
  let q := g.seq spare
  if (((b.rp && !q.reissue) || b.s0 == some .sysExit) && !q.arrived && batchPending g spare) || waitedHeads s g b ≠ [] then some .queue
  else if (match b.x with
    | some i => xWaits s g i
    | none => false) then some .matrix
  else none

/-- The wait of a bundle with static faults before they are raised: one of its X slot waits for the array (R264). (DEDUCED, log 13) -/
def seedWait (s : State) (g : Gang) (b : Bundle) (seeds : List FaultRec) : Option WaitKind :=
  match b.x with
  | some i => if (seeds.any (fun r => r.slot == 8)) && xWaits s g i then some .matrix else none
  | none => none

/-- A fault of the bundle at PC: nothing of it commits. -/
def State.faultAt (s : State) (core : Nat) (spare : Bool) (g : Gang) (r : FaultRec) : State :=
  s.putGang core ((g.modSeq spare (fun q => q.endWait s.cycle)).beginHalt spare r)

/-- A bundle that its S0 makes wait keeps nothing but the wait, and for a BAR its arrival, with which its restart point seals the
region's stores (R32, R35, R73). -/
def Gang.keepWait (g trial : Gang) (spare : Bool) (k : WaitKind) (now : Nat) (sealing : Bool) : Gang :=
  let g := if k = .barrier then
      let g := if sealing then g.seal spare (g.driven spare) now else g
      { g.modSeq spare (fun q => { q with arrived := true }) with arrivals := trial.arrivals, arriveAt := trial.arriveAt }
    else g
  g.modSeq spare (fun q => q.noteWait k now g.watchdog)

/-- The gang as the slots of the bundle at its PC find it: the wait has ended, and a restart point has sealed, released and taken its
checkpoint (R37-R39). -/
def Gang.prepared (g : Gang) (spare : Bool) (b : Bundle) (now : Nat) : Gang :=
  let q := g.seq spare
  let g1 := g.modSeq spare (fun q => { q.endWait now with ctl := none })
  if b.rp then g1.atRestart spare now (!q.reissue) (!q.reissue && !q.arrived) else g1

/-- The package as the slots of a bundle find it; the static faults of a literal stand raised already. -/
def State.atIssue (s : State) (core : Nat) (spare : Bool) (g : Gang) (b : Bundle) (seeds : List FaultRec) : State :=
  { s with ctx := issueCtx s core spare g b }.putGang core { g.prepared spare b s.cycle with raised := seeds }

/-- The bundle at the PC of a sequencer is tried: it faults, waits, or commits all its slots. (DEDUCED, log 13, 26) -/
def tryIssue (s : State) (core : Nat) (spare : Bool) : State :=
  match s.gang core with
  | none => s
  | some g =>
    let q := g.seq spare
    match g.fetch q.pc with
    | none => s.faultAt core spare g (slotFault .illegalCode 1 14 0)
    | some (w, literal) =>
      let b := looseBundle w
      let sc := { s with ctx := issueCtx s core spare g b }
      let seeds := (if literal then staticFaults g w b else []) ++ loopFaults q b
      match if seeds.isEmpty then waitOf sc g spare b else seedWait sc g b seeds with
      | some k => s.putGang core (g.modSeq spare (fun q => q.noteWait k s.cycle g.watchdog))
      | none =>
        let g1 := g.prepared spare b s.cycle
        let s2 := runSlots (s.atIssue core spare g b seeds) (bundleSlots b)
        match s2.gang core with
        | none => s
        | some g2 =>
          match chooseFault g2.raised with
          | some r => s.faultAt core spare g r
          | none =>
            match (g2.seq spare).wait with
            | some (k, _) => s.putGang core (g.keepWait g2 spare k s.cycle (b.rp && !q.reissue && !q.arrived))
            | none =>
              let c := ((g2.seq spare).ctl).getD (g2.flow s2)
              let g3 := if b.rp then g2.noteCleared spare g1.events g1.batons else g2
              { s2.putGang core (g3.commit spare c s.cycle) with ctx := s.ctx }

/-- The cycle from which the bundle at PC may issue (R80): a literal costs 3 cycles unless the loop buffer holds it; the restart
point of a trap issues at once (R41). (DEDUCED, log 39) -/
def issueAt (g : Gang) (q : Seq) : Nat :=
  let buffered := match q.loop with
    | some l => l.buffered && decide (l.first ≤ q.pc) && decide (q.pc ≤ l.last)
    | none => false
  q.base + (if g.word q.pc = escapeWord ∧ q.pc < g.code.length ∧ !buffered ∧ !q.reissue then 3 else 0)

/-- A wait that only its condition ends. -/
def WaitKind.parked : WaitKind → Bool
  | .queue => false
  | .matrix => false
  | _ => true

/-- A sequencer runs: its gang does, it is the primary or the spare of a split, and no merge or pre-emption holds it. -/
def seqRuns (g : Gang) (spare : Bool) : Bool :=
  g.st == .running && !g.selfCancelled && (!spare || g.split) && !(g.seq spare).stopped && (g.seq spare).ctl.isNone

/-- The bundle at the PC of a sequencer is to be tried in this cycle. -/
def issueReady (s : State) (core : Nat) (spare : Bool) : Bool :=
  match s.gang core with
  | none => false
  | some g =>
    let q := g.seq spare
    seqRuns g spare && decide (issueAt g q ≤ s.cycle) && q.tried != some s.cycle &&
      (match q.wait with
       | some (k, _) => !k.parked
       | none => true)

/-- BUNDLE_ISSUE. -/
def execBundleIssue (s : State) : Out :=
  .next (if issueReady s s.ctx.core s.ctx.spare then tryIssue s s.ctx.core s.ctx.spare else s)

/-! ## The ends of waits 3 to 5 -/

/-- A wait of one kind is in progress and its bundle, tried now, goes on: it commits or faults. -/
def wakeReady (s : State) (core : Nat) (spare : Bool) (k : WaitKind) : Bool :=
  match s.gang core with
  | none => false
  | some g =>
    seqRuns g spare && (match (g.seq spare).wait with
      | some (j, _) => j == k
      | none => false) &&
    (match (tryIssue s core spare).gang core with
     | some h => (match (h.seq spare).wait with
        | some (j, _) => j != k
        | none => true)
     | none => false)

/-- The bundle that waits in this way is tried again. -/
def wake (s : State) (k : WaitKind) : Out :=
  .next (if wakeReady s s.ctx.core s.ctx.spare k then tryIssue s s.ctx.core s.ctx.spare else s)

/-- BARRIER_OPEN: the BAR of a member commits (R32). (DEDUCED, log 26) -/
def execBarrierOpen (s : State) : Out := wake s .barrier
/-- WAIT_WAKE (R156). -/
def execWaitWake (s : State) : Out := wake s .event
/-- BWAIT_WAKE (R155), or the halt at a faulted baton (R331). -/
def execBwaitWake (s : State) : Out := wake s .baton

/-- The sub-gang whose GMERGE has committed and waits for the other's: the second to arrive. -/
def mergeSecond (g : Gang) : Option Bool :=
  if (match g.prim.ctl with
    | some c => c.act == CtlAct.merge
    | none => false) then some false
  else if (match g.spare.ctl with
    | some c => c.act == CtlAct.merge
    | none => false) then some true
  else none

/-- The split ends (R151): the primary goes on with all its engines; the spare's counters are added, its files are discarded, and
what it has in flight to the gang's registers still lands. The region of the merge holds the immediate operations of both (R40). -/
def Gang.merge (g : Gang) (c : SeqCtl) (now : Nat) : Gang :=
  let sp := g.spare
  let keep (L : SLand) : Bool := match L.pay with
    | .s _ _ => false
    | .g _ _ _ => false
    | _ => true
  let p := g.prim.perf
  let add : Perf := { issued := p.issued + sp.perf.issued, qwait := p.qwait + sp.perf.qwait, xwait := p.xwait + sp.perf.xwait,
                      swait := p.swait + sp.perf.swait, traps := p.traps + sp.perf.traps, longWait := p.longWait + sp.perf.longWait }
  { g.mapAct 0xFFFF (fun _ en => { en with occSeen := none }) with
    split := false, splitEngines := 0, splitTag := 0, splitDepth := 0
    prim := { g.prim.applyCtl c with
              base := now + 1, tried := none, wait := none, perf := add, immediate := g.prim.immediate || sp.immediate }
    spare := { batch := sp.batch, lands := sp.lands.filter keep } }

/-- GMERGE_WAIT_END: the bundle of the sub-gang that arrived first commits its other slots, and the split ends. -/
def execGmergeWaitEnd (s : State) : Out :=
  let core := s.ctx.core
  match s.gang core with
  | none => .next s
  | some g =>
    match mergeSecond g with
    | none => .next s
    | some second =>
      let first := !second
      match g.fetch (g.seq first).pc with
      | none => .next s
      | some (w, _) =>
        let b := looseBundle w
        let sc := { s with ctx := issueCtx s core first g b }
        let g1 := g.modSeq first (fun q => q.endWait s.cycle)
        let g1 := if b.rp then g1.atRestart first s.cycle (!(g.seq first).reissue) (!(g.seq first).reissue) else g1
        let s2 := runSlots (sc.putGang core { g1 with raised := [] }) ((bundleSlots b).filter (fun x => x.1 != .s0))
        match s2.gang core with
        | none => .next s
        | some g2 =>
          let c := { g2.flow { s2 with ctx := { s2.ctx with spare := false, act := g2.prim.active } } with act := CtlAct.none }
          match chooseFault g2.raised, setActive g2 c.pop (g2.maskBack s.free (stkFull c.top)) with
          | some r, _ => .next (s.faultAt core first g r)
          | none, .error (code, m, d) =>
            .next (s.faultAt core false g { slotFault code 6 0 d with engmask := m })
          | none, .ok c =>
            let g3 := g2.modSeq first (fun q => { q with perf := { q.perf with issued := q.perf.issued + 1 } })
            .next { s2.putGang core (g3.merge c s.cycle) with ctx := s.ctx }

/-! ## Timing traps (R40-R42) -/

/-- Cycles for which a queue wait has lasted. -/
def queueWaited (s : State) (q : Seq) : Option Nat :=
  match q.wait with
  | some (.queue, t) => some (s.cycle - t)
  | _ => none

/-- An ECC correction of this cycle delays the array of an engine that a sequencer drives, and its region can restart (R40, R41).
(DEDUCED, log 17) -/
def eccDue (s : State) (core : Nat) (spare : Bool) : Bool :=
  match s.gang core with
  | none => false
  | some g => seqRuns g spare && !(g.seq spare).immediate && (g.seq spare).eccLate == some s.cycle

/-- A condition of R41 holds for a sequencer. -/
def trapDue (s : State) (core : Nat) (spare : Bool) : Bool :=
  match s.gang core with
  | none => false
  | some g =>
    let q := g.seq spare
    seqRuns g spare && !q.immediate &&
    (q.eccLate == some s.cycle ||
     (match queueWaited s q with
      | some n =>
        decide (q.bound ≤ n) ||
        (match g.fetch q.pc with
         | some (w, _) =>
           let b := looseBundle w
           (waitedHeads { s with ctx := issueCtx s core spare g b } g b).any (fun e => match e with
             | some e => entryLate s g e
             | none => false)
         | none => false)
      | none => false))

/-- A result that a restart does not undo: one issued before the checkpoint, or to a register that R38 does not name. A binding is
undone: the restart point's VL* instruction uses the one before its own BIND again (R294, R296). -/
def keepLand (at_ : Nat) (L : ELand) : Bool :=
  decide (L.issued < at_) || (match L.pay with
    | .e _ _ _ => false
    | .a _ _ _ => false
    | .st _ _ => false
    | .flags _ => false
    | .tile _ _ => false
    | .cr a _ => a != 0x00A
    | .bind _ _ _ => false
    | _ => true)
/-- The same for a sequencer's results: s, g and the stack are restored. -/
def keepSLand (at_ : Nat) (L : SLand) : Bool :=
  decide (L.issued < at_) || (match L.pay with
    | .s _ _ => false
    | .g _ _ _ => false
    | .cr a _ => a != 0x00B && !(decide (0x20 ≤ a) && decide (a ≤ 0x3F))
    | .shadow _ _ _ => true)

/-- A queue at a restart: entries pushed since the checkpoint go, popped ones are pending again, those that have gone since among them. -/
def rewindQueue (l old : List QEntry) (serial : Nat) : List QEntry :=
  ((old.filter (fun e => !l.any (fun f => f.serial == e.serial))) ++ l.filter (fun e => decide (e.serial < serial))).map
    (fun e => { e with popped := none })

/-- A transaction at a restart (R311): what was open at the checkpoint is open again, its optimistic members doomed; what the
discarded attempt opened is gone. -/
def TxState.rewind (t old : TxState) : TxState :=
  let t' := { t with opened := old.opened, cur := old.cur, fcode := old.fcode, flane := old.flane, fva := old.fva }
  if old.opened ∧ !old.cur.serial then
    (below 32).foldl (fun t l =>
      if old.cur.members.getLsbD l && !old.cur.doomed.getLsbD l then t.doom old.cur.id l 3 0x20 0 else t) t'
  else t'

/-- The walker's position at a restart (R333): the operations pending at the checkpoint stand at its positions; one that has ended since
runs again from there, its batons consumed. (DEDUCED, log 19) -/
def rewindWalks (cur old : List WalkOp) (now : Nat) : List WalkOp :=
  old.map (fun w => match cur.find? (fun c => c.id == w.id) with
    | some c => { c with tile := w.tile, batch := w.batch, pushed := w.pushed, done := w.done, fault := w.fault }
    | none => { w with started := some (w.started.getD now) })

/-- What the tile port and the array still write after a restart: whatever was issued before it, and in the region the latches, which no
checkpoint holds (R38); a read still held back is discarded with the region (R41). (DESIGN CHOICE, log 87) -/
def rewindXOps (l : List XOp) (at_ : Nat) : List XOp :=
  (l.map (fun x => if x.issued < at_ then x else { x with rows := x.rows.filter (fun r => decide (512 ≤ r.1)) })).filter
    (fun x => decide (x.issued < at_) || (x.load.isNone && (x.rows != [] || x.bad.isSome)))

/-- The results in flight at a checkpoint that have landed since then are in the registers it restores. -/
def Engine.rewind (en old : Engine) (at_ now epoch tag : Nat) : Engine :=
  let o := old.landDue now epoch tag
  { en with
    e := o.e, a := o.a, st := o.st, c := o.c, fpflags := o.fpflags, bind := o.bind
    q0 := rewindQueue en.q0 old.q0 old.serial, q1 := rewindQueue en.q1 old.q1 old.serial
    iq := rewindQueue en.iq old.iq old.serial, sq := []
    fences := en.fences.filter (fun f => decide (f.serial < old.serial))
    lands := en.lands.filter (keepLand at_), xops := rewindXOps en.xops at_
    tx := en.tx.rewind old.tx, walks := rewindWalks en.walks old.walks now }

/-- The results of a sequencer that are due take their places in its files. -/
def Seq.landFiles (q : Seq) (now : Nat) : Seq :=
  (q.lands.filter (fun L => decide (L.due ≤ now))).foldl (fun q L => match L.pay with
    | .s i v => { q with s := sput 0 q.s i v }
    | .g i m v => { q with g := sput 0 q.g i (mergeBits (sget 0 q.g i) m v) }
    | _ => q) q

/-- The sequencer at a restart (R41 steps 3 and 4): a BAR there has already arrived. -/
def Seq.rewind (q old : Seq) (at_ now base : Nat) (bar : Bool) : Seq :=
  let o := old.landFiles now
  let q := q.endWait now
  { q with
    pc := o.pc, active := o.active, s := o.s, g := o.g, stack := o.stack, resident := o.resident, spilled := o.spilled,
    callDepth := o.callDepth, loop := o.refetch.loop, lands := q.lands.filter (keepSLand at_),
    ctl := none, base, tried := none, reissue := true, immediate := false, arrived := bar, rppc := o.pc, eccLate := none }

/-- The cycle after the last result in flight to a set of engines, or to a sequencer, lands. -/
def drainedAt (g : Gang) (q : Seq) (own : Mask) (now : Nat) : Nat :=
  let m := q.lands.foldl (fun m L => max m L.due) now
  1 + (maskList own).foldl (fun m k =>
    let en := g.eng k
    en.xops.foldl (fun m x => if x.load.isNone then max m x.due else m) (en.lands.foldl (fun m L => max m L.due) m)) m

/-- The bundle at an address holds a BAR. -/
def Gang.barAt (g : Gang) (pc : Nat) : Bool :=
  match g.fetch pc with
  | some (w, _) => (match (looseBundle w).s0 with
      | some (.bar _) => true
      | _ => false)
  | none => false

/-- A serial transaction stands open in an engine that was not when its checkpoint was taken: a restart discards its TXBEGIN (R311). -/
def Engine.losesSerial (en old : Engine) : Bool :=
  en.tx.opened && en.tx.cur.serial && !(old.tx.opened && old.tx.cur.id == en.tx.cur.id)

/-- A checkpoint is restored for the sequencer that took it and its engines. -/
def Gang.restore (g : Gang) (c : Ckpt) (spare : Bool) (s : State) (core : Nat) : Gang :=
  let own := maskOf (c.engines.map (·.1))
  let base := drainedAt g (g.seq spare) own s.cycle
  let kept := c.engines.any (fun e => (g.eng e.1).losesSerial e.2)
  let g := c.engines.foldl (fun g e => g.modEng e.1 (fun en => en.rewind e.2 c.at_ s.cycle s.free (freeTag 15 core e.1 0))) g
  let g := g.modSeq spare (fun q => q.rewind c.seq c.at_ s.cycle base (g.barAt c.seq.pc))
  { g with events := g.events ||| BitVec.ofNat 4 c.events, batons := g.batons ||| c.batons, lockKept := g.lockKept || kept }

/-- Restarting at the last restart point of a sequencer. A checkpoint of the primary taken in another state of the split brings that
state back, the spare with it. (DEDUCED, log 14, 61) -/
def Gang.restart (g : Gang) (spare : Bool) (s : State) (core : Nat) : Gang :=
  match if spare then g.ckptS else g.ckptP with
  | none => g
  | some c =>
    if spare ∨ c.split = g.split then g.restore c spare s core
    else
      let g := { g with split := c.split, splitTag := c.splitTag, splitDepth := c.splitDepth, splitEngines := c.splitEngines }
      let g := g.restore c false s core
      if c.split then
        match g.ckptS with
        | some d => g.restore d true s core
        | none => g
      else { g with spare := { batch := g.spare.batch } }

/-- The halt with TIMING. -/
def timingFault : FaultRec := slotFault .timing 0 14 0

/-- TIMING_TRAP: the region is discarded and its restart point issues again; the fourth trap in a row there halts the gang.
(DEDUCED, log 61) -/
def execTimingTrap (s : State) : Out :=
  let core := s.ctx.core
  let spare := s.ctx.spare
  if !trapDue s core spare then .next s
  else slotGang s (fun g =>
    let n := (g.seq spare).traps + 1
    let g := g.restart spare s core
    let g := g.modSeq spare (fun q => { q with traps := n, perf := { q.perf with traps := q.perf.traps + 1 } })
    if 4 ≤ n then g.beginHalt spare timingFault else g)

/-- A queue wait in a region that cannot restart has reached its limit (R40). -/
def longWaitDue (s : State) (core : Nat) (spare : Bool) : Bool :=
  match s.gang core with
  | none => false
  | some g =>
    let q := g.seq spare
    seqRuns g spare && q.immediate && (match queueWaited s q with
      | some n => decide (16 * q.bound ≤ n)
      | none => false)

/-- LONG_WAIT_HALT. -/
def execLongWaitHalt (s : State) : Out :=
  if !longWaitDue s s.ctx.core s.ctx.spare then .next s
  else slotGang s (fun g => (g.modSeq s.ctx.spare (fun q => q.endWait s.cycle)).beginHalt s.ctx.spare timingFault)

/-! ## Halting (R43) -/

/-- Nothing is in flight to the registers of a gang: a LATLD or TLD read that a fence or QSYNC still holds back is none (R43).
(DESIGN CHOICE, log 87) -/
def Gang.drained (g : Gang) : Bool :=
  g.prim.lands.isEmpty && g.spare.lands.isEmpty &&
    g.engines.all (fun en => en.lands.isEmpty && en.xops.all (fun x => x.load.isSome))

/-- FAULT_HALT: with every result landed, the gang halts and its status block is written. (DEDUCED, log 52) -/
def execFaultHalt (s : State) : Out :=
  match s.gang s.ctx.core with
  | none => .next s
  | some g =>
    match g.st, g.halt with
    | .faulting, some r => .next (if g.drained then (s.putGang s.ctx.core (haltGang g r s.cycle)).writeStatus s.ctx.core else s)
    | _, _ => .next s

end Sys2Proof.Machine
end

