-- ==== Sys2Proof/Machine/Scheduler.lean ====
section
/-! DEFINITION. The task scheduler's queues and tasks (R376-R386): submission, acceptance and its checks, completion words, edges and
their cleans, aging, cancelling and completion. -/
namespace Sys2Proof.Machine

/-! ## Task descriptors (R377, R378) -/

/-- A field of a record: n bytes from an offset. -/
def fieldOf (b : List Byte) (off n : Nat) : Nat := bytesVal ((b.drop off).take n)

/-- The descriptor that 256 bytes spell. -/
def parseDescriptor (addr : Nat) (b : List Byte) : Descriptor :=
  { addr, asid := fieldOf b 0x04 2, prio := fieldOf b 0x06 1, flags := fieldOf b 0x07 1, codeVa := fieldOf b 0x08 8,
    codeLen := fieldOf b 0x10 4, dictLen := fieldOf b 0x14 2, ngang := fieldOf b 0x16 2, dictVa := fieldOf b 0x18 8,
    gx := fieldOf b 0x20 2, gy := fieldOf b 0x22 2, gz := fieldOf b 0x24 2, mincap := fieldOf b 0x26 1, saved := fieldOf b 0x27 1,
    regs := fieldOf b 0x28 4, scratch := fieldOf b 0x2C 4, ceiling := fieldOf b 0x30 4, lpSize := fieldOf b 0x34 4,
    lpVa := fieldOf b 0x38 8, saveVa := fieldOf b 0x40 8, ceilVa := fieldOf b 0x48 8, ceilLen := fieldOf b 0x50 4,
    stenLen := fieldOf b 0x54 4, stenVa := fieldOf b 0x58 8, complVa := fieldOf b 0x60 8, xextVa := fieldOf b 0x68 8,
    regionVa := fieldOf b 0x70 8, nregion := fieldOf b 0x78 8, edges := (below 8).map (fun i => fieldOf b (0x80 + 8 * i) 8) }

def Descriptor.span (d : Descriptor) : Bool := d.flags.testBit 0
def Descriptor.xmem (d : Descriptor) : Bool := d.flags.testBit 1
def Descriptor.autoCommit (d : Descriptor) : Bool := d.flags.testBit 2
def Descriptor.notify (d : Descriptor) : Bool := d.flags.testBit 3
/-- Declared registers of cluster c: A, B, C, shared. -/
def Descriptor.regsOf (d : Descriptor) (c : Nat) : Nat := d.regs / 256 ^ c % 256
/-- Regions of group g. -/
def Descriptor.nreg (d : Descriptor) (g : Nat) : Nat := d.nregion / 16 ^ g % 16
/-- The valid edges: number and producer. -/
def Descriptor.validEdges (d : Descriptor) : List (Nat × Nat) :=
  (((below 8).zip d.edges).filter (fun e => e.2.testBit 32)).map (fun e => (e.1, e.2 % 2 ^ 32))
/-- Squads of the grid. -/
def Descriptor.total (d : Descriptor) : Nat := d.gx * d.gy * d.gz

/-- A tag 0 address with bits 63:48 zero, aligned. -/
def vaOk (a align : Nat) : Bool := decide (a < 2 ^ 48) && a % align == 0

/-- The limits of R377 on a descriptor whose reserved bytes are rsv; COMPLVA apart. -/
def Descriptor.ok (d : Descriptor) (rsv : Nat) : Bool :=
  rsv == 0 && d.addr % 256 == 0 && decide (d.prio < 4) && decide (d.flags < 16) && decide (d.saved < 128) && decide (d.nregion < 2 ^ 36) &&
  d.edges.all (fun e => decide (e < 2 ^ 33)) && (below 9).all (fun g => decide (d.nreg g ≤ 8)) &&
  (below 8).all (fun g => d.nreg g == 0 || (d.edges.getD g 0).testBit 32) &&
  decide (1 ≤ d.asid) && decide (1 ≤ d.codeLen) && decide (d.codeLen ≤ 32768) && decide (1 ≤ d.dictLen) && decide (d.dictLen ≤ 8192) &&
  decide (1 ≤ d.ngang) && decide (d.ngang ≤ 32) && (if d.xmem then d.gx == 0 else decide (1 ≤ d.gx)) && decide (1 ≤ d.gy) &&
  decide (1 ≤ d.gz) && [48, 52, 56, 60, 64].contains d.mincap && decide (d.saved % 16 ≤ 8) && decide (d.saved / 16 ≤ 4) &&
  decide (d.regsOf 0 ≤ 96) && decide (d.regsOf 1 ≤ 96) && decide (d.regsOf 2 ≤ 96) && decide (d.regsOf 3 ≤ 32) &&
  decide (d.scratch ≤ 507904) && decide (d.ceiling ≤ 4194304) && decide (d.ceilLen ≤ d.ceiling) && d.lpSize % 4 == 0 &&
  vaOk d.codeVa 64 && vaOk d.dictVa 64 && vaOk d.lpVa 65536 && (d.lpSize != 0 || d.lpVa == 0) && vaOk d.saveVa 4096 && vaOk d.ceilVa 1 &&
  vaOk d.stenVa 4 && (d.stenLen != 0 || d.stenVa == 0) && vaOk d.xextVa 4 && (d.xmem || d.xextVa == 0) && vaOk d.regionVa 16 &&
  (d.nregion != 0 || d.regionVa == 0)

/-- A region record of R378. -/
def regionOk (base len : Nat) : Bool :=
  (base == 0 && len == 0) || (base % 128 == 0 && len % 128 == 0 && base != 0 && len != 0 && decide (base + len ≤ 2 ^ 48))

/-- A group of the region table: its records, or the code of the check that it fails. -/
def readGroup (s : State) (d : Descriptor) (g : Nat) : State × Except Nat (List (Nat × Nat)) :=
  match hubRead s d.asid (d.regionVa + 128 * g) (16 * d.nreg g) with
  | (s, .error _) => (s, .error 0x42)
  | (s, .ok b) =>
    let rs := (below (d.nreg g)).map (fun i => (fieldOf b (16 * i) 8, fieldOf b (16 * i + 8) 8))
    (s, if rs.all (fun r => regionOk r.1 r.2) then .ok rs else .error 0x40)

/-- The region table: the groups read, and the codes of the checks that fail. -/
def readRegions (s : State) (d : Descriptor) : List Nat → State × List (Nat × List (Nat × Nat)) × List Nat
  | [] => (s, [], [])
  | g :: t =>
    if d.nreg g = 0 then readRegions s d t
    else
      let x := readGroup s d g
      let y := readRegions x.1 d t
      match x.2 with
      | .ok rs => (y.1, (g, rs) :: y.2.1, y.2.2)
      | .error c => (y.1, y.2.1, c :: y.2.2)

/-! ## Completion words (R381) -/

/-- The number of a task's state. -/
def TaskState.num : TaskState → Nat
  | .queued => 1 | .ready => 2 | .running => 3 | .done => 4 | .cancelled => 5 | .failed => 6

/-- The completion word is written. (DEDUCED, log 36) (DEDUCED, log 81) -/
def State.writeCompl (s : State) (asid va state code handle detail : Nat) : State :=
  hubWrite s asid va (packBytes [(4, state), (2, code), (2, 0), (4, handle), (4, detail)])

/-- COMPLVA keeps its limits and can be written (R379). -/
def complOk (s : State) (d : Descriptor) : State × Bool :=
  if !vaOk d.complVa 16 then (s, false)
  else match s.translate 224 d.asid d.complVa false true with
    | (s, .error _) => (s, false)
    | (s, .ok pa) => (s, !s.poisoned pa 16)

/-- The task of a handle. -/
def State.task? (s : State) (h : Nat) : Option Task := s.sched.tasks.find? (fun t => t.handle == h)
/-- s with the task of a handle changed. -/
def State.modTask (s : State) (h : Nat) (f : Task → Task) : State :=
  { s with sched := { s.sched with tasks := s.sched.tasks.map (fun t => if t.handle = h then f t else t) } }
/-- A task's state changes, and its completion word with it. -/
def State.setTask (s : State) (t : Task) (st : TaskState) (code detail : Nat) : State :=
  (s.modTask t.handle (fun t => { t with state := st })).writeCompl t.desc.asid t.desc.complVa st.num code t.handle detail

/-- A state that no event changes. -/
def TaskState.terminal : TaskState → Bool
  | .done => true
  | .cancelled => true
  | .failed => true
  | _ => false

/-! ## Submission (R376) -/

/-- A submission that is rejected or dropped (R379, R410). -/
def State.dropSub (s : State) : State := { s with sched := { s.sched with dropped := s.sched.dropped + 1 } }

/-- The checks that decide whether a rejection can be written: the descriptor is readable, its ASID installed and the submitter's
own from a queue of 32-63, and its completion word writable. -/
def readable (s : State) (sub : Submission) : State × Option (Descriptor × Nat) :=
  match hubRead s sub.asid sub.addr.toNat 256 with
  | (s, .error _) => (s, none)
  | (s, .ok b) =>
    let d := parseDescriptor sub.addr.toNat b
    if (kfind s.contexts d.asid).isNone || (decide (32 ≤ sub.queue) && d.asid != sub.asid) then (s, none)
    else match complOk s d with
      | (s, true) => (s, some (d, fieldOf b 0xC0 64))
      | (s, false) => (s, none)

/-- A task is rejected with a code. -/
def State.reject (s : State) (d : Descriptor) (code : Nat) : State :=
  ({ s with sched := { s.sched with rejected := s.sched.rejected + 1 } }).writeCompl d.asid d.complVa 7 code 0 0

/-- A submission reaches its queue: it enters, or finds the queue full. -/
def State.enterQueue (s : State) (sub : Submission) : State × Bool :=
  let q := s.sched.queues.getD sub.queue []
  if q.length < 64 then
    ({ s with sched := { s.sched with queues := modAt s.sched.queues sub.queue (fun q => q ++ [⟨sub, s.cycle⟩]) } }, true)
  else match readable s sub with
    | (s, some (d, _)) => (s.reject d 0x44, false)
    | (s, none) => (s.dropSub, false)

/-- What the scheduler reads of a submission waits for a release under way: its descriptor, its completion word, its region table or its x
extent (R367). (DEDUCED, log 81) -/
def subWaits (s : State) (sub : Submission) : Bool :=
  !s.invs.isEmpty && (s.releasingAny sub.asid sub.addr.toNat 256 || (match (readable s sub).2 with
    | some (d, _) => s.releasingAny d.asid d.complVa 16 || s.releasingAny d.asid d.regionVa (128 * 9) || s.releasingAny d.asid d.xextVa 4
    | none => false))

/-- A queue holds 64 descriptors (R376). -/
def queueFull (s : State) (q : Nat) : Bool := decide (64 ≤ (s.sched.queues.getD q []).length)

/-- A submission on its way has reached its queue: due, and not held by the fences before it (R65); one that finds its queue full is
read (R376). -/
def comingDue (s : State) (c : Coming) : Bool :=
  decide (c.due ≤ s.cycle) && gateOpen s c.sub.core c.marks && !(queueFull s c.sub.queue && subWaits s c.sub)

/-- The next submission to arrive: in ascending core number, a primary's before a spare's. -/
def nextComing (s : State) : Option Coming :=
  (sortBy (fun (a b : Coming) => decide (2 * a.sub.core + a.sub.spare.toNat < 2 * b.sub.core + b.sub.spare.toNat))
    (s.sched.coming.filter (comingDue s))).head?

/-- SUBMISSION_ARRIVAL. (DEDUCED, log 81) -/
def execSubmissionArrival (sub : Submission) (s : State) : Out :=
  let s := match s.sched.coming.find? (fun c => c.sub == sub && comingDue s c) with
    | some c => { s with sched := { s.sched with coming := s.sched.coming.erase c } }
    | none => s
  .next (s.enterQueue sub).1

/-! ## Acceptance (R376, R379, R380) -/

/-- The queue that is served next: eligible, round-robin after the last one served. -/
def nextQueue (s : State) : Option Nat :=
  if s.cycle < s.sched.serveAt then none
  else ((below 64).map (fun i => (s.sched.lastQueue + 1 + i) % 64)).find? (fun q =>
    match s.sched.queues.getD q [] with
    | h :: _ => decide (h.entered + 400 + s.hubMiss h.sub.asid h.sub.addr.toNat 256 ≤ s.cycle) && !subWaits s h.sub
    | [] => false)

/-- The handle after one: a 32-bit count that skips 0. -/
def succHandle (h : Nat) : Nat := if (h + 1) % 2 ^ 32 = 0 then 1 else (h + 1) % 2 ^ 32

/-- The x extent of a descriptor with XMEM, or the code of the check that fails. -/
def readExtent (s : State) (d : Descriptor) : State × Except Nat Nat :=
  if !d.xmem then (s, .ok d.gx)
  else match hubRead s d.asid d.xextVa 4 with
    | (s, .error _) => (s, .error 0x42)
    | (s, .ok b) => (s, if 65535 < bytesVal b then .error 0x43 else .ok (bytesVal b))

/-- The head of a queue is accepted, rejected or dropped. -/
def State.accept (s : State) (sub : Submission) : State :=
  match readable s sub with
  | (s, none) => s.dropSub
  | (s, some (d, rsv)) =>
    if !d.ok rsv then s.reject d 0x40
    else
      let x := readRegions s d (below 9)
      let y := readExtent x.1 d
      let codes := x.2.2 ++ (match y.2 with
        | .error c => [c]
        | .ok _ => []) ++
        (if d.validEdges.any (fun e => e.2 == 0 || (y.1.task? e.2).isNone) then [0x45] else [])
      match sortBy (fun a b => decide (a < b)) codes, y.2 with
      | c :: _, _ => y.1.reject d c
      | [], .error c => y.1.reject d c
      | [], .ok gx =>
        let h := y.1.sched.nextHandle
        let t : Task := { handle := h, desc := { d with gx }, queue := sub.queue, eff := d.prio, accepted := y.1.cycle, regions := x.2.1 }
        let s := { y.1 with sched := { y.1.sched with tasks := y.1.sched.tasks.filter (fun t => t.handle != h) ++ [t], nextHandle := succHandle h } }
        (hubWrite s sub.asid sub.addr.toNat (bytesOf 4 h)).writeCompl d.asid d.complVa 1 0 h 0

/-- TASK_ACCEPT: the head of the next eligible queue is served. -/
def execTaskAccept (s : State) : Out :=
  match nextQueue s with
  | none => .next s
  | some q =>
    match s.sched.queues.getD q [] with
    | [] => .next s
    | e :: _ =>
      .next (({ s with sched := { s.sched with queues := modAt s.sched.queues q (fun l => l.drop 1), lastQueue := q,
                                               serveAt := s.cycle + 8 } }).accept e.sub)

/-! ## Edges (R72, R383) -/

/-- The physical ranges of the parts of a region that are mapped, looked up through the hub cache (R72, R361). -/
def mappedParts (s : State) (asid base : Nat) : List (Nat × Nat) → State × List (Nat × Nat)
  | [] => (s, [])
  | (lo, n) :: t =>
    let x := s.translate 224 asid (base + lo) false false
    let y := mappedParts x.1 asid base t
    match x.2 with
    | .ok pa => (y.1, (pa, n) :: y.2)
    | .error _ => y

/-- The physical ranges of some regions that are mapped; none for the region "all". -/
def regionRanges (s : State) (asid : Nat) : List (Nat × Nat) → State × List (Option (List (Nat × Nat)))
  | [] => (s, [])
  | r :: t =>
    if r = (0, 0) then
      let y := regionRanges s asid t
      (y.1, none :: y.2)
    else
      let x := mappedParts s asid r.1 (partsBy 65536 r.1 r.2)
      let y := regionRanges x.1 asid t
      (y.1, some x.2 :: y.2)

/-- A line lies in a region. -/
def inRegion (rs : Option (List (Nat × Nat))) (line : Nat) : Bool :=
  match rs with
  | none => true
  | some l => l.any (fun p => decide (p.1 < 128 * line + 128) && decide (128 * line < p.1 + p.2))

/-- The regions of an edge are cleaned on some dies, in one event: the write-backs start, late cycles on. -/
def State.cleanRegions (s : State) (dies : List Nat) (rs : List (Option (List (Nat × Nat)))) (late : Nat := 0) : State × Nat :=
  s.startWriteBack (dies.map (fun die => (die, (s.dirtyLines die).filter (fun l => rs.any (fun r => inRegion r l))))) late

/-- The dies of a set. -/
def dieList (m : BitVec 8) : List Nat := (below 8).filter (fun i => m.getLsbD i)

/-- The dies that a clean for producer p covers. -/
def cleanDies (s : State) (p : Task) : List Nat :=
  if (s.sched.recent.take 4096).contains p.handle then dieList p.dies else below 8

/-- The regions of a task's edge, in the producer's address space. -/
def edgeRanges (s : State) (t p : Task) (i : Nat) : State × List (Option (List (Nat × Nat))) :=
  regionRanges s p.desc.asid ((kfind t.regions i).getD [])

/-- A lookup of a task's edge waits for a release under way (R367). (DEDUCED, log 81) -/
def edgeWaits (s : State) (t p : Task) (i : Nat) : Bool :=
  !s.invs.isEmpty && ((kfind t.regions i).getD []).any (fun r => s.releasingAny p.desc.asid r.1 r.2)
/-- What its lookups add to the clean's time. (DEDUCED, log 80) -/
def edgeMiss (s : State) (t p : Task) (i : Nat) : Nat :=
  ((kfind t.regions i).getD []).foldl (fun m r => max m (s.hubMiss p.desc.asid r.1 r.2)) 0

/-- What a queued task does next. -/
inductive EdgeStep where
  | wait | fail (producer : Nat) | clean (edge : Nat) (p : Task) | met
  deriving DecidableEq, Repr

/-- The next step of a queued task (R382, R383). -/
def edgeStep (s : State) (t : Task) : EdgeStep :=
  let ps := t.desc.validEdges.filterMap (fun e => (s.task? e.2).map (fun p => (e.1, p)))
  match ps.find? (fun e => e.2.state == .cancelled || e.2.state == .failed) with
  | some e => .fail e.2.handle
  | none =>
    match ps.find? (fun e => e.2.state == .done && (kfind t.cleans e.1).isNone) with
    | some e => if edgeWaits s t e.2 e.1 then .wait else .clean e.1 e.2
    | none =>
      if ps.all (fun e => match kfind t.cleans e.1 with
        | some c => s.writtenBack c
        | none => false) then .met else .wait

/-- A task is done: its dies are known for a while, the host is told where it must be, and the word is written. -/
def State.finishTask (s : State) (t : Task) : State :=
  let tell := t.desc.notify || decide (t.queue < 32)
  let s := { s with sched := { s.sched with recent := (t.handle :: s.sched.recent).take 4096
                                            notices := if tell then s.sched.notices ++ [t.handle] else s.sched.notices } }
  s.setTask t .done 0 t.doneSquads

/-- The first queued task with a step to make. -/
def nextReady (s : State) : Option (Task × EdgeStep) :=
  s.sched.tasks.findSome? (fun t =>
    if t.state = .queued then
      (match edgeStep s t with
       | .wait => none
       | e => some (t, e))
    else none)

/-- TASK_READY: a queued task fails with its producer, begins the clean of an edge, or becomes READY (DONE where its grid is
empty). -/
def execTaskReady (s : State) : Out :=
  match nextReady s with
  | none => .next s
  | some (t, e) =>
    match e with
    | .wait => .next s
    | .fail p => .next (s.setTask t .failed 0x30 p)
    | .clean i p =>
      let r := edgeRanges s t p i
      let x := r.1.cleanRegions (cleanDies r.1 p) r.2 (edgeMiss s t p i)
      .next (x.1.modTask t.handle (fun t => { t with cleans := kput t.cleans i x.2 }))
    | .met =>
      if t.desc.total = 0 then .next (s.finishTask t)
      else .next ((s.setTask t .ready 0 0).modTask t.handle (fun t => { t with ageFrom := some s.cycle }))

/-! ## Aging (R385) -/

/-- A squad of the task waits to be placed. -/
def Task.waiting (t : Task) : Bool :=
  (t.state == .ready || t.state == .running) && (decide (t.nextSquad < t.desc.total) || t.squads.any (fun q => q.state == .preempted))

/-- The first task whose aging clock has passed CR_AGE. -/
def nextAged (s : State) : Option Task :=
  s.sched.tasks.find? (fun t => t.waiting && !t.raised && (match t.ageFrom with
    | some c => decide (c + s.sched.age % 2 ^ 32 < s.cycle)
    | none => false))

/-- AGING_EXPIRY. -/
def execAgingExpiry (s : State) : Out :=
  match nextAged s with
  | some t => .next (s.modTask t.handle (fun t => { t with raised := true, eff := min 3 (t.eff + 1) }))
  | none => .next s

/-! ## Removal and completion -/

/-- A core becomes free: its gang goes. What it had on the way to its own scratchpads goes with it, its requests for the serial lock
are withdrawn, and invalidations that it began answer to nobody (R375, R311). -/
def State.freeCore (s : State) (c : Nat) : State :=
  let s := s.modCore c (fun k => { k with gang := none })
  let lock := s.lock
  { s with
    lock := { lock with holder := if lock.holder = some c then none else lock.holder, requests := lock.requests.filter (fun r => r != c)
                        released := if lock.holder = some c then some s.cycle else lock.released }
    invs := s.invs.map (fun v => if v.core = c then { v with core := 1000 } else v)
    commits := s.commits.filter (fun d => d.core != c)
    transit := s.transit.filter (fun t => match t.target with
      | .scratch d _ => d != c
      | _ => true) }

/-- The watches of gangs end (R352). -/
def State.endWatches (s : State) (p : Nat × Nat × Nat → Bool) : State :=
  { s with rings := s.rings.map (fun r => (r.1, match r.2.watch with
      | some w => if p w then { r.2 with watch := none } else r.2
      | none => r.2))
           ringEvents := s.ringEvents.filter (fun e => !p e.watcher) }

/-- The cores on which gangs of a task, or of one of its squads, stand. -/
def coresOf (s : State) (h : Nat) (squad : Option Nat) : List Nat :=
  (below 72).filter (fun c => match s.gang c with
    | some g => g.info.handle == h && (match squad with
        | some n => g.info.squad == n
        | none => true)
    | none => false)

/-- Every gang of a task stops and is removed; no held store is released, unplaced squads are dropped (R51, R382). -/
def State.removeTask (s : State) (t : Task) : State :=
  let cs := coresOf s t.handle none
  let s := cs.foldl (fun s c =>
    ((s.modGang c (fun g => { g with st := .cancelled, prim := { g.prim with status := { g.prim.status with state := 5, fault := 0 } }
                                     spare := { g.spare with status := { g.spare.status with state := 5, fault := 0 } } })).writeStatus c).freeCore c) s
  let s := s.endWatches (fun w => w.1 == t.handle)
  let s := { s with coll := s.coll.filter (fun i => i.key.handle != t.handle) }
  s.modTask t.handle (fun t => { t with squads := [], nextSquad := t.desc.total })

/-- A task's last squad has completed. -/
def Task.allDone (t : Task) : Bool := t.state == .running && decide (t.desc.total ≤ t.doneSquads)

/-- A cancel of a handle by an ASID, or by the host (R382). -/
def State.cancelTask (s : State) (h : Nat) (asid : Option Nat) : State :=
  match s.task? h with
  | none => s
  | some t =>
    if t.state.terminal || t.allDone || (match asid with
      | some a => a != t.desc.asid
      | none => false) then s
    else (s.removeTask t).setTask t .cancelled 0 0

/-- A cancel on its way has reached the scheduler. -/
def cancelDue (s : State) (c : ComingCancel) : Bool := decide (c.due ≤ s.cycle) && gateOpen s c.core c.marks

/-- TASK_CANCEL: a cancel reaches the scheduler. -/
def execTaskCancel (handle asid : Nat) (s : State) : Out :=
  let s := match s.sched.cancels.find? (fun c => c.handle == handle && c.asid == asid && cancelDue s c) with
    | some c => { s with sched := { s.sched with cancels := s.sched.cancels.erase c } }
    | none => s
  .next (s.cancelTask handle (some asid))

/-- A task fails: a running one is removed as on a cancel. -/
def State.failTask (s : State) (t : Task) (code detail : Nat) : State :=
  (if t.state = .running then s.removeTask t else s).setTask t .failed code detail

/-- The first task whose last squad has completed and whose next step of R384 is due. -/
def nextComplete (s : State) : Option Task :=
  s.sched.tasks.find? (fun t => t.allDone && (match t.finishDue with
    | none => true
    | some c => s.writtenBack c))

/-- TASK_COMPLETE (R384): the stores' lines are written back, and then the task is DONE. (DEDUCED, log 35) -/
def execTaskComplete (s : State) : Out :=
  match nextComplete s with
  | none => .next s
  | some t =>
    match t.finishDue with
    | none =>
      let x := s.cleanRegions (dieList t.dies) [none]
      .next (x.1.modTask t.handle (fun t => { t with finishDue := some x.2 }))
    | some _ => .next (s.finishTask t)

end Sys2Proof.Machine
end

