-- ==== Sys2Proof/Machine/Placement.lean ====
section
/-! DEFINITION. Placement, launch, pre-emption and resumption of squads (R19, R26-R30, R49, R50, R74, R78, R79, R250, R257,
R387-R389), the exit of gangs (R162), and the resident agent's repair of SPARSE halts (R374). -/
namespace Sys2Proof.Machine

/-! ## Capabilities (R19) -/

/-- The row capability of an engine with some good rows. -/
def rowCap (good : Nat) : Nat :=
  if 64 ≤ good then 64 else if 60 ≤ good then 60 else if 56 ≤ good then 56 else if 52 ≤ good then 52 else if 48 ≤ good then 48 else 0
/-- The capability of engine e of a core. -/
def Core.capOf (c : Core) (e : Nat) : Nat := if inMask c.fencedEngines e then 0 else rowCap (64 - sget 0 c.lostRows e)
/-- The live engines of a core. -/
def Core.liveMask (c : Core) : Mask := maskOf ((below 16).filter (fun e => c.capOf e != 0))
/-- The gang capability of a core: the least of its live engines. -/
def Core.gangCap (c : Core) : Nat := (maskList c.liveMask).foldl (fun m e => min m (c.capOf e)) 64

/-! ## Choosing cores (R387) -/

/-- A core is free: no gang stands on it and no squad that is about to start has it. -/
def coreFree (s : State) (c : Nat) : Bool :=
  (s.gang c).isNone && s.sched.tasks.all (fun t => t.squads.all (fun q => match q.state with
    | .placed _ => !q.cores.contains c
    | _ => true))

/-- A core qualifies by itself: not fenced, capable enough, with a live spare where a split needs one, and with the rows that a saved
gang had. -/
def coreFits (s : State) (mincap : Nat) (split : Bool) (saved : Option Gang) (c : Nat) : Bool :=
  let k := s.core c
  !k.fenced && k.liveMask != 0 && decide (mincap ≤ k.gangCap) && (!split || !k.spareFailed) &&
  (match saved with
   | some g => (maskList g.live).all (fun e => k.capOf e != 0 && decide ((g.eng e).capRows ≤ k.capOf e))
   | none => true)

/-- The dies with at least n cores of a list, fewest first. -/
def oneDie (cores : List Nat) (n : Nat) : List Nat :=
  let count (d : Nat) : Nat := (cores.filter (fun c => dieOf c == d)).length
  sortBy (fun a b => decide (count a < count b)) ((below 8).filter (fun d => decide (n ≤ count d)))

/-- The sets of dies that a spanning squad may take, smallest first: most cores first, with cores enough, at most four. -/
def spanDies (cores : List Nat) (n : Nat) : List (List Nat) :=
  let count (d : Nat) : Nat := (cores.filter (fun c => dieOf c == d)).length
  let ds := sortBy (fun a b => decide (count b < count a)) ((below 8).filter (fun d => count d != 0))
  ((upFrom 1 (min 4 ds.length)).map (fun k => ds.take k)).filter (fun l => decide (n ≤ (l.map count).sum))

/-- The choices of dies in the order in which they are tried. -/
def dieChoices (cores : List Nat) (n : Nat) (span : Bool) : List (List Nat) :=
  (oneDie cores n).map (fun d => [d]) ++ (if span then spanDies cores n else [])

/-- Cores for the positions of an unplaced squad: die by die, lowest-numbered first (R26). -/
def chooseNew (cores : List Nat) (n : Nat) (span : Bool) : Option (List Nat) :=
  ((dieChoices cores n span).head?).map (fun ds => (ds.flatMap (fun d => cores.filter (fun c => dieOf c == d))).take n)

/-- The assignment of cores of a pool to positions that gives position 0 the lowest core, then position 1, and so on. -/
def assign : List (List Nat) → List Nat → Option (List Nat)
  | [], _ => some []
  | q :: t, pool => (pool.filter (fun c => q.contains c)).findSome? (fun c =>
      (assign t (pool.filter (fun d => d != c))).map (fun l => c :: l))

/-- Cores for the saved gangs of a pre-empted squad, each position by itself. -/
def chooseAgain (quals : List (List Nat)) (span : Bool) : Option (List Nat) :=
  let any := (below 72).filter (fun c => quals.any (fun q => q.contains c))
  (dieChoices any quals.length span).findSome? (fun ds => assign quals (any.filter (fun c => ds.contains (dieOf c))))

/-- A squad of saved gangs needs live spares. -/
def Squad.splitOut (q : Squad) : Bool := q.saves.any (fun g => g.split)

/-- Cores for a squad of a task from those that a predicate calls free: an unplaced squad, or a pre-empted one. -/
def choose (s : State) (t : Task) (q : Option Squad) (free : Nat → Bool) : Option (List Nat) :=
  match q with
  | none => chooseNew ((below 72).filter (fun c => free c && coreFits s t.desc.mincap false none c)) t.desc.ngang t.desc.span
  | some q => chooseAgain (q.saves.map (fun g =>
      (below 72).filter (fun c => free c && coreFits s t.desc.mincap q.splitOut (some g) c))) t.desc.span

/-- The first candidate: the waiting task of highest effective priority, the earliest accepted among equals. -/
def firstTask (s : State) : Option Task :=
  match s.sched.tasks.filter (·.waiting) with
  | [] => none
  | t :: ts => some (ts.foldl (fun b u => if b.eff < u.eff then u else b) t)

/-- Its squad to be placed: the lowest-numbered pre-empted one, else (none) the next unplaced one. -/
def Task.nextSaved (t : Task) : Option Squad :=
  (sortBy (fun (a b : Squad) => decide (a.num < b.num)) (t.squads.filter (fun q => q.state == .preempted))).head?

/-- No set of live cores can ever hold a squad of the task (R387, code 0x31). -/
def neverFits (s : State) (t : Task) : Bool :=
  let cores := (below 72).filter (coreFits s t.desc.mincap false none)
  if t.desc.span then decide (cores.length < t.desc.ngang)
  else (below 8).all (fun d => decide ((cores.filter (fun c => dieOf c == d)).length < t.desc.ngang))

/-- Some saved gang of a squad can never be placed again (code 0x34). -/
def Squad.stranded (q : Squad) (s : State) (t : Task) : Bool :=
  q.saves.any (fun g => !(below 72).any (coreFits s t.desc.mincap q.splitOut (some g)))

/-! ## Images (R78, R79, R250, R257, R388) -/

/-- The code address of the literal whose payload the image ends in, or of none: skip words are payload, n is the address. -/
def scanImage : List CodeWord → Nat → Nat → Nat → Option Nat
  | [], skip, _, last => if skip = 0 then none else some last
  | w :: t, skip, n, last =>
    if skip = 0 then scanImage t (if w = escapeWord then 24 else 0) (n + 1) n else scanImage t (skip - 1) (n + 1) last

/-- The values of n-byte groups. -/
def groupsOf (n : Nat) (b : List Byte) : List Nat := (below (b.length / n)).map (fun i => fieldOf b (n * i) n)

/-- The kernel's entry bundle stands in the dictionary without RP: its index (R37). -/
def entryBad (code : List CodeWord) (dict : List BundleBits) : Option Nat :=
  match code with
  | w :: _ => if w ≠ escapeWord ∧ w.toNat < dict.length ∧ !(dict.getD w.toNat 0).getLsbD 383 then some w.toNat else none
  | [] => none

/-- Every nibble of a stencil word has two bits. -/
def stencilOk (w : Nat) : Bool := (below 8).all (fun i => popMask (w / 16 ^ i % 16) == 2)

/-- The stencil section's DETAIL where it breaks R257. -/
def stencilBad (b : List Byte) : Option Nat :=
  if b.length % 4 ≠ 0 ∨ 32768 < b.length then some (2 ^ 31 + b.length)
  else ((below (b.length / 4)).find? (fun i => !stencilOk (fieldOf b (4 * i) 4))).map (fun i => 2 ^ 31 + 4 * i)

/-- The bytes of one of a descriptor's images, and of the others: code, dictionary, ceiling and stencil; or the number of the first
that cannot be read. -/
def readImages (s : State) (d : Descriptor) : State × Except Nat (List Byte × List Byte × List Byte × List Byte) :=
  match hubRead s d.asid d.codeVa (2 * d.codeLen) with
  | (s, .error _) => (s, .error 0)
  | (s, .ok code) =>
    match hubRead s d.asid d.dictVa (48 * d.dictLen) with
    | (s, .error _) => (s, .error 1)
    | (s, .ok dict) =>
      match hubRead s d.asid d.ceilVa (if d.ceilVa = 0 then 0 else d.ceilLen) with
      | (s, .error _) => (s, .error 2)
      | (s, .ok ceil) =>
        match hubRead s d.asid d.stenVa d.stenLen with
        | (s, .error _) => (s, .error 3)
        | (s, .ok sten) => (s, .ok (code, dict, ceil, sten))

/-- A task with its images as read. -/
def Task.withImages (t : Task) (x : List Byte × List Byte × List Byte × List Byte) : Task :=
  { t with code := (groupsOf 2 x.1).map (BitVec.ofNat 16), dict := (groupsOf 48 x.2.1).map (BitVec.ofNat 384), ceilImage := x.2.2.1
           stencil := (groupsOf 4 x.2.2.2).map (BitVec.ofNat 32), loaded := true }

/-- The checks of a task's images at its first placement (R78, R79, R257): code and DETAIL of its failure.
(DESIGN CHOICE, log 31) -/
def imagesBad (t : Task) (sten : List Byte) : Option (Nat × Nat) :=
  let d := t.desc
  let g : Gang := { info := { regsA := d.regsOf 0, regsB := d.regsOf 1, regsC := d.regsOf 2, regsS := d.regsOf 3 } }
  match scanImage t.code 0 0 0 with
  | some a => some (0x01, a)
  | none =>
    match (below t.dict.length).find? (fun i => staticFaults g (t.dict.getD i 0) (looseBundle (t.dict.getD i 0)) != []) with
    | some i => some (0x03, i)
    | none =>
      match entryBad t.code t.dict, stencilBad sten with
      | some i, _ => some (0x03, i)
      | none, some a => some (0x03, a)
      | none, none => none

/-- The images of a task are read and decoded at its first placement: the task with them, or the code and DETAIL of its failure.
(DESIGN CHOICE, log 31) -/
def loadImages (s : State) (t : Task) : State × Except (Nat × Nat) Task :=
  match readImages s t.desc with
  | (s, .error i) => (s, .error (0x32, i))
  | (s, .ok x) =>
    (s, match imagesBad (t.withImages x) x.2.2.2 with
      | some e => .error e
      | none => .ok (t.withImages x))

/-- A later placement of a squad loads the images again from the same addresses, without their checks (R75, R388); while one of them
cannot be read, the images loaded before stand. (DESIGN CHOICE, log 31) -/
def reloadImages (s : State) (t : Task) : State × Task :=
  match readImages s t.desc with
  | (s, .error _) => (s, t)
  | (s, .ok x) => (s, t.withImages x)

/-! ## Placement (R387, R388) -/

/-- The images of a descriptor: address and bytes. -/
def Descriptor.images (d : Descriptor) : List (Nat × Nat) :=
  [(d.codeVa, 2 * d.codeLen), (d.dictVa, 48 * d.dictLen), (d.ceilVa, if d.ceilVa = 0 then 0 else d.ceilLen), (d.stenVa, d.stenLen)]
/-- A lookup of one of a descriptor's images waits for a release under way (R367). (DEDUCED, log 81) -/
def imagesWait (s : State) (d : Descriptor) : Bool := d.images.any (fun i => s.releasingAny d.asid i.1 i.2)
/-- What the lookups of its images add to the time of a placement (R362). (DEDUCED, log 80) -/
def imagesMiss (s : State) (d : Descriptor) : Nat := d.images.foldl (fun m i => max m (s.hubMiss d.asid i.1 i.2)) 0

/-- The cycle before which the first bundles of a squad placed now do not issue; late: what the lookups of its images add. -/
def firstBundle (s : State) (d : Descriptor) (late : Nat) : Nat :=
  s.cycle + late + 1000 + (d.dictLen + 7) / 8 + (d.codeLen + 63) / 64 + (d.ceilLen + d.stenLen + 255) / 256

/-- A squad of a task is placed on cores. -/
def State.dispatch (s : State) (t : Task) (q : Option Squad) (cores : List Nat) (late : Nat) : State :=
  let starts := firstBundle s t.desc late
  let new : Squad := match q with
    | some q => { q with state := .placed starts, cores, placedAt := s.cycle, prio := t.eff }
    | none => { num := t.nextSquad, state := .placed starts, cores, placedAt := s.cycle, prio := t.eff }
  let t' : Task :=
    { t with nextSquad := if q.isSome then t.nextSquad else t.nextSquad + 1
             squads := t.squads.filter (fun r => r.num != new.num) ++ [new]
             dies := cores.foldl (fun m c => m ||| (1#8 <<< dieOf c)) t.dies
             ageFrom := some s.cycle }
  let s := s.modTask t.handle (fun _ => t')
  let s := { s with sched := { s.sched with placements := s.sched.placements + 1 } }
  if t.state = .ready then s.setTask t' .running 0 0 else s

/-- A task's first candidate squad is unplaced, and it can be placed or can never be. (DESIGN CHOICE, log 31) -/
def squadDue (s : State) : Option (Task × Option (List Nat)) :=
  match firstTask s with
  | some t =>
    if t.nextSaved.isSome then none
    else if t.nextSquad = 0 ∧ neverFits s t then some (t, none)
    else if imagesWait s t.desc then none
    else (choose s t none (coreFree s)).map (fun l => (t, some l))
  | none => none

/-- SQUAD_PLACE: the first candidate squad, an unplaced one, is placed; or its task fails at its first placement. -/
def execSquadPlace (s : State) : Out :=
  match squadDue s with
  | none => .next s
  | some (t, none) => .next (s.failTask t 0x31 t.desc.ngang)
  | some (t, some cores) =>
    let late := imagesMiss s t.desc
    if t.loaded then
      let x := reloadImages s t
      .next (x.1.dispatch x.2 none cores late)
    else match loadImages s t with
      | (s, .error (code, detail)) => .next (s.failTask t code detail)
      | (s, .ok t') => .next (s.dispatch t' none cores late)

/-- The first running task with a pre-empted squad that can never be resumed. -/
def strandedTask (s : State) : Option (Task × Squad) :=
  s.sched.tasks.findSome? (fun t =>
    if t.state = .running then (t.squads.find? (fun q => q.state == .preempted && q.stranded s t)).map (fun q => (t, q)) else none)

/-- A pre-empted squad is the first candidate and can be placed. -/
def resumeDue (s : State) : Option (Task × Squad × List Nat) :=
  match firstTask s with
  | some t =>
    match t.nextSaved with
    | some q => if imagesWait s t.desc then none else (choose s t (some q) (coreFree s)).map (fun l => (t, q, l))
    | none => none
  | none => none

/-- SQUAD_RESUME: a pre-empted squad is placed again at its positions, its images loaded again (R75); or, where it can never be, its
task fails. -/
def execSquadResume (s : State) : Out :=
  match strandedTask s with
  | some (t, q) => .next (s.failTask t 0x34 q.num)
  | none =>
    match resumeDue s with
    | some (t, q, l) =>
      let x := reloadImages s t
      .next (x.1.dispatch x.2 (some q) l (imagesMiss s t.desc))
    | none => .next s

/-! ## The first bundle (R28, R30, R129, R175, R250, R388) -/

/-- What the placement gives the gang at a position. -/
def gangInfo (t : Task) (q : Squad) (pos : Nat) : GangInfo :=
  let d := t.desc
  let num := q.num
  let cores := q.cores
  let dies := (cores.map dieOf).eraseDups
  let die := dieOf (cores.getD pos 0)
  let idx := num * d.ngang + pos
  { asid := d.asid, handle := t.handle, prio := q.prio, squad := num
    xyz := (num % d.gx, num / d.gx % d.gy, num / (d.gx * d.gy)), grid := (d.gx, d.gy, d.gz)
    pos, ngang := d.ngang, span := d.span, ndie := dies.length, dix := dies.idxOf die
    sameDie := (below cores.length).foldl (fun m j => if dieOf (cores.getD j 0) = die then m ||| (1#32 <<< j) else m) 0
    cores, regsA := d.regsOf 0, regsB := d.regsOf 1, regsC := d.regsOf 2, regsS := d.regsOf 3
    spSize := d.scratch, ceilSize := d.ceiling
    lpBase := d.lpVa + idx * ((512 * d.lpSize + 65535) / 65536 * 65536), lpSize := d.lpSize
    ntile := d.saved % 16, nlatch := d.saved / 16 % 8
    saveBase := if d.saveVa = 0 then 0 else d.saveVa + idx * saveSize (engSize (d.regsOf 0) (d.regsOf 1) (d.regsOf 2) (d.regsOf 3)
      (d.saved % 16) (d.saved / 16 % 8) d.scratch d.ceiling)
    autoCommit := d.autoCommit }

/-- The primary as a gang's first bundle finds it. -/
def firstSeq (live : Mask) (now : Nat) : Seq := { active := live, base := now }

/-- A gang at its first bundle on a core. (DEDUCED, log 39) -/
def launchGang (k : Core) (info : GangInfo) (code : List CodeWord) (dict : List BundleBits) (stencil : List Lane) (ceil : List Byte)
    (now : Nat) : Gang :=
  let image := storeBytes [] 0 (ceil.map some)
  let engines := (below 16).map (fun e => ({ capRows := k.capOf e, bind := { base := e }, ceil := image } : Engine))
  let prim := firstSeq k.liveMask now
  { info, code, dict, stencil, live := k.liveMask, gangCap := k.gangCap, prim, spareLive := !k.spareFailed, engines
    ckptP := some { at_ := now, seq := prim, engines := (maskList k.liveMask).map (fun e => (e, engines.getD e {})), split := false,
                    splitTag := 0, splitDepth := 0, splitEngines := 0 } }

/-- A saved engine as it comes back: undeclared registers and what the save does not hold read 0 (R50). -/
def Engine.comeBack (en : Engine) (i : GangInfo) (now : Nat) : Engine :=
  let declared (r : Nat) : Bool :=
    if r < 96 then decide (r < i.regsA) else if r < 192 then decide (r - 96 < i.regsB)
    else if r < 288 then decide (r - 192 < i.regsC) else decide (r - 288 < i.regsS)
  { en with v := en.v.filter (fun p => declared p.1), c := en.c.filter (fun p => decide (p.1 < 64 * i.ntile))
            l := en.l.filter (fun p => decide (p.1 < 64 * i.nlatch)), wrote := [], seen := [], banks := []
            walks := en.walks.map (fun w => if w.started.isSome then { w with started := some now, pushed := 0 } else w) }

/-- A unit's running operation goes on from its resume point. -/
def UnitState.comeBack (u : UnitState) (now : Nat) : UnitState :=
  { u with queue := u.queue.map (fun o => if o.started.isSome then { o with started := some now, lines := 0, pinned := 0, pins := [] } else o) }

/-- A saved gang at its squad's next first bundle (R50): its registers and capabilities as saved, its images as loaded again, its
membership as placed now. (DEDUCED, log 32) -/
def Gang.comeBack (g : Gang) (t : Task) (info : GangInfo) (spareLive : Bool) (now : Nat) : Gang :=
  let wake (q : Seq) : Seq := { q.refetch with base := now, tried := none, wait := none, stopped := false
                                               status := if g.st = .preempted then { q.status with state := 0 } else q.status }
  { g with info, code := t.code, dict := t.dict, stencil := t.stencil, copied := [], st := if g.st = .preempted then .running else g.st, prim := wake g.prim, spare := wake g.spare, spareLive
           preemptReq := false, saveDue := none, saved := false, engines := g.engines.map (fun en => en.comeBack info now)
           cp0 := g.cp0.comeBack now, cp1 := g.cp1.comeBack now, cl := g.cl.comeBack now }

/-- The halt of a gang whose core or engine is fenced (R22, R406). -/
def hwFenceFault (m : Mask) : FaultRec := { slotFault .hwFence 0 14 0 with engmask := m }

/-- The gang at a position of a squad on its core, as it stands at the first bundle: on a core that has been fenced meanwhile, or with a
live engine of its own fenced, it halts before it issues, so that no thread of a fenced engine runs (R13, R22). (DEDUCED, log 32)
(DESIGN CHOICE, log 49) -/
def squadGang (s : State) (t : Task) (q : Squad) (pos core : Nat) : Gang :=
  let k := s.core core
  let info := gangInfo t q pos
  let g := match q.saves.find? (fun g => g.info.pos == pos) with
    | some g => g.comeBack t info (!k.spareFailed) s.cycle
    | none => launchGang k info t.code t.dict t.stencil t.ceilImage s.cycle
  let lost := if k.fenced then g.live else g.live &&& k.fencedEngines
  if g.st == .running && (k.fenced || lost != 0) then g.beginHalt false (hwFenceFault lost) else g

/-- A line's dirty bytes are written back, and the die drops its copy. -/
def State.flushLine (s : State) (die l : Nat) : State := (s.writeBackLine die l).dropLine die l

/-- A dirty line waits in its die cache: a commit has locked one of its sectors (R308). -/
def lineHeld (s : State) (die l : Nat) : Bool := (s.line die l).dirty != 0 && s.locked (128 * l) 128

/-- The lines of an edge's regions that a die caches. -/
def edgeLines (s : State) (rs : List (Option (List (Nat × Nat)))) (die : Nat) : List Nat :=
  ((s.dieCaches.getD die []).map (·.1)).filter (fun l => rs.any (fun r => inRegion r l))

/-- The drop of a task's edge regions from some dies waits: for a release of one of their pages under way (R367), or for a commit that has
locked a sector of a line that is to be written back (R308). -/
def dropWaits (s : State) (t : Task) (dies : List Nat) : Bool :=
  (!s.invs.isEmpty || !s.commits.isEmpty) && t.desc.validEdges.any (fun e => match s.task? e.2 with
    | none => false
    | some p => edgeWaits s t p e.1 || dies.any (fun d => (edgeLines s (edgeRanges s t p e.1).2 d).any (lineHeld s d)))

/-- The dies of a squad drop the lines of the task's edge regions (R72, R383); bytes that one of them holds dirty there go to the home
slice first. (DESIGN CHOICE, log 72) -/
def State.dropEdges (s : State) (t : Task) (dies : List Nat) : State :=
  t.desc.validEdges.foldl (fun s e =>
    match s.task? e.2 with
    | none => s
    | some p =>
      let x := edgeRanges s t p e.1
      dies.foldl (fun s d => (edgeLines s x.2 d).foldl (fun s l => s.flushLine d l) s) x.1) s

/-- The squad whose first bundles are due. -/
def nextStart (s : State) : Option (Task × Squad) :=
  s.sched.tasks.findSome? (fun t => (t.squads.find? (fun q => match q.state with
    | .placed n => decide (n ≤ s.cycle) && !dropWaits s t ((q.cores.map dieOf).eraseDups)
    | _ => false)).map (fun q => (t, q)))

/-- A gang stands on its core: CR_TCMISS of the core reads 0 (R4, R360), and the gang's status block is written (R48). -/
def State.standOn (s : State) (core : Nat) (g : Gang) : State :=
  (s.modCore core (fun k => { k with gang := some g, tcMiss := 0 })).writeStatus core

/-- GANG_START: every gang of a placed squad stands on its core and issues from this cycle on. (DEDUCED, log 5) -/
def execGangStart (handle squad : Nat) (s : State) : Out :=
  match nextStart s with
  | some (t, q) =>
    if t.handle ≠ handle ∨ q.num ≠ squad then .next s
    else
      let s := s.dropEdges t ((q.cores.map dieOf).eraseDups)
      let s := ((below q.cores.length).zip q.cores).foldl (fun s p => s.standOn p.2 (squadGang s t q p.1 p.2)) s
      .next (s.modTask handle (fun t => { t with squads := t.squads.map (fun r =>
        if r.num = squad then { r with state := .running, saves := [] } else r) }))
  | none => .next s

/-! ## Pre-emption (R49, R50, R74, R333, R345, R389) -/

/-- The cores of the squads that are stopping. -/
def stoppingCores (s : State) : List Nat :=
  s.sched.tasks.flatMap (fun t => (t.squads.filter (fun q => q.state == .stopping)).flatMap (·.cores))

/-- Running squads of tasks that may be pre-empted for a task: effective priority and placement cycle, with the squad.
(DEDUCED, log 33) -/
def victims (s : State) (t : Task) : List (Nat × Nat × Squad) :=
  s.sched.tasks.flatMap (fun (u : Task) =>
    if u.desc.saveVa ≠ 0 ∧ u.eff < t.eff then
      ((u.squads.filter (fun q => q.state == .running)).map (fun q => (u.eff, u.handle, q)))
    else [])

/-- The victim that is requested next: the youngest squad of the lowest priority. -/
def nextVictim (s : State) : Option (Nat × Squad) :=
  match firstTask s with
  | none => none
  | some t =>
    let q := t.nextSaved
    let gone := stoppingCores s
    let vs := victims s t
    let all := gone ++ vs.flatMap (fun v => v.2.2.cores)
    if (choose s t q (fun c => coreFree s c || gone.contains c)).isSome then none
    else if (choose s t q (fun c => coreFree s c || all.contains c)).isNone then none
    else match vs with
      | [] => none
      | v :: t => some ((t.foldl (fun b v => if v.1 < b.1 ∨ (v.1 = b.1 ∧ b.2.2.placedAt < v.2.2.placedAt) then v else b) v).2)

/-- PREEMPTION_REQUEST: a squad is asked to stop. -/
def execPreemptionRequest (s : State) : Out :=
  match nextVictim s with
  | none => .next s
  | some (h, q) =>
    let s := s.modTask h (fun t => { t with squads := t.squads.map (fun r => if r.num = q.num then { r with state := .stopping } else r) })
    .next ((coresOf s h (some q.num)).foldl (fun s c => s.modGang c (fun g => { g with preemptReq := true })) s)

/-- Every entry of the load-data queues and iq of a set of engines has resolved, and every immediate operation. -/
def entriesQuiet (g : Gang) (own : Mask) (now : Nat) : Bool :=
  (maskList own).all (fun k =>
    let en := g.eng k
    (en.q0 ++ en.q1 ++ en.iq).all (fun e => e.resolved now) && (placesOf g k).all (fun e => !e.open_))

/-- Nothing is in flight to a sequencer and its engines. -/
def resultsQuiet (g : Gang) (spare : Bool) : Bool :=
  (g.seq spare).lands.isEmpty && (maskList (g.driven spare)).all (fun k => (g.eng k).lands.isEmpty && (g.eng k).xops.isEmpty)

/-- The restart point at which a sequencer may stop: its bundle is one, and it is about to issue or waits there (R49). -/
def atStop (s : State) (g : Gang) (spare : Bool) : Bool :=
  let q := g.seq spare
  (match g.fetch q.pc with
   | some (w, _) => w.getLsbD 383
   | none => false) &&
  (q.wait.isSome || decide (issueAt g q ≤ s.cycle))

/-- The collective port of a gang has no running operation (R345). -/
def portStopped (g : Gang) : Bool :=
  match g.cl.queue with
  | o :: _ => o.started.isNone || o.fault.isSome
  | [] => true

/-- A sequencer stops in this cycle. (DEDUCED, log 33) -/
def stopsNow (s : State) (core : Nat) (g : Gang) (spare : Bool) : Bool :=
  g.preemptReq && seqRuns g spare && atStop s g spare && resultsQuiet g spare && entriesQuiet g (g.driven spare) s.cycle &&
  !batchPending g spare && portStopped g && s.lock.holder != some core && !s.lock.requests.contains core

/-- The level of the BAR at an address. -/
def Gang.barLevel (g : Gang) (pc : Nat) : Nat :=
  match g.fetch pc with
  | some (w, _) => (match (looseBundle w).s0 with
      | some (.bar l) => l.toNat
      | _ => 0)
  | none => 0

/-- A sequencer stops: a BAR arrival is withdrawn, and the ending region's stores are sealed (R49, R389). -/
def Gang.stopSeq (g : Gang) (spare : Bool) (now : Nat) : Gang :=
  let q := g.seq spare
  let l := g.barLevel q.pc
  let g := if q.arrived then { g with arrivals := [g.arrived 0 - 1, if 1 ≤ l then g.arrived 1 - 1 else g.arrived 1,
                                                   if l = 2 then g.arrived 2 - 1 else g.arrived 2] } else g
  let g := g.seal spare (g.driven spare) now
  g.modSeq spare (fun q => { q.endWait now with stopped := true, arrived := false })

/-- Every unit of a gang stands at a stop point (R333, R345). -/
def unitsStopped (g : Gang) : Bool :=
  let copy (u : UnitState) : Bool := match u.queue with
    | o :: _ => o.started.isNone || o.fault.isSome || o.elem == 0
    | [] => true
  copy g.cp0 && copy g.cp1 && portStopped g &&
  g.engines.all (fun en => match en.walks with
    | w :: _ => w.started.isNone || w.fault.isSome || w.batch == 0 || decide (64 ≤ en.iq.length) || decide (64 ≤ en.q1.length)
    | [] => true)

/-- A stopped gang has released its stores and its units stand still. -/
def Gang.quiet (g : Gang) (s : State) (core : Nat) : Bool :=
  g.st == .running && g.preemptReq && g.prim.stopped && (!g.split || g.spare.stopped) && g.prim.batch.isNone && g.spare.batch.isNone &&
  unitsStopped g && entriesQuiet g g.live s.cycle && resultsQuiet g false && (!g.split || resultsQuiet g true) &&
  s.transit.all (fun t => t.core != core)

/-- Every optimistic member of a transaction that is not doomed becomes doomed with cause 3, CODE 0x20 (R311). -/
def TxState.doomAll (t : TxState) (c : TxLog) : TxState :=
  if c.serial then t
  else (below 32).foldl (fun t l => if c.members.getLsbD l && !c.doomed.getLsbD l then t.doom c.id l 3 0x20 0 else t) t

/-- A log without its entries. -/
def TxLog.bare (c : TxLog) : TxLog := { c with reads := [], writes := [] }

/-- A pre-empted gang's transactions, the open one and those whose TXEND is still to be performed: they are saved without their logs, and
their optimistic members are doomed (R311). -/
def TxState.preempted (t : TxState) : TxState :=
  let u := t.closing.foldl TxState.doomAll (if t.opened then t.doomAll t.cur else t)
  { u with cur := u.cur.bare, closing := u.closing.map TxLog.bare }

/-- A gang as it is saved: one that was halted keeps its STATE, the block of another reads STATE 3 (R48, R389). -/
def Gang.preempted (g : Gang) (now : Nat) : Gang :=
  let block (q : Seq) : Status :=
    { state := 3, pc := q.pc, rppc := q.rppc, slot := 14, queue := 0xFF, traps := q.traps, cycle := now }
  let g : Gang := { g with saved := true, engines := g.engines.map (fun en => { en with tx := en.tx.preempted }) }
  if g.st = .running then
    { g with st := .preempted, prim := { g.prim with status := block g.prim }
             spare := if g.split then { g.spare with status := block g.spare } else g.spare }
  else g

/-- The operations on page tables of a halted gang are over, but for those that only its resuming can let go: they stand behind a release
whose batch has faulted (R375). (DEDUCED, log 33) -/
def xlatesOver (s : State) (core : Nat) (g : Gang) : Bool :=
  let stuck (k serial lq : Nat) (kind : AccKind) (begun : Bool) : Bool :=
    !begun && !mayPerform s core g k serial lq kind && [g.prim, g.spare].any (fun q => q.batch.any (fun b => b.fault.isSome))
  (below g.engines.length).all (fun k =>
    ((g.eng k).q0 ++ (g.eng k).q1).all (fun e => !e.acc.kind.isXlate || e.resolved s.cycle || stuck k e.serial e.acc.lq e.acc.kind (e.begun || e.performed)) &&
    (placesOf g k).all (fun e => !e.acc.kind.isXlate || !e.open_ || stuck k e.serial e.acc.lq e.acc.kind e.begun))

/-- A halted gang may be saved: what it had handed to memory is there, its units stand still, no invalidation of its own is under
way, it has no commit under way, and it neither holds the serial lock nor waits for it (R74, R311, R333, R345, R375). -/
def Gang.still (g : Gang) (s : State) (core : Nat) : Bool :=
  g.st == .halted && [g.prim, g.spare].all (fun q => match q.batch with
    | some b => b.fault.isSome
    | none => true) && unitsStopped g && s.transit.all (fun t => t.core != core) && s.invs.all (fun v => v.core != core) &&
  s.commits.all (fun d => d.core != core) && s.lock.holder != some core && !s.lock.requests.contains core && xlatesOver s core g

/-- What an exited gang released is there: its exit batch is performed at package scope, and so its lock released (R310, R311). -/
def exitOver (s : State) (core : Nat) : Bool :=
  s.transit.all (fun t => t.core != core) && s.commits.all (fun d => d.core != core) && s.lock.holder != some core

/-- The lines that a gang's release at package scope writes back: those dirty that hold stores of its engines and copy engines, or that
its engines have read dirty (R65, R74, R322). -/
def Gang.releaseLines (g : Gang) (s : State) (core : Nat) : List Nat :=
  ascending ((g.copied ++ g.engines.flatMap (fun en => en.wrote ++ en.seen)).filter (fun l => (s.line (dieOf core) l).dirty != 0))

/-- What a stopping gang's core does next. -/
inductive StopStep where
  | none
  /-- a sequencer stops -/
  | seq (spare : Bool)
  /-- the release at package scope starts -/
  | release
  /-- the save is written -/
  | save
  /-- every gang of the squad is saved: its cores are freed -/
  | free
  deriving DecidableEq, Repr

/-- Every gang of a gang's squad has saved. -/
def squadSaved (s : State) (g : Gang) : Bool :=
  (squadMates s g).all (fun h => h.preemptReq && h.saved) && !(squadMates s g).all (fun h => h.st == .exited)

/-- The next step of the stop on a core. -/
def stopStep (s : State) (core : Nat) : StopStep :=
  match s.gang core with
  | none => .none
  | some g =>
    if !g.preemptReq then .none
    else if g.saved then (if squadSaved s g then .free else .none)
    else if g.st = .exited then (if exitOver s core then .save else .none)
    else if stopsNow s core g false then .seq false
    else if stopsNow s core g true then .seq true
    else if g.quiet s core || g.still s core then
      (match g.saveDue with
       | none => .release
       | some n => if s.writtenBack n then .save else .none)
    else .none

/-- A squad whose gangs have all saved leaves its cores and waits to be placed again. -/
def State.freeSquad (s : State) (g : Gang) : State :=
  let cs := coresOf s g.info.handle (some g.info.squad)
  let saves := sortBy (fun (a b : Gang) => decide (a.info.pos < b.info.pos))
    ((cs.filterMap s.gang).map (fun h => { h with preempts := h.preempts + 1 }))
  let s := cs.foldl State.freeCore s
  let s := { s with sched := { s.sched with preemptions := s.sched.preemptions + 1 } }
  s.modTask g.info.handle (fun t =>
    { t with ageFrom := if t.waiting then t.ageFrom else some s.cycle
             squads := t.squads.map (fun q => if q.num = g.info.squad then
               { q with state := .preempted, saves, preempts := q.preempts + 1, cores := [] } else q) })

/-- PREEMPT_STOP: the next step of the stop of the gang on the named core. -/
def execPreemptStop (s : State) : Out :=
  let core := s.ctx.core
  match stopStep s core, s.gang core with
  | .seq spare, some _ => .next (s.modGang core (fun g => g.stopSeq spare s.cycle))
  | .release, some g =>
    let x := s.startWriteBack [(dieOf core, g.releaseLines s core)]
    .next (x.1.modGang core (fun g => { g with saveDue := some x.2 }))
  | .save, some g =>
    let s := s.modGang core (·.preempted s.cycle)
    .next (if g.st = .exited then s.writeStatus core else s.writeSave core)
  | .free, some g => .next (s.freeSquad g)
  | _, _ => .next s

/-! ## Exit (R162) -/

/-- The operations that a gang has started with ENGGO have all set their batons. -/
def Gang.unitsDone (g : Gang) : Bool :=
  g.cp0.queue.isEmpty && g.cp1.queue.isEmpty && g.cl.queue.isEmpty && g.iwOps.isEmpty

/-- What an exiting gang's core does next: halt on a faulted baton, read STATE 4, or leave with its squad. -/
inductive ExitStep where
  | none
  | bad (f : FaultedBaton)
  | exited
  | leave
  deriving DecidableEq, Repr

/-- The next step of an exit. (DEDUCED, log 35) -/
def exitStep (s : State) (core : Nat) : ExitStep :=
  match s.gang core with
  | none => .none
  | some g =>
    if g.st = .exiting then
      (match g.badBatons with
       | f :: _ => .bad f
       | [] =>
         if g.prim.batch.isNone && g.spare.batch.isNone && g.prim.lands.isEmpty && g.spare.lands.isEmpty &&
             g.engines.all (fun en => en.lands.isEmpty && en.xops.isEmpty) && g.unitsDone then .exited else .none)
    else if g.st = .exited ∧ (squadMates s g).all (fun h => h.st == .exited) ∧
        (coresOf s g.info.handle (some g.info.squad)).all (exitOver s) then .leave
    else .none

/-- A squad has completed: its cores are freed (R382). -/
def State.endSquad (s : State) (g : Gang) : State :=
  let infos := ((coresOf s g.info.handle (some g.info.squad)).filterMap s.gang).map (·.info)
  let s := (coresOf s g.info.handle (some g.info.squad)).foldl State.freeCore s
  let s := { s with coll := s.coll.filter (fun i => !(i.key.handle == g.info.handle && i.key.squad == g.info.squad)) }
  s.modTask g.info.handle (fun t => { t with doneSquads := t.doneSquads + 1, gone := t.gone ++ infos, squads := t.squads.filter (fun q => q.num != g.info.squad) })

/-- GANG_EXIT_COMPLETE: the exiting gang on the named core reads STATE 4, or halts on a faulted baton; a squad whose gangs have all
exited completes. (DEDUCED, log 56) -/
def execGangExitComplete (s : State) : Out :=
  let core := s.ctx.core
  match exitStep s core, s.gang core with
  | .bad f, some g =>
    .next (s.putGang core (g.beginHalt false f.record))
  | .exited, some g =>
    let g := { g with st := .exited, prim := { g.prim with status := { state := 4, pc := g.prim.pc, rppc := g.prim.rppc, slot := 14, queue := 0xFF,
                                                                        traps := g.prim.traps, cycle := s.cycle } } }
    .next (((s.putGang core g).writeStatus core).endWatches (fun w => w == (g.info.handle, g.info.squad, g.info.pos)))
  | .leave, some g => .next (s.endSquad g)
  | _, _ => .next s

/-! ## Resuming a halted gang (R45, R406) -/

/-- The gang on a core halts with HW_FENCE, naming fenced engines. -/
def State.haltFence (s : State) (core : Nat) (m : Mask) : State :=
  s.modGang core (fun g => if g.st = .running ∨ g.st = .exiting then g.beginHalt false (hwFenceFault (m &&& g.live)) else g)

/-- A halted gang goes on as R45 says, its status block with STATE 0 (R48); one that is to be pre-empted stops again at a restart point, with a
release of its own (R74, R389). On a fenced core, or with an engine fenced, it halts again at once, so that no thread of a fenced engine
runs (R13, R407). (DESIGN CHOICE, log 49) -/
def State.goOn (s : State) (core : Nat) (g : Gang) : State :=
  let s := ((s.resume core).modGang core (fun g => { g with saveDue := none, saved := false })).writeStatus core
  let lost := g.live &&& (s.core core).fencedEngines
  if (s.core core).fenced then s.haltFence core 0xFFFF else if lost ≠ 0 then s.haltFence core lost else s

/-! ## The resident agent (R374) -/

/-- The cycle in which a halted gang halted. -/
def haltCycle (g : Gang) : Nat := (g.seq g.haltSpare).status.cycle

/-- Halts that the agent repairs, in the order in which they occurred: the core. -/
def agentNext (s : State) : Option (Nat × Gang) :=
  (sortBy (fun (a b : Nat × Gang) => decide (haltCycle a.2 < haltCycle b.2)) ((below 72).filterMap (fun c => match s.gang c with
    | some g => if g.st == .halted && g.info.autoCommit && !g.reported && !g.saved && (match g.halt with
        | some r => r.code == .sparse
        | none => false) then some (c, g) else none
    | none => none))).head?

/-- The agent's work on the next halt is done in this cycle: its first bundle issues in the next, 2,000 cycles after the halt. The owning
walker of the page performs the commit in its turn (R364, R374). (DEDUCED, log 34) -/
def agentDue (s : State) : Option (Nat × Gang) :=
  match agentNext s with
  | some (c, g) =>
    let va := (g.halt.map (fun r => r.vaddr.toNat % 2 ^ 48)).getD 0
    let t : Turn := { cycle := max (haltCycle g) s.sched.agentFree + 1999, engine := 1152, slot := 0, serial := 0 }
    if t.cycle ≤ s.cycle ∧ !s.walkerBusy va ∧ !behindOthers s t [.walker (walkerOf va)] then some (c, g) else none
  | none => none

/-- AUTO_COMMIT: the agent commits the page of the next SPARSE halt, and resumes the gang or reports it. (DEDUCED, log 34) -/
def execAutoCommit (s : State) : Out :=
  match agentDue s with
  | none => .next s
  | some (c, g) =>
    let va := match g.halt with
      | some r => r.vaddr.toNat % 2 ^ 48
      | none => 0
    let big := match s.leaf g.info.asid va with
      | .ok (level, _, _) => level == 3
      | .error _ => false
    let x := commitPage s g.info.asid va big
    let s := { x.2 with sched := { x.2.sched with agentFree := s.cycle + 1 } }
    .next (if x.1 ≤ 1 then s.goOn c g else s.modGang c (fun g => { g with reported := true }))

end Sys2Proof.Machine
end

