-- ==== Sys2Proof/Machine/Containment.lean ====
section
/-! DEFINITION. Start stages (R399, R400), corrected and uncorrectable errors (R405, R265), fences (R19, R22, R406, R407), the
containment log (R411), the thermal trip (R409), and the eviction of a die-cache line (R61). -/
namespace Sys2Proof.Machine

/-! ## The containment log (R411) -/

/-- A record is added; the oldest of 64 goes. -/
def State.addLog (s : State) (level cause unit addr : Nat) : State :=
  let l := s.hub.log ++ [{ level, cause, unit, count := 1, cycle := s.cycle, addr }]
  { s with hub := { s.hub with log := l.drop (l.length - 64) } }

/-- The newest LEVEL 0 record of a die counts one more; the list is newest first. -/
def bumpNewest (die : Nat) : List LogRec → Option (List LogRec)
  | [] => none
  | r :: t => if r.level = 0 ∧ r.unit = die then some ({ r with count := min (r.count + 1) (2 ^ 32 - 1) } :: t)
      else (bumpNewest die t).map (fun l => r :: l)

/-- A corrected error of a die. -/
def State.logCorrected (s : State) (die addr : Nat) : State :=
  match bumpNewest die s.hub.log.reverse with
  | some l => { s with hub := { s.hub with log := l.reverse } }
  | none => s.addLog 0 6 die addr

/-- A bit of FENCEMAP is set. -/
def State.setFence (s : State) (b : Nat) : State := { s with hub := { s.hub with fences := sput 0 s.hub.fences b 1 } }

/-! ## Start stages (R399, R404) -/

/-- A connection whose numbering begins. -/
def freshConn (r : Remote) : Conn := { remote := r }
/-- The far end of connection 64 before a frame has come. -/
def noRemote : Remote := ⟨0, 0, 0, 0, 0⟩

/-- The bytes of the inactive slot, as far as its announced length. -/
def Hub.imageBytes (h : Hub) : List Byte := (below (h.imageLen.getD 0)).map (fun i => (kfind h.image i).getD 0)

/-- The image in the active slot. -/
def Hub.activeImage (h : Hub) : List Byte := h.active.getD Config.firstImage

/-- The image committed becomes active, the other slot inactive, and the fused SVN is raised to its SVN (R404). -/
def Hub.swapSlots (h : Hub) : Hub :=
  let new := h.imageBytes
  let old := h.activeImage
  let svn := Config.imageSvn (new.take 4096)
  { h with active := some new, image := (below old.length).zip old, imageLen := none, imageNext := false, svn, fusedSvn := svn }

/-- POWER_GOOD: Primer brings up the hub, port 0 and connection 64; an image committed before is in force, its SVN fused.
(DEDUCED, log 57) (DESIGN CHOICE, log 75) -/
def execPowerGood (s : State) : Out :=
  if s.stage ≠ .off then .next s
  else
    let h := s.hub
    let up := { h with boot := 2, portsUp := [true, false, false, false], conns := [(64, freshConn noRemote)] }
    .next { s with stage := .primer, hub := if h.imageNext then up.swapSlots else up }

/-- POWER_GOOD_WITHDRAWN: the package goes to its reset state; the image slots, the fused SVN and the rows that each engine has lost
(R19) stay. -/
def execPowerGoodWithdrawn (s : State) : Out :=
  let r := State.reset
  .next { r with free := s.free, inputs := s.inputs
                 cores := s.cores.map (fun k => { lostRows := k.lostRows })
                 hub := { r.hub with svn := s.hub.svn, fusedSvn := s.hub.fusedSvn, active := s.hub.active, imageNext := s.hub.imageNext
                                     image := if s.hub.imageNext then s.hub.image else []
                                     imageLen := if s.hub.imageNext then s.hub.imageLen else none } }

/-- The rows that an engine has lost when Finish reports n of them: one that had fewer than 48 good rows stays fenced for the life of
the package (R19). -/
def lostNow (old n : Nat) : Nat := if 16 < old then max old n else n

/-- A core as Finish finds it (R19); fences from before stay. -/
def harvest (r : FinishReport) (s : State) (c : Nat) : Core :=
  let k : Core := { s.core c with
                    lostRows := (below 16).foldl (fun l e =>
                      sput 0 l e (lostNow (sget 0 (s.core c).lostRows e) ((kfind r.lostRows (16 * c + e)).getD 0))) []
                    spareFailed := r.badSpares.contains c }
  { k with fenced := k.fenced || r.badCores.contains c || r.badCdies.contains (dieOf c) || k.liveMask == 0 }

/-- The numbers below n that a list names. -/
def named (n : Nat) (l : List Nat) : List Nat := (below n).filter l.contains

/-- The fences that Finish makes, by its steps: level, cause, unit. What was fenced before has its record; the cores of a lost C-die, and
one whose engines are all fenced, are fenced with no record of their own. (DESIGN CHOICE, log 49) -/
def finishFences (r : FinishReport) (s : State) (cores : List Core) : List (Nat × Nat × Nat) :=
  let fresh (bit n : Nat) (l : List Nat) : List Nat := (named n l).filter (fun u => !s.fenceBit (bit + u))
  (fresh 1352 8 r.badCdies).map (fun d => (4, 4, d)) ++ (fresh 1360 4 r.badMdies).map (fun d => (5, 4, d)) ++
  (below 72).flatMap (fun c =>
    ((below 16).filter (fun e => (cores.getD c {}).capOf e == 0 && !inMask (s.core c).fencedEngines e)).map (fun e => (1, 1, 16 * c + e)) ++
    (if r.badCores.contains c && !(s.core c).fenced then [(2, 1, c)] else [])) ++
  (fresh 1224 128 r.badChannels).map (fun c => (3, 2, c)) ++ ((fresh 1364 4 r.badPorts).filter (fun p => p != 0)).map (fun p => (6, 4, p))

/-- The FENCEMAP bit that the hub keeps for a fence. -/
def fencePlace (level unit : Nat) : Option Nat :=
  if level = 3 then some (1224 + unit) else if level = 4 then some (1352 + unit) else if level = 5 then some (1360 + unit)
  else if level = 6 then some (1364 + unit) else none

/-- A fence found by Finish. -/
def State.finishFence (s : State) (f : Nat × Nat × Nat) : State :=
  (match fencePlace f.1 f.2.2 with
   | some b => s.setFence b
   | none => s).addLog f.1 f.2.1 f.2.2 0

/-- FINISH (R399): links, harvest, channels, ports and the scrub; BOOTSTAT then reads 3, or 4 when every C-die or every M-die is
lost. (DESIGN CHOICE, log 40) -/
def execFinish (report : FinishReport) (s : State) : Out :=
  if s.stage ≠ .primer then .next s
  else
    let cores := (below 72).map (harvest report s)
    let failed := (below 8).all (fun d => report.badCdies.contains d || s.fenceBit (1352 + d)) ||
      (below 4).all (fun d => report.badMdies.contains d || s.fenceBit (1360 + d))
    let s := (finishFences report s cores).foldl State.finishFence { s with cores }
    let ports := (below 4).map (fun p => if p = 0 then s.hub.portsUp.getD 0 false
      else !report.badPorts.contains p && !s.fenceBit (1364 + p) && (!failed || decide (5 < report.lastStep)))
    let hub := { s.hub with portsUp := ports }
    if failed then .next { s with stage := .failed, hub := { hub with boot := 4, bootStep := report.lastStep } }
    else
      .next { s with stage := .up, hub := { hub with boot := 3 }, mem := [], poison := [], dieCaches := List.replicate 8 []
                     sched := { s.sched with age := 14000000, dropped := 0, rejected := 0, preemptions := 0, placements := 0 } }

/-! ## Fences (R406) -/

/-- A core is fenced as a whole: its gang halts, and it is never placed again. -/
def State.fenceCore (s : State) (core : Nat) : State :=
  (s.modCore core (fun k => { k with fenced := true })).haltFence core 0xFFFF

/-- ENGINE_FENCE: the engine leaves the live mask of later gangs, and the resident one halts; a core without a live engine is
fenced (R19, R22). (DESIGN CHOICE, log 49) -/
def execEngineFence (core engine cause : Nat) (s : State) : Out :=
  if 72 ≤ core ∨ 16 ≤ engine then .next s
  else
    let s := (s.modCore core (fun k => { k with fencedEngines := k.fencedEngines ||| maskOf [engine] })).addLog 1 cause (16 * core + engine) 0
    .next (if (s.core core).liveMask = 0 then s.fenceCore core
      else match s.gang core with
        | some g => if inMask g.live engine then s.haltFence core (maskOf [engine]) else s
        | none => s)

/-- CORE_FENCE. -/
def execCoreFence (core cause : Nat) (s : State) : Out :=
  if 72 ≤ core then .next s else .next ((s.addLog 2 cause core 0).fenceCore core)

/-- Every pool is empty: each frame has lines on every channel (R58, R406). -/
def State.emptyPools (s : State) : State :=
  { s with contexts := s.contexts.map (fun c => (c.1, { c.2 with pool64 := [], pool2m := [] })) }

/-- CHANNEL_FENCE: the channel's memory is poisoned until reset, and no clean frame is left. (DEDUCED, log 46) -/
def execChannelFence (channel cause : Nat) (s : State) : Out :=
  if 128 ≤ channel then .next s
  else .next (((s.setFence (1224 + channel)).addLog 3 cause channel 0).emptyPools)

/-- A die's cache is lost: every dirty line is poisoned at its home slice, and so is what was on its way into the cache.
(DEDUCED, log 46) -/
def State.loseDie (s : State) (die : Nat) : State :=
  let dirty := s.dirtyLines die
  let coming := s.transit.filter (fun t => t.target == .die die)
  let s := { s with dieCaches := modAt s.dieCaches die (fun _ => []), writeBacks := s.writeBacks.filter (fun w => w.die != die)
                    transit := s.transit.filter (fun t => match t.target with
                      | .die d => d != die
                      | .scratch c _ => dieOf c != die
                      | .home => true) }
  let s := dirty.foldl (fun s l => s.hurtAll (4 * l) 4) s
  (coming.flatMap (fun t => t.writes)).foldl (fun s w => s.hurtAll (w.1 / 32) ((w.1 + w.2.length - 1) / 32 + 1 - w.1 / 32)) s

/-- CDIE_FENCE: every gang on the die halts, its cores are never placed again, and no stale value is left behind its dirty lines. -/
def execCdieFence (die cause : Nat) (s : State) : Out :=
  if 8 ≤ die then .next s
  else
    let s := ((s.setFence (1352 + die)).addLog 4 cause die 0).loseDie die
    .next ((upFrom (9 * die) 9).foldl State.fenceCore s)

/-- A commit that holds locks when an M-die is lost: a lane with a sector there, whose cause is not yet given, gets cause 3 and writes
nothing (R406). (DEDUCED, log 46) -/
def Commit.loseMdie (c : Commit) (die : Nat) : Commit :=
  let there (pa : Nat) : Bool := sliceOf pa / 16 == die
  let hit (l : Nat) : Bool := c.log.reads.any (fun r => r.lane == l && r.pa.any there) || c.writes.any (fun w => w.1.lane == l && there w.2)
  { c with log := ((upFrom c.causes.length (32 - c.causes.length)).filter hit).foldl (fun t l => t.doom l 3) c.log }

/-- MDIE_FENCE: every sector of its slices and channels is poisoned until reset, and commits that hold locks there lose lanes.
(DEDUCED, log 46) -/
def execMdieFence (die cause : Nat) (s : State) : Out :=
  if 4 ≤ die then .next s
  else
    let s := { s with commits := s.commits.map (fun (c : Commit) => c.loseMdie die) }
    .next (((s.setFence (1360 + die)).addLog 5 cause die 0).emptyPools)

/-- A connection is lost (R395): it closes and the log says so; connection 64 begins its numbering again instead. -/
def State.loseConn (s : State) (key cause : Nat) : State :=
  match kfind s.hub.conns key with
  | none => s
  | some c =>
    if key = 64 then { s with hub := { s.hub with conns := kput s.hub.conns 64 (freshConn c.remote) } }
    else ({ s with hub := { s.hub with conns := kdel s.hub.conns key } }).addLog 7 cause (key % 256) 0

/-- PORT_FENCE: the connections on the port close as lost; connection 64 stays on the other ports. (DEDUCED, log 46) -/
def execPortFence (port : Nat) (s : State) : Out :=
  if 4 ≤ port then .next s
  else
    let s := (({ s with hub := { s.hub with portsUp := modAt s.hub.portsUp port (fun _ => false) } }).setFence (1364 + port)).addLog 6 4 port 0
    .next ((s.hub.conns.filter (fun c => c.1 != 64 && c.2.remote.port == port)).foldl (fun s c => s.loseConn c.1 4) s)

/-- HUB_FAILURE: the package stops. -/
def execHubFailure (s : State) : Out := .next { s with stage := .stopped }

/-! ## Errors (R405, R265) -/

/-- An array operation (MMA, MMAS, MMAR) is in flight. -/
def XOp.inArray (x : XOp) : Bool := x.load.isNone && decide (x.opcode ≤ 3)

/-- The array of an engine is delayed by n cycles: its operations in flight, its busy time and the busy bits they hold.
(DEDUCED, log 17) -/
def Engine.delayArray (en : Engine) (now n : Nat) : Engine :=
  let held (id : Nat) : Bool :=
    if id < 8 then en.xops.any (fun x => x.inArray && x.rows.any (fun r => r.1 / 64 == id)) else sget 0 en.busy id == en.arrayFree
  { en with
    xops := en.xops.map (fun x => if x.inArray then { x with due := x.due + n } else x)
    arrayFree := max en.arrayFree now + n
    busy := en.busy.map (fun b => if decide (now < b.2) && held b.1 then (b.1, b.2 + n) else b) }

/-- ECC_CORRECTION: a single-bit error is corrected and counted; one on a ceiling read may delay the array of an engine beyond its busy
time, for which the sequencer that drives the engine takes a timing trap in this cycle, if its region can restart (R40, R41, R150,
R250). (DEDUCED, log 17) -/
def execEccCorrection (die pa : Nat) (delayed : Option (Nat × Nat × Nat)) (s : State) : Out :=
  let s := s.logCorrected die pa
  match delayed with
  | some (core, engine, n) => .next (s.modGang core (fun g =>
      if n != 0 && (g.eng engine).xops.any XOp.inArray then
        (g.modEng engine (fun en => en.delayArray s.cycle n)).modSeq (g.driver engine) (fun q => { q with eccLate := some s.cycle })
      else g))
  | none => .next s

/-- Latch j of engine k holds undefined values, and so will whatever is in flight to it. -/
def Engine.spoilLatch (s : State) (core k j : Nat) (en : Engine) : Engine :=
  let row (m : Nat) : BitVec 2048 := Config.freeVec s.free (freeTag 60 core k (2 * m)) ++ Config.freeVec s.free (freeTag 60 core k (2 * m + 1))
  { en with
    l := putRows en.l (64 * j) ((below 64).map row)
    xops := en.xops.map (fun x => { x with rows := x.rows.map (fun r => if r.1 / 64 = 8 + j then (r.1, row (r.1 % 64)) else r) }) }

/-- The destination of an X-slot read of an uncorrectable word is undefined (R265). -/
def Engine.spoilDst (s : State) (core k dst : Nat) (latch : Bool) (en : Engine) : Engine :=
  if latch then en.spoilLatch s core k (dst % 4) else en.spoilTile { s with ctx := { s.ctx with core } } k (dst % 8)

/-- The address of an uncorrectable word as the status block shows it (R265): tag 4 for the ceiling, tag 1 for the scratchpad, 0 for a
latch. -/
def xWordAddr : XWord → Word
  | .ceiling off => BitVec.ofNat 64 (4 * 2 ^ 60 + off % 2 ^ 22)
  | .scratchpad off => BitVec.ofNat 64 (2 ^ 60 + off % 2 ^ 22)
  | .latch => 0

/-- UNCORRECTABLE_ERROR (R405, R194, R265): a double-bit error poisons its sector (of physical memory, of a scratchpad or of a ceiling
store), halts the gang of a register-file or queue word, or spoils the destination of an X-slot read and halts the gang.
(DEDUCED, log 47) -/
def execUncorrectableError (site : ErrorSite) (s : State) : Out :=
  match site with
  | .memory die pa => .next ((s.hurt (pa / 32)).addLog 9 7 die pa)
  | .sram die core engine ceiling off =>
    .next ((s.addLog 9 7 die 0).modGang core (fun g => g.modEng engine (fun en =>
      { en with poison := sput 0 en.poison ((if ceiling then ceilSector else 0) + off / 32) 1 })))
  | .register die core engine => .next ((s.addLog 9 7 die 0).modGang core (fun g => g.poisonHalt engine 14 0))
  | .xslot die core engine dst latch src =>
    let s := s.addLog 9 7 die 0
    let s := s.modGang core (fun g => g.modEng engine (Engine.spoilDst s core engine dst latch))
    .next (s.modGang core (fun g => g.poisonHalt engine 8 (xWordAddr src)))

/-- PATROL_SCRUB: memory is read for errors; those it finds are events of their own, and it changes nothing. (DEDUCED, log 64) -/
def execPatrolScrub (s : State) : Out := .next s

/-- DIE_CACHE_EVICTION: the line's dirty bytes go to its home slice, and the die cache drops it; while a commit has locked one of its
sectors a dirty line stays (R308). (DESIGN CHOICE, log 65) -/
def execDieCacheEviction (die line : Nat) (s : State) : Out := .next (if lineHeld s die line then s else s.flushLine die line)

/-! ## Thermal trip (R409) -/

/-- Every task that has not ended becomes FAILED with code 0x33. -/
def State.failAll (s : State) : State :=
  (s.sched.tasks.filter (fun t => !t.state.terminal)).foldl (fun s t => (s.modTask t.handle (fun t => { t with squads := [] })).setTask t .failed 0x33 0) s

/-- THERMAL_TRIP: a log record, every task failed without a notice, and power removed from every die but the hub, which keeps port 0. -/
def execThermalTrip (s : State) : Out :=
  if s.stage = .off ∨ s.stage = .tripped ∨ s.stage = .stopped then .next s
  else
    let s := (s.addLog 8 9 0 0).failAll
    .next { s with
      stage := .tripped, cores := s.cores.map (fun k => { k with gang := none, tc := [], tcCp0 := [], tcCp1 := [] })
      dieCaches := List.replicate 8 [], dieTc := List.replicate 8 [], transit := [], writeBacks := [], signals := [], invs := []
      framesBack := [], ringEvents := [], coll := [], commits := [], lock := {}, hubLater := []
      sched := { s.sched with queues := List.replicate 64 [], coming := [], cancels := [] }
      hub := { s.hub with portsUp := [s.hub.portsUp.getD 0 false, false, false, false] } }

end Sys2Proof.Machine
end

