-- ==== Sys2Proof/Machine/Shake.lean ====
section
/-! DEFINITION. SHAKE256 (R401), the only hash of the package: the spec names it, its definition is the published standard FIPS 202. -/
namespace Sys2Proof.Machine

/-- Keccak's round constants. (PRESUMED, log 73) -/
def keccakConst : List Word :=
  [0x1, 0x8082, 0x800000000000808A, 0x8000000080008000, 0x808B, 0x80000001, 0x8000000080008081, 0x8000000000008009, 0x8A, 0x88,
   0x80008009, 0x8000000A, 0x8000808B, 0x800000000000008B, 0x8000000000008089, 0x8000000000008003, 0x8000000000008002,
   0x8000000000000080, 0x800A, 0x800000008000000A, 0x8000000080008081, 0x8000000000008080, 0x80000001, 0x8000000080008008]

/-- The rotation of lane x + 5y. (PRESUMED, log 73) -/
def keccakRot : List Nat :=
  [0, 1, 62, 28, 27, 36, 44, 6, 55, 20, 3, 10, 43, 25, 39, 41, 45, 15, 21, 8, 18, 2, 61, 56, 14]

/-- One round of Keccak-f[1600] on its 25 lanes: theta, rho, pi, chi and iota. (PRESUMED, log 73) -/
def keccakRound (a : List Word) (rc : Word) : List Word :=
  let col (x : Nat) : Word := (List.range 5).foldl (fun w y => w ^^^ a.getD (x % 5 + 5 * y) 0) 0
  let cs := (List.range 5).map col
  let d := (List.range 5).map (fun x => cs.getD ((x + 4) % 5) 0 ^^^ (cs.getD ((x + 1) % 5) 0).rotateLeft 1)
  let moved (i : Nat) : Word := (a.getD i 0 ^^^ d.getD (i % 5) 0).rotateLeft (keccakRot.getD i 0)
  let b := (List.range 25).map (fun i => moved ((i % 5 + 3 * (i / 5)) % 5 + 5 * (i % 5)))
  (List.range 25).map (fun i =>
    let row := i / 5 * 5
    let w := b.getD i 0 ^^^ (~~~ b.getD ((i + 1) % 5 + row) 0 &&& b.getD ((i + 2) % 5 + row) 0)
    if i = 0 then w ^^^ rc else w)

/-- Keccak-f[1600]. (PRESUMED, log 73) -/
def keccak (a : List Word) : List Word := keccakConst.foldl keccakRound a

/-- The 64-bit words of a list of bytes, low byte first. -/
def wordsOf (b : List Byte) : Nat → List Word
  | 0 => []
  | n + 1 => BitVec.ofNat 64 (bytesVal (b.take 8)) :: wordsOf (b.drop 8) n

/-- Blocks of 136 bytes are absorbed. (PRESUMED, log 73) -/
def absorb (a : List Word) (b : List Byte) : Nat → List Word
  | 0 => a
  | n + 1 => absorb (keccak (((List.range 25).zip a).map (fun p => p.2 ^^^ (wordsOf (b.take 136) 17).getD p.1 0))) (b.drop 136) n

/-- Blocks of 136 bytes are squeezed out. (PRESUMED, log 73) -/
def squeeze (a : List Word) : Nat → List Byte
  | 0 => []
  | n + 1 => (a.take 17).flatMap (fun w => bytesOf 8 w.toNat) ++ squeeze (keccak a) n

/-- A message padded for SHAKE256: 1111, then 10*1 to a multiple of 136 bytes. (PRESUMED, log 73) -/
def shakePad (b : List Byte) : List Byte :=
  let n := 136 - b.length % 136
  if n = 1 then b ++ [0x9F#8] else b ++ [0x1F#8] ++ List.replicate (n - 2) 0#8 ++ [0x80#8]

/-- n bytes of SHAKE256 of a message (R401). (PRESUMED, log 73) -/
def shake256 (n : Nat) (b : List Byte) : List Byte :=
  let p := shakePad b
  (squeeze (absorb (List.replicate 25 0) p (p.length / 136)) ((n + 135) / 136)).take n

end Sys2Proof.Machine
end

