-- ==== Sys2Proof/Machine/Falcon.lean ====
section
/-! DEFINITION. The check of a Falcon-1024 signature (R401): the spec names the scheme, its definition is the published one, with a public
key of 1,793 bytes and a signature of at most 1,280. -/
namespace Sys2Proof.Machine

/-- Falcon's modulus, and the bound on the square of a signature's length for 1,024 coefficients. (PRESUMED, log 83) -/
def falconQ : Nat := 12289
/-- The bound on the square of the length of a signature. (PRESUMED, log 83) -/
def falconBound : Nat := 70265242

/-- The bits of a list of bytes, the highest of each byte first. -/
def highBits (b : List Byte) : List Bool := b.flatMap (fun x => (List.range 8).map (fun i => x.getLsbD (7 - i)))
/-- The number that bits make, the highest first. -/
def bitsVal (b : List Bool) : Nat := b.foldl (fun v x => 2 * v + x.toNat) 0

/-- n coefficients of 14 bits. (PRESUMED, log 83) -/
def falconKey : List Bool → Nat → List Nat
  | _, 0 => []
  | b, n + 1 => bitsVal (b.take 14) :: falconKey (b.drop 14) n

/-- n compressed coefficients: a sign, seven low bits, and the rest in unary; no coefficient is written -0, and what is left of the bits
is 0. (PRESUMED, log 83) -/
def falconCoefs : List Bool → Nat → Option (List Int)
  | b, 0 => if b.all (! ·) then some [] else none
  | b, n + 1 =>
    let high := (b.drop 8).takeWhile (! ·)
    let v := 128 * high.length + bitsVal ((b.drop 1).take 7)
    let sign := b.getD 0 false
    if b.length ≤ 8 + high.length ∨ (sign = true ∧ v = 0) then none
    else (falconCoefs (b.drop (9 + high.length)) n).map (fun l => (if sign then -(v : Int) else v) :: l)

/-- The point of a salted message: of the draws of 16 bits, the high byte first, those below 5 times the modulus, by the modulus. The
first 4,096 draws are taken to hold 1,024 of them. (PRESUMED, log 83) -/
def falconPoint (b : List Byte) : List Nat :=
  let x := shake256 8192 b
  let draws := (List.range 4096).map (fun i => 256 * (x.getD (2 * i) 0).toNat + (x.getD (2 * i + 1) 0).toNat)
  ((draws.filter (· < 5 * falconQ)).take 1024).map (· % falconQ)

/-- Two polynomials multiplied modulo x^1024 + 1, coefficient by coefficient. (PRESUMED, log 83) -/
def falconMul (a b : List Int) : List Int :=
  let row (k : Nat) : List Int := (b.take (k + 1)).reverse ++ ((b.drop (k + 1)).map (- ·)).reverse
  (List.range 1024).map (fun k => ((a.zip (row k)).map (fun p => p.1 * p.2)).sum)

/-- The representative of least absolute value. (PRESUMED, log 83) -/
def falconSmall (z : Int) : Int :=
  let m := z % falconQ
  if m ≤ falconQ / 2 then m else m - falconQ

/-- A signature of a message verifies under a public key: their forms are right, and what the signature leaves of the message's point is
short together with the signature (R401). (PRESUMED, log 83) -/
def falconVerify (key msg sig : List Byte) : Bool :=
  let h := falconKey (highBits (key.drop 1)) 1024
  let c := falconPoint ((sig.drop 1).take 40 ++ msg)
  key.length == 1793 && key.getD 0 0 == 0x0A#8 && h.all (· < falconQ) && sig.getD 0 0 == 0x3A#8 && decide (41 < sig.length) &&
  decide (sig.length ≤ 1280) && c.length == 1024 &&
  match falconCoefs (highBits (sig.drop 41)) 1024 with
  | none => false
  | some s =>
    let left := ((c.zip (falconMul s (h.map Int.ofNat))).map (fun p => falconSmall (Int.ofNat p.1 - p.2)))
    decide (((s ++ left).map (fun z => z.natAbs ^ 2)).sum ≤ falconBound)

end Sys2Proof.Machine
end

