-- ==== Sys2Proof/Machine/Mailbox.lean ====
section
/-! DEFINITION. The mailboxes (R398, R402-R404, R412): what each message does, its checks, its status and its reply; and the messages
as steps of the machine. -/
namespace Sys2Proof.Machine

/-- What a message or operation leaves: the state, the status of R396 and the reply. -/
abbrev Reply := State × Nat × List Byte

/-- A message that is refused changes nothing. -/
def refuse (s : State) (status : Nat) : Reply := (s, status, [])
/-- A message answered without a payload. -/
def done (s : State) : Reply := (s, 0, [])

/-! ## Type 1: translation contexts and pools (R359) -/

/-- FREE of both pools. -/
def freeReply (s : State) (asid : Nat) : List Byte :=
  bytesOf 4 (poolOf s asid false).length ++ bytesOf 4 (poolOf s asid true).length

def State.mbInstall (s : State) (asid root : Nat) : Reply :=
  if asid = 0 ∨ 65536 ≤ asid ∨ root % 4096 ≠ 0 ∨ 2 ^ 40 ≤ root ∨ (kfind s.contexts asid).isSome then refuse s 5
  else
    let s := { s with contexts := kput s.contexts asid { root } }
    (s, 0, freeReply s asid)

/-- Tasks of the ASID have not ended, or a ring context names it. -/
def asidBusy (s : State) (asid : Nat) : Bool :=
  s.sched.tasks.any (fun t => t.desc.asid == asid && !t.state.terminal) || s.rings.any (fun r => r.2.asid == asid)

def State.mbRemove (s : State) (asid : Nat) : Reply :=
  if (kfind s.contexts asid).isNone ∨ asidBusy s asid then refuse s 5
  else
    let s := { s with contexts := kdel s.contexts asid }
    (s, 0, freeReply s asid)

/-- A frame may be added: aligned, in no pool, without a poisoned line. -/
def frameOk (s : State) (big : Bool) (f : Nat) : Bool :=
  f % sizeBytes big == 0 && decide (f < 2 ^ 40) && s.contexts.all (fun c => !c.2.pool64.contains f && !c.2.pool2m.contains f) &&
  !s.poisoned f (sizeBytes big)

/-- No element stands twice. -/
def distinct : List Nat → Bool
  | [] => true
  | a :: t => !t.contains a && distinct t

/-- Type 1, OP 2: frames join a free list, each zeroed (R359, R398). (DEDUCED, log 42) -/
def State.mbAdd (s : State) (asid : Nat) (big : Bool) (frames : List Nat) : Reply :=
  if (kfind s.contexts asid).isNone ∨ 509 < frames.length ∨ !distinct frames ∨ !frames.all (frameOk s big) then refuse s 5
  else
    let s := (frames.foldl (fun s f => s.zeroFrame f (sizeBytes big)) s).setPool asid big (poolOf s asid big ++ frames)
    (s, 0, freeReply s asid)

/-- Type 1, OP 3: frames leave a free list (R359, R398). (DEDUCED, log 42) -/
def State.mbTake (s : State) (asid : Nat) (big : Bool) (frames : List Nat) : Reply :=
  if (kfind s.contexts asid).isNone ∨ 509 < frames.length ∨ !distinct frames ∨ !frames.all (poolOf s asid big).contains then refuse s 5
  else
    let s := s.setPool asid big ((poolOf s asid big).filter (fun f => !frames.contains f))
    (s, 0, freeReply s asid)

/-! ## Type 2: ring contexts (R347) -/

/-- The record size that a code names. -/
def recBytes (c : Nat) : Nat := 32 * 2 ^ c

/-- The ring that a record describes, where its fields keep their ranges: the extension pages counted are the first of EXTVA; the records
counted stand in the primary slots of their sequence numbers, and those beyond SLOTS in the extension in order. (DEDUCED, log 43) -/
def parseRing (s : State) (b : List Byte) : Option Ring :=
  let flags := fieldOf b 0 4
  let elastic := flags.testBit 1
  let recsz := recBytes (flags / 4 % 4)
  let asid := fieldOf b 4 2
  let base := fieldOf b 8 8
  let slots := fieldOf b 0x10 4
  let extlim := fieldOf b 0x14 4
  let extva := fieldOf b 0x18 8
  let head := fieldOf b 0x20 4
  let tail := fieldOf b 0x24 4
  let count := fieldOf b 0x28 4
  let extpages := fieldOf b 0x2C 4
  if flags < 16 ∧ flags / 4 % 4 < 3 ∧ asid ≠ 0 ∧ (kfind s.contexts asid).isSome ∧ fieldOf b 6 2 = 0 ∧ base % 4096 = 0 ∧ base < 2 ^ 48 ∧
      (upFrom 4 13).any (fun k => slots == 2 ^ k) ∧ (elastic ∨ extlim = 0) ∧ extva % 65536 = 0 ∧ extva < 2 ^ 48 ∧ head < 2 ^ 31 ∧ tail < 2 ^ 31 ∧
      extpages ≤ extlim ∧ count ≤ slots + 65536 / recsz * extpages ∧ (head + count) % 2 ^ 31 = tail then
    some { elastic, recsz, asid, base, slots, extlim, extva, head, tail, count, extpages, pages := below extpages
           places := (below count).map (fun i => if i < slots then (false, (head + i) % slots) else (true, i - slots)) }
  else none

/-- A ring goes: the records it holds are discarded, and its extension pages are given back. -/
def State.dropRing (s : State) (id : Nat) : State :=
  match kfind s.rings id with
  | none => s
  | some r =>
    let s := r.pages.foldl (fun s p => s.ringRelease r.asid (r.extva + 65536 * p)) s
    { s with rings := kdel s.rings id }

/-- Type 2: a ring context is written or dropped (R347, R398). (DEDUCED, log 43) -/
def State.mbRing (s : State) (id : Nat) (b : List Byte) : Reply :=
  if 256 ≤ id ∨ b.length ≠ 64 then refuse s 5
  else if fieldOf b 0 4 % 2 = 0 then (if fieldOf b 0 4 < 12 ∧ fieldOf b 6 2 = 0 then done (s.dropRing id) else refuse s 5)
  else match parseRing s b with
    | none => refuse s 5
    | some r =>
      let s := s.dropRing id
      done { s with rings := kput s.rings id r }

/-! ## Types 3 and 4: peer contexts and connections (R337, R395) -/

/-- A far end keeps the ranges of R412: port, encapsulation, and an address of no more bytes than its form has. -/
def remoteOk (r : Remote) : Bool :=
  decide (r.mac < 2 ^ 48) && decide (r.port < 4) && decide (r.encap < 3) && decide (r.ip < if r.encap = 2 then 2 ^ 128 else 2 ^ 32) &&
  decide (r.udpPort < 65536)

/-- The connections of a peer context go. -/
def State.closePeer (s : State) (peer : Nat) : State :=
  { s with hub := { s.hub with conns := s.hub.conns.filter (fun c => c.1 % 256 != peer) } }

def State.mbPeer (s : State) (peer prank : Nat) (packages : List Remote) : Reply :=
  if 64 ≤ peer ∨ 127 < packages.length ∨ !packages.all remoteOk then refuse s 5
  else if packages = [] then
    let s := s.closePeer peer
    done { s with peers := kdel s.peers peer }
  else if packages.length ≤ prank then refuse s 5
  else
    let s := s.closePeer peer
    let conns := ((below packages.length).zip packages).foldl (fun l p =>
      if p.1 = prank then l else kput l (peerConn peer p.1) (freshConn p.2)) s.hub.conns
    done { s with peers := kput s.peers peer { prank, packages }, hub := { s.hub with conns } }

def State.mbOpen (s : State) (conn : Nat) (r : Remote) : Reply :=
  if conn < 65 ∨ 255 < conn ∨ !remoteOk r then refuse s 5
  else done { s with hub := { s.hub with conns := kput s.hub.conns conn (freshConn r) } }

def State.mbClose (s : State) (conn : Nat) : Reply :=
  if conn < 65 ∨ 255 < conn then refuse s 5 else done { s with hub := { s.hub with conns := kdel s.hub.conns conn } }

/-! ## Types 5 to 7: gangs and tasks (R45, R48, R382, R391) -/

/-- The core of a gang named by handle, squad and position. -/
def gangCore (s : State) (who : Nat × Nat × Nat) : Option Nat := watcherCore s who
/-- A gang so named that its squad has saved. -/
def savedGang (s : State) (who : Nat × Nat × Nat) : Option Gang :=
  ((s.task? who.1).bind (fun t => t.squads.find? (fun q => q.num == who.2.1))).bind (fun q => q.saves.find? (fun g => g.info.pos == who.2.2))

/-- A gang so named whose squad has completed. (DEDUCED, log 50) -/
def goneGang (s : State) (who : Nat × Nat × Nat) : Option GangInfo :=
  (s.task? who.1).bind (fun t => t.gone.find? (fun i => i.squad == who.2.1 && i.pos == who.2.2))

/-- Bytes of a save area in memory: the reply, or status 1 or 2. -/
def readArea (s : State) (i : GangInfo) (off n : Nat) : Reply :=
  match hubRead s i.asid (i.saveBase + off) n with
  | (s, .ok b) => (s, 0, b)
  | (s, .error .poison) => (s, 2, [])
  | (s, .error _) => (s, 1, [])

/-- The bytes of a gang's save area that lie in its allocation: of a gang without one, those of its status block. -/
def GangInfo.areaSize (i : GangInfo) : Nat :=
  if i.saveBase = 0 then 128
  else saveSize (engSize i.regsA i.regsB i.regsC i.regsS i.ntile i.nlatch i.spSize i.ceilSize)

/-- Type 5: a read of a gang's status block or save area (R48, R391, R398): of a resident gang that stands, or from the area in memory of
one that was saved or has exited with its squad. (DEDUCED, log 50) -/
def State.mbRead (s : State) (who : Nat × Nat × Nat) (off n : Nat) : Reply :=
  let stands (g : Gang) : Bool := g.st == .halted || g.st == .preempted || g.st == .exited
  let bad (i : GangInfo) : Bool := n == 0 || decide (4096 < n) || decide (i.areaSize < off + n)
  match (gangCore s who).bind s.gang, ((savedGang s who).map (·.info)).or (goneGang s who) with
  | some g, _ =>
    if !stands g ∨ bad g.info then refuse s 5
    else
      let block := (g.statusBlock.drop off).take n
      if off + n ≤ 128 then (s, 0, block)
      else match readArea s g.info (max off 128) (off + n - max off 128) with
        | (s, 0, b) => (s, 0, block ++ b)
        | r => r
  | none, some i => if bad i ∨ i.saveBase = 0 then refuse s 5 else readArea s i off n
  | none, none => refuse s 5

/-- A resident gang in STATE 1 or 2 goes on, but for one whose halt is not exact (R265). (DESIGN CHOICE, log 49) -/
def State.mbResume (s : State) (who : Nat × Nat × Nat) : Reply :=
  match gangCore s who with
  | none => refuse s 5
  | some c =>
    match s.gang c with
    | none => refuse s 5
    | some g =>
      if g.st ≠ .halted ∨ g.saved ∨ g.inexact then refuse s 5
      else done (s.goOn c g)

def State.mbCancel (s : State) (handle : Nat) : Reply := done (s.cancelTask handle none)

/-! ## Types 8 to 10: firmware (R404) (DESIGN CHOICE, log 41) -/

/-- Type 8: a new image begins in the inactive slot, and drops one committed there. (DESIGN CHOICE, log 41) -/
def State.mbBegin (s : State) (length : Nat) : Reply :=
  done { s with hub := { s.hub with image := [], imageLen := some length, imageNext := false } }

/-- Bytes put at an offset of an image. -/
def putImage (l : List (Nat × Byte)) (off : Nat) : List Byte → List (Nat × Byte)
  | [] => l
  | b :: t => putImage (kput l off b) (off + 1) t

/-- Type 9: bytes of the image that is being written; none after its commit. (DESIGN CHOICE, log 41) -/
def State.mbChunk (s : State) (off : Nat) (bs : List Byte) : Reply :=
  match s.hub.imageLen with
  | some n => if n < off + bs.length ∨ s.hub.imageNext then refuse s 5
      else done { s with hub := { s.hub with image := putImage s.hub.image off bs } }
  | none => refuse s 5

/-- The checks of an image with header h (R404): the length and the SHAKE256 of its body, Ferjor's key against the boot ROM's hash of it,
and the signature over the header's first 1,024 bytes. (DESIGN CHOICE, log 41) -/
def imageGood (b : List Byte) : Bool :=
  let h := b.take 4096
  let body := b.drop 4096
  body.length == Config.imageBodyLen h && shake256 64 body == bytesOf 64 (Config.imageBodyHash h) &&
    shake256 64 (bytesOf 1793 (Config.imageKey h)) == bytesOf 64 Config.romKeyHash &&
    falconVerify (bytesOf 1793 (Config.imageKey h)) (h.take 1024) (Config.imageSignature h)

/-- The image is whole, its hashes and signature verify, and its SVN is at least the fused one. (DESIGN CHOICE, log 41) -/
def State.imageOk (s : State) : Bool :=
  match s.hub.imageLen with
  | some n => decide (4096 ≤ n) && s.hub.image.length == n && imageGood s.hub.imageBytes &&
      decide (s.hub.fusedSvn ≤ Config.imageSvn (s.hub.imageBytes.take 4096))
  | none => false

def State.mbCommit (s : State) : Reply :=
  if s.imageOk then done { s with hub := { s.hub with imageNext := true } } else refuse s 5

/-! ## Mailbox 1 (R402, R403) -/

/-- DEVID (R397): the first 32 bytes of SHAKE256 of the device's public key, which has 1,793 bytes. -/
def devId : List Byte := shake256 32 (bytesOf 1793 Config.deviceKey)

def State.mbCertificate (s : State) : Reply := (s, 0, Config.certificate.take 4096)

/-- FENCEMAP (R397): engines by capability, cores, and what the hub keeps. -/
def State.fenceMap (s : State) : List Byte :=
  let bit (b : Nat) : Bool :=
    if b < 1152 then (s.core (b / 16)).capOf (b % 16) == 0 else if b < 1224 then (s.core (b - 1152)).fenced else s.fenceBit b
  (below 192).map (fun i => BitVec.ofNat 8 ((below 8).foldl (fun v j => if bit (8 * i + j) then v + 2 ^ j else v) 0))

/-- What the five measurements cover (R403): the boot ROM, the Primer firmware and the resident agent of the active image, the harvest
tables, and the port and channel configuration. (DESIGN CHOICE, log 60) -/
def State.measured (s : State) (i : Nat) : List Byte :=
  let rows := (below 1152).map (fun e => sget 0 (s.core (e / 16)).lostRows (e % 16))
  let lost := (below 72).map (fun c => (s.core c).spareFailed.toNat)
  let ports := s.hub.portsUp.map Bool.toNat ++ (below 132).map (fun b => (s.fenceBit (if b < 128 then 1224 + b else 1236 + b)).toNat)
  if i = 0 then Config.bootRom else if i = 1 then Config.primerPart s.hub.activeImage else if i = 2 then Config.agentPart s.hub.activeImage
  else if i = 3 then Config.tableBytes 3 (rows ++ lost) else Config.tableBytes 4 ports

/-- The first 600 bytes of the report over a nonce: magic, nonce, DEVID, SVN, measurements and FENCEMAP. (DESIGN CHOICE, log 60) -/
def State.reportBody (s : State) (nonce : List Byte) : List Byte :=
  let magic : List Nat := [0x4B, 0x4F, 0x4C, 0x41, 0x54, 0x48, 0x4B, 0x37, 0x32, 0x41, 0x54, 0x54, 0x45, 0x53, 0x54, 0x31]
  magic.map (BitVec.ofNat 8) ++ nonce ++ devId ++ bytesOf 8 s.hub.svn ++ (below 5).flatMap (fun i => shake256 64 (s.measured i)) ++ s.fenceMap

/-- The report over a nonce (R403): its body, and the length and bytes of a Falcon-1024 signature of the body by the device key; none
where the signer's draw gives no such signature, so that it draws again (R401). (DESIGN CHOICE, log 60) -/
def State.report (s : State) (nonce : List Byte) : Option (List Byte) :=
  let b := s.reportBody nonce
  let sig := Config.falconSign b s.free
  if falconVerify (bytesOf 1793 Config.deviceKey) b sig then
    some (b ++ bytesOf 2 sig.length ++ sig ++ List.replicate (1280 - sig.length) 0) else none

/-- The report over a nonce is still to be signed. (DESIGN CHOICE, log 60) -/
def signing (s : State) (nonce : List Byte) : Bool := nonce.length == 32 && (s.report nonce).isNone

/-- Mailbox 1 type 2: the report over a nonce of 32 bytes. -/
def State.mbReport (s : State) (nonce : List Byte) : Reply :=
  if nonce.length ≠ 32 then refuse s 5
  else match s.report nonce with
    | some r => (s, 0, r)
    | none => refuse s 5

/-! ## Readiness (R400, R409) and the messages as steps -/

/-- A mailbox-0 message of a type is answered with status 4: types 1-3 before Finish completes, types 1-3 and 5-7 after a trip. -/
def notReady (s : State) (type : Nat) : Bool :=
  (s.stage != .up && decide (1 ≤ type) && decide (type ≤ 3)) || (s.stage == .tripped && decide (5 ≤ type) && decide (type ≤ 7))

/-- A message of a type to mailbox 0, where it is taken. -/
def mailbox (s : State) (type : Nat) (f : State → Reply) : Reply := if notReady s type then refuse s 4 else f s

/-- A message as a step: performed whole, its status and reply recorded. Without power no mailbox answers. -/
def answer (s : State) (type : Nat) (f : State → Reply) : Out :=
  if s.stage = .off ∨ s.stage = .stopped then .next s
  else match mailbox s type f with
    | (s, status, b) => .next { s with hub := { s.hub with replies := (status, b) :: s.hub.replies } }

/-- INSTALL_CONTEXT (R412): Mailbox 0 type 1, OP 0, installs a translation context with its root. -/
def execInstallContext (asid root : Nat) (s : State) : Out := answer s 1 (·.mbInstall asid root)
/-- REMOVE_CONTEXT (R359): Mailbox 0 type 1, OP 1, removes a translation context unless tasks or rings of its ASID remain. -/
def execRemoveContext (asid : Nat) (s : State) : Out := answer s 1 (·.mbRemove asid)
/-- ADD_FRAMES (R412): Mailbox 0 type 1, OP 2, zeros each frame and adds it to the ASID's pool of the given size. -/
def execAddFrames (asid : Nat) (big : Bool) (frames : List Nat) (s : State) : Out := answer s 1 (·.mbAdd asid big frames)
/-- REMOVE_FRAMES (R412): Mailbox 0 type 1, OP 3, removes frames that are in the pool. -/
def execRemoveFrames (asid : Nat) (big : Bool) (frames : List Nat) (s : State) : Out := answer s 1 (·.mbTake asid big frames)
/-- INSTALL_RING_CONTEXT (R347): Mailbox 0 type 2 installs, replaces or removes a 64 B ring context, discarding records it held. -/
def execInstallRingContext (ring : Nat) (record : List Byte) (s : State) : Out := answer s 2 (·.mbRing ring record)
/-- INSTALL_PEER_CONTEXT (R412): Mailbox 0 type 3 installs a peer context and opens its connections, or removes it with NPKG 0. -/
def execInstallPeerContext (peer prank : Nat) (packages : List Remote) (s : State) : Out := answer s 3 (·.mbPeer peer prank packages)
/-- OPEN_CONNECTION (R412): Mailbox 0 type 4 with open = 1 opens a host connection with both sequence numbers at 0. -/
def execOpenConnection (conn : Nat) (remote : Remote) (s : State) : Out := answer s 4 (·.mbOpen conn remote)
/-- CLOSE_CONNECTION (R412): Mailbox 0 type 4 with open = 0 closes a host connection; closing connection 64 is refused. -/
def execCloseConnection (conn : Nat) (s : State) : Out := answer s 4 (·.mbClose conn)
/-- READ_SAVE_AREA (R412): Mailbox 0 type 5 returns LENGTH bytes of a halted, pre-empted or exited gang's save area. -/
def execReadSaveArea (handle squad pos offset length : Nat) (s : State) : Out :=
  answer s 5 (·.mbRead (handle, squad, pos) offset length)
/-- RESUME_GANG (R45): Mailbox 0 type 6 resumes a halted gang, replaying faulted entries and batches exactly. -/
def execResumeGang (handle squad pos : Nat) (s : State) : Out := answer s 6 (·.mbResume (handle, squad, pos))
/-- CANCEL_TASK_MESSAGE (R382): Mailbox 0 type 7 cancels a task by handle. -/
def execCancelTaskMessage (handle : Nat) (s : State) : Out := answer s 7 (·.mbCancel handle)
/-- FIRMWARE_BEGIN (R404): Mailbox 0 type 8 begins writing a firmware image of the given length into the inactive slot. -/
def execFirmwareBegin (length : Nat) (s : State) : Out := answer s 8 (·.mbBegin length)
/-- FIRMWARE_CHUNK (R404): Mailbox 0 type 9 writes a chunk of the image at its byte offset. -/
def execFirmwareChunk (offset : Nat) (bytes : List Byte) (s : State) : Out := answer s 9 (·.mbChunk offset bytes)
/-- FIRMWARE_COMMIT (R404): Mailbox 0 type 10 verifies hash, signature and SVN and makes the inactive slot active at the next reset. -/
def execFirmwareCommit (s : State) : Out := answer s 10 (·.mbCommit)
/-- Mailbox 1 answers at every stage with power. -/
def execGetCertificate (s : State) : Out := answer s 0 (·.mbCertificate)
/-- ATTESTATION_REPORT (R403): Mailbox 1 type 2 with a nonce returns a signed 1,882 B attestation report; until it is signed, none is
returned. (DESIGN CHOICE, log 60) -/
def execAttestationReport (nonce : List Byte) (s : State) : Out := if signing s nonce then .next s else answer s 0 (·.mbReport nonce)

/-! ## Messages as bytes (R412) -/

/-- A far end in the layout of types 3 and 4: an IPv4 address in the low four bytes, the rest 0. -/
def remoteAt (b : List Byte) (mac port encap ip udp : Nat) : Remote :=
  { mac := fieldOf b mac 6, port := fieldOf b port 1, encap := fieldOf b encap 1, ip := fieldOf b ip 16, udpPort := fieldOf b udp 2 }

/-- A body of type 1. -/
def contextMsg (s : State) (b : List Byte) : Reply :=
  let op := fieldOf b 4 1
  let size := fieldOf b 5 1
  let asid := fieldOf b 6 2
  let root := fieldOf b 8 8
  let count := fieldOf b 0x10 4
  if b.length < 0x18 ∨ b.length ≠ 0x18 + 8 * count ∨ 509 < count ∨ fieldOf b 0x14 4 ≠ 0 ∨ 1 < size ∨ asid = 0 ∨ (op < 2 ∧ (size ≠ 0 ∨ count ≠ 0)) ∨
      (op ≠ 0 ∧ root ≠ 0) then refuse s 5
  else
    let frames := (below count).map (fun i => fieldOf b (0x18 + 8 * i) 8)
    match op with
    | 0 => s.mbInstall asid root
    | 1 => s.mbRemove asid
    | 2 => s.mbAdd asid (size == 1) frames
    | 3 => s.mbTake asid (size == 1) frames
    | _ => refuse s 5

/-- A message to mailbox 0. -/
def State.message0 (s : State) (b : List Byte) : Reply :=
  let n := b.length
  let type := fieldOf b 0 4
  let who := (fieldOf b 4 4, fieldOf b 8 4, fieldOf b 0x0C 1)
  if n < 4 then refuse s 5
  else mailbox s type (fun s =>
    match type with
    | 1 => contextMsg s b
    | 2 => if n = 0x48 ∧ fieldOf b 5 3 = 0 then s.mbRing (fieldOf b 4 1) (b.drop 8) else refuse s 5
    | 3 =>
      let npkg := fieldOf b 6 2
      if n = 8 + 32 * npkg ∧ npkg ≤ 127 ∧ (below npkg).all (fun i => fieldOf b (8 + 32 * i + 26) 6 == 0) then
        s.mbPeer (fieldOf b 4 1) (fieldOf b 5 1) ((below npkg).map (fun i =>
          remoteAt b (8 + 32 * i) (8 + 32 * i + 6) (8 + 32 * i + 7) (8 + 32 * i + 8) (8 + 32 * i + 24)))
      else refuse s 5
    | 4 =>
      let r := remoteAt b 8 7 0x0E 0x10 0x20
      if n ≠ 0x30 ∨ fieldOf b 0x0F 1 ≠ 0 ∨ fieldOf b 0x22 14 ≠ 0 ∨ 1 < fieldOf b 6 1 ∨ !remoteOk r then refuse s 5
      else if fieldOf b 6 1 = 1 then s.mbOpen (fieldOf b 4 2) r else s.mbClose (fieldOf b 4 2)
    | 5 => if n = 0x18 ∧ fieldOf b 0x0D 3 = 0 then s.mbRead who (fieldOf b 0x10 4) (fieldOf b 0x14 4) else refuse s 5
    | 6 => if n = 0x10 ∧ fieldOf b 0x0D 3 = 0 then s.mbResume who else refuse s 5
    | 7 => if n = 8 then s.mbCancel (fieldOf b 4 4) else refuse s 5
    | 8 => if n = 8 then s.mbBegin (fieldOf b 4 4) else refuse s 5
    | 9 => if 8 ≤ n then s.mbChunk (fieldOf b 4 4) (b.drop 8) else refuse s 5
    | 10 => if n = 4 then s.mbCommit else refuse s 5
    | _ => refuse s 5)

/-- A message to mailbox 1. (DEDUCED, log 51) -/
def State.message1 (s : State) (b : List Byte) : Reply :=
  match fieldOf b 0 4 with
  | 1 => if b.length = 4 then s.mbCertificate else refuse s 5
  | 2 => if b.length = 36 then s.mbReport (b.drop 4) else refuse s 5
  | _ => refuse s 5

end Sys2Proof.Machine
end

