-- ==== Sys2Proof/Machine/Link.lean ====
section
/-! DEFINITION. The Ulpie Frame Protocol (R393-R397, R400, R409, R410): frames at a port, connections with their windows,
acknowledgements and retransmissions, the operations WRITE, READ, SEND, ATOMIC and SUBMIT, and the hub space. -/
namespace Sys2Proof.Machine

/-! ## The hub space (R397, R410, R411) -/

/-- A byte of the hub space that a register covers. -/
def hubCovered (off : Nat) : Bool :=
  decide (off < 0x30) || (decide (0x40 ≤ off) && decide (off < 0x108)) || (decide (0x140 ≤ off) && decide (off < 0x180)) ||
  (decide (0x200 ≤ off) && decide (off < 0x1200))

/-- A record of the log. -/
def LogRec.bytes (r : LogRec) : List Byte :=
  packBytes [(1, r.level), (1, r.cause), (2, r.unit), (4, r.count), (8, r.cycle), (8, r.addr), (40, 0)]

/-- The registers, from offset 0 to the end of CONTLOG; gaps hold 0. -/
def State.hubSpace (s : State) : List Byte :=
  let log := s.hub.log.flatMap LogRec.bytes
  let count (n : Nat) : List Byte := bytesOf 8 n ++ bytesOf 8 0
  devId ++ bytesOf 8 (s.hub.boot + 256 * s.hub.bootStep) ++ bytesOf 8 s.hub.svn ++ bytesOf 16 0 ++ s.fenceMap ++
    bytesOf 8 s.sched.age ++ bytesOf 56 0 ++ count s.sched.dropped ++ count s.sched.rejected ++ count s.sched.preemptions ++
    count s.sched.placements ++ bytesOf 128 0 ++ log ++ bytesOf (4096 - log.length) 0

/-- A READ of the hub space. -/
def State.hubSpaceRead (s : State) (off n : Nat) : Reply :=
  if (upFrom off n).all hubCovered then (s, 0, (s.hubSpace.drop off).take n) else refuse s 5

/-- A WRITE of the hub space: only AGE is writable; all its 64 bits are kept and read back, and CR_AGE takes the low 32 of them.
(DESIGN CHOICE, log 74) -/
def State.hubSpaceWrite (s : State) (off : Nat) (bs : List Byte) : Reply :=
  if off < 0x100 ∨ 0x108 < off + bs.length then refuse s 5
  else
    let old := bytesOf 8 s.sched.age
    let new := old.take (off - 0x100) ++ bs ++ old.drop (off - 0x100 + bs.length)
    done { s with sched := { s.sched with age := bytesVal new } }

/-- HUB_AGE_WRITE: AGE, and with it CR_AGE, is set. (DESIGN CHOICE, log 74) -/
def execHubAgeWrite (value : Word) (s : State) : Out := .next { s with sched := { s.sched with age := value.toNat } }

/-! ## Connections (R394, R395) -/

/-- Sequence numbers wrap. -/
def seqAdd (a n : Nat) : Nat := (a + n) % 2 ^ 32
/-- How far b lies past a. -/
def seqDist (a b : Nat) : Nat := (b + 2 ^ 32 - a % 2 ^ 32) % 2 ^ 32

/-- A frame with a SEQ is held. -/
def Conn.holds (c : Conn) (q : Nat) : Bool := c.held.any (fun f => f.seq == q)

/-- The first SEQ that has not been received. -/
def Conn.wanted (c : Conn) : Nat :=
  match (below 65).find? (fun i => !c.holds (seqAdd c.next i)) with
  | some i => seqAdd c.next i
  | none => seqAdd c.next 65

/-- ACKSEQ and SACK as they stand. -/
def Conn.ackSeq (c : Conn) : Nat := seqAdd c.wanted (2 ^ 32 - 1)
def Conn.sack (c : Conn) : BitVec 32 :=
  (below 32).foldl (fun m i => if c.holds (seqAdd c.wanted (1 + i)) then m ||| (1#32 <<< i) else m) 0

/-- s with the connection of a key changed. -/
def State.modConn (s : State) (key : Nat) (f : Conn → Conn) : State :=
  match kfind s.hub.conns key with
  | some c => { s with hub := { s.hub with conns := kput s.hub.conns key (f c) } }
  | none => s

/-! ## Frames on the wire (R393, R394) -/

/-- The 32 B header of a frame, little-endian, and its payload. -/
def Frame.bytes (f : Frame) : List Byte :=
  packBytes [(1, f.ver), (1, f.op), (2, f.conn), (4, f.seq), (4, f.ackSeq), (4, f.sack.toNat), (2, f.asid), (2, f.len), (4, f.arg.toNat),
             (8, f.addr.toNat)] ++ f.payload

/-- The fields that the bytes of a carrier spell; what follows the payload's LEN bytes is the carrier's padding. -/
def Wire.frame (w : Wire) : Frame :=
  let at_ (off n : Nat) : Nat := fieldOf w.bytes off n
  { port := w.port, encap := w.encap, source := w.mac, ver := at_ 0 1, op := at_ 1 1, conn := at_ 2 2, seq := at_ 4 4, ackSeq := at_ 8 4
    sack := BitVec.ofNat 32 (at_ 0x0C 4), asid := at_ 0x10 2, len := at_ 0x12 2, arg := BitVec.ofNat 32 (at_ 0x14 4)
    addr := BitVec.ofNat 64 (at_ 0x18 8), payload := (w.bytes.drop 32).take (at_ 0x12 2) }

/-- A frame as the device puts it on the wire. -/
def Frame.wire (f : Frame) : Wire := { port := f.port, encap := f.encap, mac := f.source, bytes := Frame.bytes f }

/-- The UDP port of the device (R393). -/
def udpPort : Nat := 47620

/-- The carrier towards a far end: no fragment, DF set on IPv4 (R393). (DEDUCED, log 48) -/
def Remote.carrier (r : Remote) : Encap :=
  if r.encap = 0 then .ethernet 0x88B5 else .udp (r.encap == 2) r.ip udpPort r.udpPort false (r.encap != 2)
/-- The far end that a frame comes from: its addresses and its encapsulation (R395). (DEDUCED, log 48) -/
def Frame.from_ (f : Frame) : Remote :=
  match f.encap with
  | .ethernet _ => { mac := f.source, port := f.port, encap := 0, ip := 0, udpPort := 0 }
  | .udp v6 ip p _ _ _ => { mac := f.source, port := f.port, encap := if v6 then 2 else 1, ip, udpPort := p }

/-- A frame to a far end that acknowledges what a connection has received; fields that the manual gives no value are free.
(DESIGN CHOICE, log 45) -/
def outFrame (s : State) (c : Conn) (r : Remote) (conn op seq arg : Nat) (payload : List Byte) : Frame :=
  { port := r.port, encap := Remote.carrier r, source := r.mac, ver := 1, op, conn, seq, ackSeq := c.ackSeq, sack := c.sack
    asid := Config.freeNat s.free (freeTag 61 0 0 conn) % 65536, len := payload.length, arg := BitVec.ofNat 32 arg
    addr := Config.freeWord s.free (freeTag 62 0 0 conn), payload }

/-- A frame leaves. -/
def State.emit (s : State) (f : Frame) : State := { s with hub := { s.hub with outbox := s.hub.outbox ++ [Frame.wire f] } }
/-- A frame is dropped and counted. -/
def State.dropFrame (s : State) : State := { s with hub := { s.hub with dropped := s.hub.dropped + 1 } }

/-- The carrier is one of the two forms. -/
def Encap.ok (e : Encap) : Bool :=
  match e with
  | .ethernet t => t == 0x88B5
  | .udp _ _ _ p frag _ => p == udpPort && !frag

/-- The connection a frame belongs to: for a peer context the one to the package it comes from. (DEDUCED, log 48) -/
def connOf (s : State) (f : Frame) : Option Nat :=
  if 64 ≤ f.conn then (if (kfind s.hub.conns f.conn).isSome ∧ f.conn < 256 then some f.conn else none)
  else (s.hub.conns.find? (fun c => c.1 % 256 == f.conn && c.2.remote.mac == f.source)).map (·.1)

/-- The form of a frame (R394): its carrier, VER, OP and LEN, with all of its payload. -/
def frameOkay (f : Frame) : Bool :=
  Encap.ok f.encap && f.ver == 1 && (f.op == 0x7F || (decide (1 ≤ f.op % 128) && decide (f.op % 128 ≤ 5) && decide (f.op < 256))) &&
  decide (f.len ≤ 4096) && f.payload.length == f.len

/-- A port receives. -/
def portUp (s : State) (p : Nat) : Bool := s.hub.portsUp.getD p false

/-- Acknowledgement of what the device has sent: frames up to ACKSEQ and those of SACK are done with; those before a later one that
SACK shows are sent again at once. -/
def State.takeAck (s : State) (key : Nat) (f : Frame) : State :=
  match kfind s.hub.conns key with
  | none => s
  | some c =>
    let got (q : Nat) : Bool := decide (seqDist q f.ackSeq < 2 ^ 31) ||
      (let d := seqDist (seqAdd f.ackSeq 2) q
       decide (d < 32) && f.sack.getLsbD d)
    let left := c.unacked.filter (fun t => !got t.frame.seq)
    let later (q : Nat) : Bool := (below 32).any (fun i => f.sack.getLsbD i && decide (0 < seqDist q (seqAdd f.ackSeq (2 + i))) &&
      decide (seqDist q (seqAdd f.ackSeq (2 + i)) < 2 ^ 31))
    let again := left.filter (fun t => later t.frame.seq)
    if again.any (fun t => decide (16 ≤ t.times)) then s.loseConn key 8
    else
      let s := again.foldl (fun s t => s.emit t.frame) s
      s.modConn key (fun c => { c with unacked := left.map (fun t =>
        if later t.frame.seq then { t with sent := s.cycle, times := t.times + 1 } else t) })

/-- An acknowledgement is due at a cycle at the latest. -/
def Conn.owe (c : Conn) (due : Nat) : Conn :=
  { c with ackOwed := some (match c.ackOwed with
      | some d => min d due
      | none => due) }

/-- An operation arrives: held in its place, or, as a duplicate or beyond the window, answered with a fresh acknowledgement. -/
def State.hold (s : State) (key : Nat) (f : Frame) : State :=
  s.modConn key (fun c =>
    let c := if key = 64 then { c with remote := Frame.from_ f } else c
    if seqDist c.wanted f.seq < 64 ∧ !c.holds f.seq then ({ c with held := c.held ++ [f] }).owe (s.cycle + 2800)
    else c.owe s.cycle)

/-- A frame that is neither lost nor dropped, with its connection. -/
def connOk (s : State) (f : Frame) : Option Nat := if frameOkay f then connOf s f else none

/-- A frame reaches a port (R393, R394): on a port that is down it is lost without count; one shorter than its header, of another form or
of no open connection is dropped and counted; else f acts on the state, its connection and its fields. -/
def receive (w : Wire) (s : State) (act : State → Nat → Frame → State) : Out :=
  if !portUp s w.port then .next s
  else if w.bytes.length < 32 then .next s.dropFrame
  else match connOk s (Wire.frame w) with
    | none => .next s.dropFrame
    | some key => .next (act s key (Wire.frame w))

/-- UFP_FRAME_RECEIVE: a frame reaches a port: it acknowledges, and an operation is held in its place. -/
def execUfpFrameReceive (f : Wire) (s : State) : Out :=
  receive f s (fun s key f => if f.op < 0x7F then (s.takeAck key f).hold key f else s.takeAck key f)

/-- UFP_ACK: an ACK frame. -/
def execUfpAck (f : Wire) (s : State) : Out := receive f s State.takeAck

/-- UFP_RESPONSE: a response completes the operation of its SEQ that the device sent, and acknowledges. -/
def execUfpResponse (f : Wire) (s : State) : Out :=
  receive f s (fun s key f => (s.takeAck key f).modConn key (fun c => { c with unacked := c.unacked.filter (fun t =>
    !(t.frame.seq == f.seq && t.frame.op + 0x80 == f.op)) }))

/-- The first connection that owes an acknowledgement. -/
def ackDue (s : State) : Option Nat :=
  (s.hub.conns.find? (fun c => match c.2.ackOwed with
    | some d => decide (d ≤ s.cycle)
    | none => false)).map (·.1)

/-- UFP_ACK_SEND: an ACK frame leaves on the first connection that owes one. (DESIGN CHOICE, log 45) -/
def execUfpAckSend (s : State) : Out :=
  match ackDue s with
  | none => .next s
  | some key =>
    match kfind s.hub.conns key with
    | none => .next s
    | some c =>
      let seq := Config.freeNat s.free (freeTag 63 0 0 (key % 256)) % 2 ^ 32
      .next ((s.emit (outFrame s c c.remote (key % 256) 0x7F seq (Config.freeNat s.free (freeTag 64 0 0 (key % 256)) % 2 ^ 32) [])).modConn key
        (fun c => { c with ackOwed := none }))

/-- The first frame whose acknowledgement has not come within 20 µs of its last transmission. -/
def resendDue (s : State) : Option (Nat × TxFrame) :=
  s.hub.conns.findSome? (fun c => (c.2.unacked.find? (fun t => decide (t.sent + 28000 ≤ s.cycle))).map (fun t => (c.1, t)))

/-- UFP_RETRANSMIT_TIMEOUT: it is sent again; after 16 transmissions the connection is lost. -/
def execUfpRetransmitTimeout (s : State) : Out :=
  match resendDue s with
  | none => .next s
  | some (key, t) =>
    if 16 ≤ t.times then .next (s.loseConn key 8)
    else .next ((s.emit t.frame).modConn key (fun c => { c with unacked := c.unacked.map (fun u =>
      if u = t then { u with sent := s.cycle, times := u.times + 1 } else u) }))

/-! ## Operations (R396) -/

/-- The parts of n bytes of an address space: physical address, offset and length; none where one does not translate. -/
def linkParts (s : State) (asid va : Nat) (rd wr : Bool) : List (Nat × Nat) → State × Option (List (Nat × Nat × Nat))
  | [] => (s, some [])
  | (lo, n) :: t =>
    match s.translate 224 asid (va + lo) rd wr with
    | (s, .error _) => (s, none)
    | (s, .ok pa) =>
      match linkParts s asid va rd wr t with
      | (s, some l) => (s, some ((pa, lo, n) :: l))
      | (s, none) => (s, none)

/-- The translation of an operation's bytes through the hub cache; none without a context or beyond the virtual space. -/
def linkXlate (s : State) (asid va n : Nat) (rd wr : Bool) : State × Option (List (Nat × Nat × Nat)) :=
  if (kfind s.contexts asid).isNone ∨ 2 ^ 48 < va + n ∨ 2 ^ 48 ≤ va then (s, none) else linkParts s asid va rd wr (partsBy 65536 va n)

/-- The operation may act outside the hub space. (DEDUCED, log 44) -/
def linkReady (s : State) : Bool := s.stage == .up

/-- WRITE. (DEDUCED, log 44) -/
def opWrite (s : State) (f : Frame) : Reply :=
  if f.asid = 0 then (if f.arg ≠ 0 ∨ f.conn < 64 then refuse s 5 else s.hubSpaceWrite f.addr.toNat f.payload)
  else if !linkReady s then refuse s 4
  else if f.arg ≠ 0 then refuse s 5
  else match linkXlate s f.asid f.addr.toNat f.payload.length false true with
    | (s, none) => refuse s 1
    | (s, some l) => done (l.foldl (fun s p => (s.homeStores p.1 (((f.payload.drop p.2.1).take p.2.2).map some)).heal p.1 p.2.2) s)

/-- READ. (DEDUCED, log 44) -/
def opRead (s : State) (f : Frame) : Reply :=
  let n := f.arg.toNat
  let bad := n = 0 ∨ 4096 < n ∨ f.len ≠ 0
  if f.asid = 0 then (if bad ∨ f.conn < 64 then refuse s 5 else s.hubSpaceRead f.addr.toNat n)
  else if !linkReady s then refuse s 4
  else if bad then refuse s 5
  else match linkXlate s f.asid f.addr.toNat n true false with
    | (s, none) => refuse s 1
    | (s, some l) =>
      if l.any (fun p => s.poisoned p.1 p.2.2) then refuse s 2
      else (s, 0, l.flatMap (fun p => bytesOf p.2.2 (s.homeBytes p.1 p.2.2)))

/-- SEND. -/
def opSend (s : State) (f : Frame) : Reply :=
  if f.arg = 0 then s.message0 f.payload else if f.arg = 1 then s.message1 f.payload else refuse s 5

/-- The fields of an ATOMIC keep their forms. -/
def atomicOk (f : Frame) : Bool :=
  let size := if f.arg.getLsbD 4 then 8 else 4
  let o := f.arg.toNat % 16
  decide (f.arg.toNat < 32) && decide (o ≤ 9) && f.payload.length == 16 && f.addr.toNat % size == 0 &&
  (size == 8 || (fieldOf f.payload 4 4 == 0 && fieldOf f.payload 12 4 == 0)) && (o == 9 || fieldOf f.payload 8 8 == 0)

/-- ATOMIC: at the home slice, atomic with the system-scope atomics of the device. (DEDUCED, log 44) -/
def opAtomic (s : State) (f : Frame) : Reply :=
  let size := if f.arg.getLsbD 4 then 8 else 4
  if f.asid = 0 then refuse s 5
  else if !linkReady s then refuse s 4
  else if !atomicOk f then refuse s 5
  else match linkXlate s f.asid f.addr.toNat size true true with
    | (s, some ((pa, _, _) :: _)) =>
      if s.poisoned pa size then refuse s 2
      else
        let x := modifySpot s 0 true size (fun old => aop (f.arg.toNat % 16) old (fieldOf f.payload 0 size) (fieldOf f.payload 8 size) (8 * size)) none (.pa pa)
        (x.1, 0, bytesOf 8 x.2)
    | (s, _) => refuse s 1

/-- SUBMIT. (DEDUCED, log 44) -/
def opSubmit (s : State) (f : Frame) : Reply :=
  if !linkReady s then refuse s 4
  else if f.asid = 0 then refuse s 5
  else if 32 ≤ f.arg.toNat ∨ f.len ≠ 0 then refuse s 5
  else match linkXlate s f.asid f.addr.toNat 256 true false with
    | (s, none) => refuse s 1
    | (s, some _) =>
      match s.enterQueue { queue := f.arg.toNat, addr := f.addr, asid := f.asid, core := 0, spare := false } with
      | (s, ok) => if ok then done s else refuse s 3

/-- The operation that a connection performs next. -/
def Conn.head (c : Conn) : Option Frame := c.held.find? (fun f => f.seq == c.next)

/-- The response leaves, acknowledging what has been received, and is sent again until it is acknowledged itself. -/
def State.respond (s : State) (key : Nat) (r : Remote) (f : Frame) (status : Nat) (payload : List Byte) : State :=
  match kfind s.hub.conns key with
  | some c =>
    let c := { c with ackOwed := none }
    let g := outFrame s c r f.conn (f.op + 0x80) f.seq status payload
    (s.emit g).modConn key (fun _ => { c with unacked := c.unacked ++ [{ frame := g, sent := s.cycle, times := 1 }] })
  | none => s.emit (outFrame s { remote := r, next := seqAdd f.seq 1 } r f.conn (f.op + 0x80) f.seq status payload)

/-- A SEND waits for its report's signature (R403). (DESIGN CHOICE, log 60) -/
def sendWaits (s : State) (f : Frame) : Bool :=
  f.op == 3 && f.arg == 1 && f.payload.length == 36 && fieldOf f.payload 0 4 == 2 && signing s (f.payload.drop 4)

/-- The operation at the head of the connection that the step names, if it is of a kind, is performed and answered. -/
def performUfp (s : State) (op : Nat) (f : State → Frame → Reply) : Out :=
  let key := s.ctx.id
  match (kfind s.hub.conns key).bind (fun c => c.head.map (fun h => (c, h))) with
  | none => .next s
  | some (c, h) =>
    if h.op ≠ op ∨ sendWaits s h then .next s
    else
      let r := if key = 64 then Frame.from_ h else c.remote
      let s := s.modConn key (fun c => { c with next := seqAdd c.next 1, held := c.held.erase h, lookFrom := none })
      match f s h with
      | (s, status, b) => .next (s.respond key r h status b)

/-- UFP_WRITE (R396): A WRITE writes its payload at ADDR in ASID as one released store batch at system scope, then responds. -/
def execUfpWrite (s : State) : Out := performUfp s 1 opWrite
/-- UFP_READ (R396): A READ reads the bytes at the home slices, or in the hub space, and returns them in its response. -/
def execUfpRead (s : State) : Out := performUfp s 2 opRead
/-- UFP_SEND (R396): A SEND delivers a message whole to mailbox 0 or 1, and its response carries the reply. -/
def execUfpSend (s : State) : Out := performUfp s 3 opSend
/-- UFP_ATOMIC (R396): An ATOMIC is checked and then performed at the home slice as a system-scope atomic, returning the old value. -/
def execUfpAtomic (s : State) : Out := performUfp s 4 opAtomic
/-- UFP_SUBMIT (R396): A SUBMIT enters the task descriptor at ADDR into host launch queue 0-31. -/
def execUfpSubmit (s : State) : Out := performUfp s 5 opSubmit

/-- The bytes of memory that an operation names (R396). -/
def opSpan (f : Frame) : Nat :=
  if f.op = 1 then f.payload.length else if f.op = 2 then f.arg.toNat
  else if f.op = 4 then (if f.arg.getLsbD 4 then 8 else 4) else if f.op = 5 then 256 else 0

/-- An operation waits: for a release of one of its pages under way (R367); a WRITE or an ATOMIC also at a home slice for sectors that a
commit has locked (R308). (DEDUCED, log 81) -/
def ufpWaits (s : State) (f : Frame) : Bool :=
  let va := f.addr.toNat
  f.asid != 0 && decide (opSpan f ≠ 0) &&
  (s.invs.any (fun v => v.release.isSome && v.asid == f.asid && decide (v.arrives ≤ s.cycle) && decide (v.base < va + opSpan f) &&
     decide (va < v.base + v.size)) ||
   ((f.op == 1 || f.op == 4) && s.commits != [] && (match (linkXlate s f.asid va (opSpan f) (f.op == 4) true).2 with
     | some l => l.any (fun p => s.locked p.1 p.2.2)
     | none => false)))

/-- The cycles that the lookups of an operation's bytes take (R362). (DEDUCED, log 80) -/
def ufpCost (s : State) (f : Frame) : Nat :=
  if f.asid = 0 ∨ opSpan f = 0 ∨ !linkReady s then 0
  else (partsBy 65536 f.addr.toNat (opSpan f)).foldl (fun m p => max m (s.missCost 224 f.asid ((f.addr.toNat + p.1) % 2 ^ 48))) 0

/-- The operation that a connection performs next may be performed: its lookups are over, and it waits for nothing. -/
def ufpMay (s : State) (c : Conn) (f : Frame) : Bool :=
  (ufpCost s f == 0 || c.lookFrom.any (fun t => decide (t + ufpCost s f ≤ s.cycle))) && !ufpWaits s f && !sendWaits s f

/-- The lookups of the operations to be performed next begin: those of the cycle just over. -/
def State.tickLink (s : State) : State :=
  { s with hub := { s.hub with conns := s.hub.conns.map (fun c =>
      (c.1, if c.2.head.isSome && c.2.lookFrom.isNone then { c.2 with lookFrom := some (s.cycle - 1) } else c.2)) } }

/-- The first connection with an operation that may be performed: its key and the operation. -/
def nextUfp (s : State) : Option (Nat × Nat) :=
  if s.stage = .off ∨ s.stage = .stopped then none
  else s.hub.conns.findSome? (fun c => (c.2.head.filter (ufpMay s c.2)).map (fun f => (c.1, f.op)))

end Sys2Proof.Machine
end

