-- ==== Sys2Proof/Machine/Walker.lean ====
section
/-! DEFINITION. The index walkers (R324-R330, R332, R333): tiles, payload forms, batches of coordinates and their gathers.
(DESIGN CHOICE, log 10) -/
namespace Sys2Proof.Machine

/-! ## The operation's fields (R327) -/

/-- Register d of a walker operation's shadow set. -/
def WalkOp.reg (w : WalkOp) (d : Nat) : Word := sget 0 w.regs d
def WalkOp.tfirst (w : WalkOp) : Nat := bitsOf (w.reg 3) 0 32
def WalkOp.tcount (w : WalkOp) : Nat := bitsOf (w.reg 3) 32 32
def WalkOp.tx (w : WalkOp) : Nat := bitsOf (w.reg 4) 0 16
def WalkOp.ty (w : WalkOp) : Nat := bitsOf (w.reg 4) 16 16
def WalkOp.dim3 (w : WalkOp) : Bool := (w.reg 4).getLsbD 32
def WalkOp.esize (w : WalkOp) : Nat := bitsOf (w.reg 5) 0 2
/-- Its directory and its payloads lie in the engine's own scratchpad. -/
def WalkOp.ownMeta (w : WalkOp) : Bool := tagOf (w.reg 0) == 1 && tagOf (w.reg 1) == 1
def WalkOp.rate (w : WalkOp) : Nat := bitsOf (w.reg 5) 8 8

/-! ## Reading the metadata (R328, R332) -/

/-- A read of n bytes at die scope, or its fault: tag 0 or 1, aligned. -/
def walkRead (s : State) (core k : Nat) (g : Gang) (a : Word) (n align : Nat) : State × Except MemFault Nat :=
  let fault (c : GFault) : MemFault := { code := c, vaddr := a, lanes := 0, detail := 0x2300 }
  if 2 ≤ tagOf a then (s, .error { fault .page with reason := if 6 ≤ tagOf a then 6 else 0 })
  else match routeOf s core g k .all a n align with
    | .error f => (s, .error { fault f.1 with reason := (routeFault f).2.2.1 })
    | .ok (.scr c e off _) => if s.sramPoisoned c e 0 off n then (s, .error (fault .poison)) else (s, .ok (loadBytes (s.scratch c e) off n))
    | .ok (.va va) =>
      match s.translate core g.info.asid va true false with
      | (s, .error f) => (s, .error { fault f.code with reason := f.reason, level := f.level })
      | (s, .ok pa) =>
        if s.poisoned pa n || s.deadDie (dieOf core) then (s, .error (fault .poison))
        else
          let s := s.fill (dieOf core) (pa / 128)
          (s, .ok ((ringFree s g.info.asid (freeTag 47 core k (va % 4096)) a n).getD (s.dieBytes (dieOf core) pa n)))

/-- n little-endian units of size bytes from an address, in order. -/
def walkUnits (s : State) (core k : Nat) (g : Gang) (a : Word) (size : Nat) : Nat → State × Except MemFault (List Nat)
  | 0 => (s, .ok [])
  | n + 1 =>
    match walkRead s core k g a size size with
    | (s, .error f) => (s, .error f)
    | (s, .ok v) =>
      match walkUnits s core k g (addrAdd a (BitVec.ofNat 64 size)) size n with
      | (s, .error f) => (s, .error f)
      | (s, .ok l) => (s, .ok (v :: l))

/-! ## Tiles (R324-R326) -/

/-- A malformed tile's fault (R332). -/
def malformed (a : Word) (reason : Nat) : MemFault := { code := .illegalEncoding, vaddr := a, lanes := 0, detail := 0x2300 + 16 * reason }

/-- Codes in strictly rising order. -/
def rising : List Nat → Bool
  | a :: b :: t => decide (a < b) && rising (b :: t)
  | _ => true

/-- The set bits of a word, offset. -/
def bitsFrom (base n v : Nat) : List Nat := ((below n).filter (fun i => v.testBit i)).map (fun i => base + i)

/-- The pairs of a run-length payload from a position on, until left codes are marked: the codes, or reason 4. -/
def runCodes (s : State) (core k : Nat) (g : Gang) (a : Word) (pos left : Nat) : Nat → State × Except MemFault (Except Unit (List Nat))
  | 0 => (s, .ok (.ok []))
  | fuel + 1 =>
    if left = 0 then (s, .ok (.ok []))
    else
      match walkUnits s core k g a 2 2 with
      | (s, .error f) => (s, .error f)
      | (s, .ok l) =>
        let skip := l.getD 0 0
        let run := l.getD 1 0
        if run = 0 ∨ 4096 < pos + skip + run then (s, .ok (.error ()))
        else
          match runCodes s core k g (addrAdd a 4) (pos + skip + run) (left - run) fuel with
          | (s, .ok (.ok t)) => (s, .ok (.ok (upFrom (pos + skip) run ++ t)))
          | r => r

/-- The coordinates of tile t (R324). -/
def WalkOp.tileAt (w : WalkOp) (t : Nat) : Nat × Nat × Nat :=
  if w.dim3 then (t % w.tx, t / w.tx % w.ty, t / (w.tx * w.ty)) else (t % w.tx, t / w.tx, 0)

/-- The local coordinate that every n-th bit of a Morton code from bit lo spells. -/
def morton (m n lo bits : Nat) : Nat := (below bits).foldl (fun acc i => acc + (m / 2 ^ (n * i + lo) % 2) * 2 ^ i) 0

/-- The coordinate word of code m in tile t (R325, R328). -/
def WalkOp.coord (w : WalkOp) (t m : Nat) : Nat :=
  let c := w.tileAt t
  if w.dim3 then
    (16 * c.1 + morton m 3 0 4) + (16 * c.2.1 + morton m 3 1 4) * 2 ^ 11 + (16 * c.2.2 + morton m 3 2 4) * 2 ^ 22
  else (64 * c.1 + morton m 2 0 6) + (64 * c.2.1 + morton m 2 1 6) * 2 ^ 16

/-- What a walker finds next: nothing more, a batch at (tile, batch) with its codes and the value index of the first, or a fault. -/
inductive WalkNext where
  | done
  | batch (tile batch t vidx : Nat) (codes : List Nat)
  | bad (tile batch : Nat) (f : MemFault)
  deriving DecidableEq, Repr

/-- The codes of tile t and the value index of its first nonzero (R324-R326). -/
def walkTile (s : State) (core k : Nat) (g : Gang) (w : WalkOp) (t : Nat) : State × Except MemFault (Nat × List Nat) :=
  let da := addrAdd (w.reg 0) (BitVec.ofNat 64 (16 * t))
  match walkRead s core k g da 16 16 with
  | (s, .error f) => (s, .error f)
  | (s, .ok d) =>
    let loff := d % 2 ^ 32
    let vidx := d / 2 ^ 32 % 2 ^ 32
    let nnz := d / 2 ^ 64 % 2 ^ 16
    let form := d / 2 ^ 80 % 2 ^ 8
    let la := addrAdd (w.reg 1) (BitVec.ofNat 64 loff)
    let c := w.tileAt t
    if 4096 < nnz ∨ 2 < form ∨ d / 2 ^ 88 ≠ 0 ∨ loff % (if form = 1 then 32 else 4) ≠ 0 then (s, .error (malformed da 1))
    else if (w.dim3 && decide (64 ≤ c.2.2)) || (!w.dim3 && decide (1024 ≤ c.2.1)) then (s, .error (malformed da 5))
    else if (w.reg 1).toNat % 32 ≠ 0 ∧ nnz ≠ 0 then
      (s, .error { code := .alignment, vaddr := w.reg 1, lanes := 0, detail := 0x2300 })
    else if nnz = 0 then (s, .ok (vidx, []))
    else if form = 0 then
      match walkUnits s core k g la 2 nnz with
      | (s, .error f) => (s, .error f)
      | (s, .ok l) => (s, if l.any (fun x => decide (4096 ≤ x)) || !rising l then .error (malformed la 2) else .ok (vidx, l))
    else if form = 1 then
      match walkUnits s core k g la 4 128 with
      | (s, .error f) => (s, .error f)
      | (s, .ok l) =>
        let codes := ((below 128).zip l).flatMap (fun x => bitsFrom (32 * x.1) 32 x.2)
        (s, if codes.length ≠ nnz then .error (malformed la 3) else .ok (vidx, codes))
    else
      match runCodes s core k g la 0 nnz nnz with
      | (s, .error f) => (s, .error f)
      | (s, .ok (.error _)) => (s, .error (malformed la 4))
      | (s, .ok (.ok l)) => (s, .ok (vidx, l.take nnz))

/-- The walker's next batch from (tile, batch) on; tiles without another batch are passed over. -/
def walkNext (s : State) (core k : Nat) (g : Gang) (w : WalkOp) (tile batch : Nat) : Nat → State × WalkNext
  | 0 => (s, .done)
  | fuel + 1 =>
    let t := (w.tfirst + tile) % 2 ^ 32
    match walkTile s core k g w t with
    | (s, .error f) => (s, .bad tile batch f)
    | (s, .ok (vidx, codes)) =>
      match (codes.drop (32 * batch)).take 32 with
      | [] => walkNext s core k g w (tile + 1) 0 fuel
      | l => (s, .batch tile batch t (vidx + 32 * batch) l)

/-- From the walker's position to the end of its tiles. -/
def WalkOp.next (w : WalkOp) (s : State) (core k : Nat) (g : Gang) (tile batch : Nat) : State × WalkNext :=
  walkNext s core k g w tile batch (w.tcount - tile)

/-! ## Pushing (R328, R329) -/

/-- The cycle of batch j: exact for metadata in the own scratchpad, later otherwise. -/
def WalkOp.due (w : WalkOp) (core k : Nat) : Nat :=
  let start := w.started.getD 0
  start + 32 + w.pushed * w.rate +
    (if w.ownMeta then 0 else Config.contention start (freeTag 42 core k (w.pushed % 4096)))

/-- The walker's reads wait for a release of a page of its gang's ASID under way, if it reads through the translation cache (R367).
(DEDUCED, log 19) -/
def WalkOp.waitsRelease (w : WalkOp) (s : State) (g : Gang) : Bool :=
  !w.ownMeta && s.invs.any (fun v => v.release.isSome && v.asid == g.info.asid && decide (v.arrives ≤ s.cycle))

/-- The walker of engine k has a push to make in this cycle: neither queue is full (R329). (DEDUCED, log 19) -/
def pushReady (s : State) (core k : Nat) : Bool :=
  match s.gang core with
  | none => false
  | some g =>
    match (g.eng k).walks with
    | w :: _ =>
      w.started.isSome && w.fault.isNone && !(holdsUnits g && w.batch == 0) && g.st != .preempted && g.st != .cancelled &&
        decide (w.due core k ≤ s.cycle) &&
        !w.waitsRelease s g && decide ((g.eng k).iq.length < 64) && decide ((g.eng k).q1.length < 64)
    | [] => false

/-- A walker's entry in iq. -/
def Engine.pushIq (en : Engine) (now : Nat) (r : EntryResult) : Engine :=
  let acc : Access := { kind := .load, opcode := 0x23, sizeCode := 0, write := false, scope := 0, block := true, pieces := [],
                        data := 0, cmp := 0 }
  { en with iq := en.iq ++ [{ serial := en.serial, acc, issued := now, readyAt := now, result := some r, popped := none }]
            serial := en.serial + 1 }

/-- The gather of a batch (R328): a load of queue 1 as M1 would make it, and no member of a transaction (R297). -/
def gatherOf (s : State) (core : Nat) (g : Gang) (k : Nat) (en : Engine) (w : WalkOp) (vidx n : Nat) : Engine :=
  if w.esize = 0 then en
  else
    let size := 2 ^ (w.esize - 1)
    let ps := (below n).map (fun l => ({ lane := l, bytes := size, data := 0,
                                         addr := addrAdd (w.reg 2) (BitVec.ofNat 64 ((vidx + l) * size)) } : Piece))
    plainLoad { s with ctx := { s.ctx with core, slot := .m1 } } g k en 1 0x23 (BitVec.ofNat 3 (w.esize + 2)) false ps ps

/-- The walker of an engine is done: it leaves the queue, and its ENGGO.IW knows when. -/
def Gang.endWalk (g : Gang) (k id now : Nat) : Gang :=
  { g.modEng k (fun en => { en with walks := en.walks.drop 1 }) with
    iwOps := g.iwOps.map (fun o => if o.id = id then { o with lastDone := now } else o) }

/-- DETAIL bits 1:0 of the fault that a walker's baton carries, as in R193: a breach of the address format, or a space that a walker does not
read (R331). -/
def walkBits (f : MemFault) : Nat := if f.code ≠ .page then 0 else if f.reason = 6 then 1 else if 2 ≤ tagOf f.vaddr then 2 else 0

/-- WALKER_BATCH_PUSH: the walker of the named engine pushes its next batch, or the fault that stops it; after its last batch it is
done. (DEDUCED, log 19) -/
def execWalkerBatchPush (s : State) : Out :=
  let core := s.ctx.core
  let k := s.ctx.engine
  if !pushReady s core k then .next s
  else
    match s.gang core with
    | none => .next s
    | some g =>
      match (g.eng k).walks with
      | [] => .next s
      | w :: _ =>
        match w.next s core k g w.tile w.batch with
        | (t, .done) => .next (t.modGang core (fun g => g.endWalk k w.id s.cycle))
        | (t, .bad tile batch f) =>
          .next (t.modGang core (fun g =>
            let g := g.modEng k (fun en => { en.pushIq s.cycle (.fault f) with
              walks := en.walks.map (fun x => if x.id = w.id then { x with tile, batch, fault := some f } else x) })
            match g.iwOps.find? (fun o => o.id == w.id) with
            | some o => g.badBaton (faultedBaton 0x23 o.baton { f with detail := walkBits f })
            | none => g))
        | (t, .batch tile batch num vidx codes) =>
          let lanes := (below 32).map (fun l => (l, match codes[l]? with
            | some m => w.coord num m
            | none => 0xFFFFFFFF))
          let t := t.modGang core (fun g => g.modEng k (fun en =>
            gatherOf t core g k (en.pushIq s.cycle (.data (packElems 32 lanes))) w vidx codes.length))
          let x := w.next t core k g tile (batch + 1)
          let more := match x.2 with
            | .done => none
            | .batch tile batch _ _ _ => some (tile, batch)
            | .bad tile batch _ => some (tile, batch)
          .next (x.1.modGang core (fun g => match more with
            | some (tile, batch) => g.modEng k (fun en => { en with
                walks := en.walks.map (fun y => if y.id = w.id then { y with tile, batch, pushed := y.pushed + 1 } else y) })
            | none => g.endWalk k w.id s.cycle))

/-- An ENGGO.IW whose walkers have all pushed their last entries, a cycle ago. -/
def iwDone (s : State) (g : Gang) : Option IwOp :=
  g.iwOps.find? (fun o => o.started.isSome && o.fault.isNone && decide (o.lastDone + 1 ≤ s.cycle) &&
    (maskList o.engines).all (fun k => (g.eng k).walks.all (fun w => w.id != o.id)))

/-- WALKER_COMPLETE: the baton is set (R330). -/
def execWalkerComplete (s : State) : Out :=
  slotGang s (fun g =>
    match iwDone s g with
    | some o => { g with iwOps := g.iwOps.filter (fun p => p.id != o.id) }.setBaton o.baton
    | none => g)

end Sys2Proof.Machine
end

