-- ==== Sys2Proof/Machine/Dispatch.lean ====
section
/-! DEFINITION. The dispatch: one arm per constructor of Instr, each one direct call of its meaning. -/
namespace Sys2Proof.Machine

/-- What a step of the machine does. (DESIGN CHOICE, log 7) -/
def exec (i : Instr) (s : State) : Host.Outcome State Fault Refusal :=
  match i with
  | .finish report => Sys2Proof.Machine.execFinish report s
  | .eccCorrection die pa delayed => Sys2Proof.Machine.execEccCorrection die pa delayed s
  | .uncorrectableError site => Sys2Proof.Machine.execUncorrectableError site s
  | .engineFence core engine cause => Sys2Proof.Machine.execEngineFence core engine cause s
  | .coreFence core cause => Sys2Proof.Machine.execCoreFence core cause s
  | .channelFence channel cause => Sys2Proof.Machine.execChannelFence channel cause s
  | .cdieFence die cause => Sys2Proof.Machine.execCdieFence die cause s
  | .mdieFence die cause => Sys2Proof.Machine.execMdieFence die cause s
  | .portFence port => Sys2Proof.Machine.execPortFence port s
  | .ufpFrameReceive f => Sys2Proof.Machine.execUfpFrameReceive f s
  | .ufpAck f => Sys2Proof.Machine.execUfpAck f s
  | .ufpResponse f => Sys2Proof.Machine.execUfpResponse f s
  | .hubAgeWrite value => Sys2Proof.Machine.execHubAgeWrite value s
  | .installContext asid root => Sys2Proof.Machine.execInstallContext asid root s
  | .removeContext asid => Sys2Proof.Machine.execRemoveContext asid s
  | .addFrames asid big frames => Sys2Proof.Machine.execAddFrames asid big frames s
  | .removeFrames asid big frames => Sys2Proof.Machine.execRemoveFrames asid big frames s
  | .installRingContext ring record => Sys2Proof.Machine.execInstallRingContext ring record s
  | .installPeerContext peer prank packages => Sys2Proof.Machine.execInstallPeerContext peer prank packages s
  | .openConnection conn remote => Sys2Proof.Machine.execOpenConnection conn remote s
  | .closeConnection conn => Sys2Proof.Machine.execCloseConnection conn s
  | .readSaveArea handle squad pos offset length => Sys2Proof.Machine.execReadSaveArea handle squad pos offset length s
  | .resumeGang handle squad pos => Sys2Proof.Machine.execResumeGang handle squad pos s
  | .cancelTaskMessage handle => Sys2Proof.Machine.execCancelTaskMessage handle s
  | .firmwareBegin length => Sys2Proof.Machine.execFirmwareBegin length s
  | .firmwareChunk offset bytes => Sys2Proof.Machine.execFirmwareChunk offset bytes s
  | .attestationReport nonce => Sys2Proof.Machine.execAttestationReport nonce s
  | .submissionArrival sub => Sys2Proof.Machine.execSubmissionArrival sub s
  | .gangStart handle squad => Sys2Proof.Machine.execGangStart handle squad s
  | .taskCancel handle asid => Sys2Proof.Machine.execTaskCancel handle asid s
  | .dieCacheEviction die line => Sys2Proof.Machine.execDieCacheEviction die line s
  | .collectiveFail key cause => Sys2Proof.Machine.execCollectiveFail key cause s
  | .pageWalk core va write => Sys2Proof.Machine.execPageWalk core va write s
  | .addSr e d a b => Sys2Proof.Machine.execAddSr e d a b s
  | .addSi e d a i2 => Sys2Proof.Machine.execAddSi e d a i2 s
  | .subSr e d a b => Sys2Proof.Machine.execSubSr e d a b s
  | .subSi e d a i2 => Sys2Proof.Machine.execSubSi e d a i2 s
  | .mulSr e d a b => Sys2Proof.Machine.execMulSr e d a b s
  | .mulSi e d a i2 => Sys2Proof.Machine.execMulSi e d a i2 s
  | .mulhSr e d a b u => Sys2Proof.Machine.execMulhSr e d a b u s
  | .mulhSi e d a i2 => Sys2Proof.Machine.execMulhSi e d a i2 s
  | .divSr e d a b u => Sys2Proof.Machine.execDivSr e d a b u s
  | .divSi e d a i2 => Sys2Proof.Machine.execDivSi e d a i2 s
  | .remSr e d a b u => Sys2Proof.Machine.execRemSr e d a b u s
  | .remSi e d a i2 => Sys2Proof.Machine.execRemSi e d a i2 s
  | .andSr e d a b => Sys2Proof.Machine.execAndSr e d a b s
  | .andSi e d a i2 => Sys2Proof.Machine.execAndSi e d a i2 s
  | .orSr e d a b => Sys2Proof.Machine.execOrSr e d a b s
  | .orSi e d a i2 => Sys2Proof.Machine.execOrSi e d a i2 s
  | .xorSr e d a b => Sys2Proof.Machine.execXorSr e d a b s
  | .xorSi e d a i2 => Sys2Proof.Machine.execXorSi e d a i2 s
  | .andnSr e d a b => Sys2Proof.Machine.execAndnSr e d a b s
  | .andnSi e d a i2 => Sys2Proof.Machine.execAndnSi e d a i2 s
  | .shlSr e d a b => Sys2Proof.Machine.execShlSr e d a b s
  | .shlSi e d a i2 => Sys2Proof.Machine.execShlSi e d a i2 s
  | .shrSr e d a b => Sys2Proof.Machine.execShrSr e d a b s
  | .shrSi e d a i2 => Sys2Proof.Machine.execShrSi e d a i2 s
  | .sraSr e d a b => Sys2Proof.Machine.execSraSr e d a b s
  | .sraSi e d a i2 => Sys2Proof.Machine.execSraSi e d a i2 s
  | .rolSr e d a b => Sys2Proof.Machine.execRolSr e d a b s
  | .rolSi e d a i2 => Sys2Proof.Machine.execRolSi e d a i2 s
  | .cmpSr e d a b c => Sys2Proof.Machine.execCmpSr e d a b c s
  | .cmpSi e d a c i2 => Sys2Proof.Machine.execCmpSi e d a c i2 s
  | .minSr e d a b u => Sys2Proof.Machine.execMinSr e d a b u s
  | .minSi e d a i2 => Sys2Proof.Machine.execMinSi e d a i2 s
  | .maxSr e d a b u => Sys2Proof.Machine.execMaxSr e d a b u s
  | .maxSi e d a i2 => Sys2Proof.Machine.execMaxSi e d a i2 s
  | .sel e d a b f => Sys2Proof.Machine.execSel e d a b f s
  | .bitcClz e d a => Sys2Proof.Machine.execBitcClz e d a s
  | .bitcCtz e d a => Sys2Proof.Machine.execBitcCtz e d a s
  | .bitcPopc e d a => Sys2Proof.Machine.execBitcPopc e d a s
  | .bitcBrev e d a => Sys2Proof.Machine.execBitcBrev e d a s
  | .extSr e d a b s2 => Sys2Proof.Machine.execExtSr e d a b s2 s
  | .extSi e d a l p => Sys2Proof.Machine.execExtSi e d a l p s
  | .li e d i2 => Sys2Proof.Machine.execLi e d i2 s
  | .lis e d i2 => Sys2Proof.Machine.execLis e d i2 s
  | .movc e d c => Sys2Proof.Machine.execMovc e d c s
  | .movtc e a c => Sys2Proof.Machine.execMovtc e a c s
  | .crEventsWrite value => Sys2Proof.Machine.execCrEventsWrite value s
  | .crTimerWrite value => Sys2Proof.Machine.execCrTimerWrite value s
  | .crBatonsWrite value => Sys2Proof.Machine.execCrBatonsWrite value s
  | .crWatchdogWrite value => Sys2Proof.Machine.execCrWatchdogWrite value s
  | .crFpflagsWrite engines value => Sys2Proof.Machine.execCrFpflagsWrite engines value s
  | .crStkdepthWrite value => Sys2Proof.Machine.execCrStkdepthWrite value s
  | .crRcutWrite engines value => Sys2Proof.Machine.execCrRcutWrite engines value s
  | .gpredSet d a => Sys2Proof.Machine.execGpredSet d a s
  | .gpredAnd d a b => Sys2Proof.Machine.execGpredAnd d a b s
  | .gpredOr d a b => Sys2Proof.Machine.execGpredOr d a b s
  | .gpredAndn d a b => Sys2Proof.Machine.execGpredAndn d a b s
  | .gpredXor d a b => Sys2Proof.Machine.execGpredXor d a b s
  | .gpredNot d a => Sys2Proof.Machine.execGpredNot d a s
  | .gpredFroms d a => Sys2Proof.Machine.execGpredFroms d a s
  | .gpredRange d a h l => Sys2Proof.Machine.execGpredRange d a h l s
  | .gqryMask d a => Sys2Proof.Machine.execGqryMask d a s
  | .gqryMaskE d a => Sys2Proof.Machine.execGqryMaskE d a s
  | .gqryCount d a => Sys2Proof.Machine.execGqryCount d a s
  | .gqryAny d a => Sys2Proof.Machine.execGqryAny d a s
  | .gqryAll d a => Sys2Proof.Machine.execGqryAll d a s
  | .gqryFirst d a => Sys2Proof.Machine.execGqryFirst d a s
  | .gqryAct d => Sys2Proof.Machine.execGqryAct d s
  | .gqryBit d a n => Sys2Proof.Machine.execGqryBit d a n s
  | .egetSr d a b => Sys2Proof.Machine.execEgetSr d a b s
  | .egetSi d n b => Sys2Proof.Machine.execEgetSi d n b s
  | .eputSr d a b => Sys2Proof.Machine.execEputSr d a b s
  | .eputSi d a i2 => Sys2Proof.Machine.execEputSi d a i2 s
  | .shpSr e d a => Sys2Proof.Machine.execShpSr e d a s
  | .shpK e d k => Sys2Proof.Machine.execShpK e d k s
  | .asetSr e d a b => Sys2Proof.Machine.execAsetSr e d a b s
  | .asetSi e d a i2 => Sys2Proof.Machine.execAsetSi e d a i2 s
  | .astrSr e d a b => Sys2Proof.Machine.execAstrSr e d a b s
  | .astrSi e d a i2 => Sys2Proof.Machine.execAstrSi e d a i2 s
  | .engwSr e d a b u => Sys2Proof.Machine.execEngwSr e d a b u s
  | .engwSi e d a u i2 => Sys2Proof.Machine.execEngwSi e d a u i2 s
  | .enggoCp0 p x y z => Sys2Proof.Machine.execEnggoCp0 p x y z s
  | .enggoCp1 p x y z => Sys2Proof.Machine.execEnggoCp1 p x y z s
  | .enggoIw p x y z => Sys2Proof.Machine.execEnggoIw p x y z s
  | .enggoCl p x y z => Sys2Proof.Machine.execEnggoCl p x y z s
  | .bwait d a k n => Sys2Proof.Machine.execBwait d a k n s
  | .wait d k a m => Sys2Proof.Machine.execWait d k a m s
  | .signalSr a => Sys2Proof.Machine.execSignalSr a s
  | .signalSi p => Sys2Proof.Machine.execSignalSi p s
  | .lapsetSr a => Sys2Proof.Machine.execLapsetSr a s
  | .lapsetSi h l => Sys2Proof.Machine.execLapsetSi h l s
  | .jmp o => Sys2Proof.Machine.execJmp o s
  | .bz a o => Sys2Proof.Machine.execBz a o s
  | .bnz a o => Sys2Proof.Machine.execBnz a o s
  | .bltz a o => Sys2Proof.Machine.execBltz a o s
  | .call o => Sys2Proof.Machine.execCall o s
  | .loop a o => Sys2Proof.Machine.execLoop a o s
  | .bmz a o => Sys2Proof.Machine.execBmz a o s
  | .gif a o => Sys2Proof.Machine.execGif a o s
  | .gelse o => Sys2Proof.Machine.execGelse o s
  | .gsplit a o => Sys2Proof.Machine.execGsplit a o s
  | .bar l => Sys2Proof.Machine.execBar l s
  | .sysLaunch a b => Sys2Proof.Machine.execSysLaunch a b s
  | .sysCancel a => Sys2Proof.Machine.execSysCancel a s
  | .sysStkspill d => Sys2Proof.Machine.execSysStkspill d s
  | .sysStkfill a => Sys2Proof.Machine.execSysStkfill a s
  | .vadd f => Sys2Proof.Machine.execVadd f s
  | .vsub f => Sys2Proof.Machine.execVsub f s
  | .vmul f => Sys2Proof.Machine.execVmul f s
  | .vfma f => Sys2Proof.Machine.execVfma f s
  | .vfnma f => Sys2Proof.Machine.execVfnma f s
  | .vmin f => Sys2Proof.Machine.execVmin f s
  | .vmax f => Sys2Proof.Machine.execVmax f s
  | .vabs f => Sys2Proof.Machine.execVabs f s
  | .vneg f => Sys2Proof.Machine.execVneg f s
  | .vand f => Sys2Proof.Machine.execVand f s
  | .vor f => Sys2Proof.Machine.execVor f s
  | .vxor f => Sys2Proof.Machine.execVxor f s
  | .vshl f => Sys2Proof.Machine.execVshl f s
  | .vshr f => Sys2Proof.Machine.execVshr f s
  | .vsra f => Sys2Proof.Machine.execVsra f s
  | .vcmp f => Sys2Proof.Machine.execVcmp f s
  | .vsel f => Sys2Proof.Machine.execVsel f s
  | .vmov f => Sys2Proof.Machine.execVmov f s
  | .vxfer f => Sys2Proof.Machine.execVxfer f s
  | .vcvt f => Sys2Proof.Machine.execVcvt f s
  | .vdecb f => Sys2Proof.Machine.execVdecb f s
  | .vencb f => Sys2Proof.Machine.execVencb f s
  | .vclass f => Sys2Proof.Machine.execVclass f s
  | .vrng f => Sys2Proof.Machine.execVrng f s
  | .vtopki f => Sys2Proof.Machine.execVtopki f s
  | .viota f => Sys2Proof.Machine.execViota f s
  | .vmulh f => Sys2Proof.Machine.execVmulh f s
  | .vadds f => Sys2Proof.Machine.execVadds f s
  | .vdot4 f => Sys2Proof.Machine.execVdot4 f s
  | .vpopc f => Sys2Proof.Machine.execVpopc f s
  | .vclz f => Sys2Proof.Machine.execVclz f s
  | .vext f => Sys2Proof.Machine.execVext f s
  | .vins f => Sys2Proof.Machine.execVins f s
  | .vladd f => Sys2Proof.Machine.execVladd f s
  | .vlsub f => Sys2Proof.Machine.execVlsub f s
  | .vlshl f => Sys2Proof.Machine.execVlshl f s
  | .vlshr f => Sys2Proof.Machine.execVlshr f s
  | .vlcmp f => Sys2Proof.Machine.execVlcmp f s
  | .vlmul f => Sys2Proof.Machine.execVlmul f s
  | .bind f => Sys2Proof.Machine.execBind f s
  | .rcp w t d a m => Sys2Proof.Machine.execRcp w t d a m s
  | .rsq w t d a m => Sys2Proof.Machine.execRsq w t d a m s
  | .sqrt w t d a m => Sys2Proof.Machine.execSqrt w t d a m s
  | .exp2 w t d a m => Sys2Proof.Machine.execExp2 w t d a m s
  | .log2 w t d a m => Sys2Proof.Machine.execLog2 w t d a m s
  | .tanh w t d a m => Sys2Proof.Machine.execTanh w t d a m s
  | .sint w t d a m => Sys2Proof.Machine.execSint w t d a m s
  | .cost w t d a m => Sys2Proof.Machine.execCost w t d a m s
  | .erf w t d a m => Sys2Proof.Machine.execErf w t d a m s
  | .rank t d a c g => Sys2Proof.Machine.execRank t d a c g s
  | .rankv t d a c g => Sys2Proof.Machine.execRankv t d a c g s
  | .rankc t d a e g => Sys2Proof.Machine.execRankc t d a e g s
  | .rmerge t d a c => Sys2Proof.Machine.execRmerge t d a c s
  | .unrank t d a n s2 g => Sys2Proof.Machine.execUnrank t d a n s2 g s
  | .ld r m s2 q i2 => Sys2Proof.Machine.execLd r m s2 q i2 s
  | .ldg r v m s2 q i2 => Sys2Proof.Machine.execLdg r v m s2 q i2 s
  | .st r v m s2 i2 => Sys2Proof.Machine.execSt r v m s2 i2 s
  | .sts r v m s2 i2 => Sys2Proof.Machine.execSts r v m s2 i2 s
  | .ldl r m q i2 => Sys2Proof.Machine.execLdl r m q i2 s
  | .stl r v m i2 => Sys2Proof.Machine.execStl r v m i2 s
  | .atom r v o w s2 q => Sys2Proof.Machine.execAtom r v o w s2 q s
  | .atomg r v o w s2 q => Sys2Proof.Machine.execAtomg r v o w s2 q s
  | .fence k s2 => Sys2Proof.Machine.execFence k s2 s
  | .aadd r i2 => Sys2Proof.Machine.execAadd r i2 s
  | .pref r s2 h i2 => Sys2Proof.Machine.execPref r s2 h i2 s
  | .scopLd r q i2 => Sys2Proof.Machine.execScopLd r q i2 s
  | .scopSt r v i2 => Sys2Proof.Machine.execScopSt r v i2 s
  | .scopExch r v q i2 => Sys2Proof.Machine.execScopExch r v q i2 s
  | .scopCas r v q i2 => Sys2Proof.Machine.execScopCas r v q i2 s
  | .lapadd r n => Sys2Proof.Machine.execLapadd r n s
  | .rpass r v s2 q => Sys2Proof.Machine.execRpass r v s2 q s
  | .rtake r s2 q => Sys2Proof.Machine.execRtake r s2 q s
  | .rtakeArm r => Sys2Proof.Machine.execRtakeArm r s
  | .rtakeStat r q => Sys2Proof.Machine.execRtakeStat r q s
  | .txbegin m => Sys2Proof.Machine.execTxbegin m s
  | .txbeginSerial m => Sys2Proof.Machine.execTxbeginSerial m s
  | .txend q => Sys2Proof.Machine.execTxend q s
  | .txabort m => Sys2Proof.Machine.execTxabort m s
  | .pcommit r s2 q => Sys2Proof.Machine.execPcommit r s2 q s
  | .prelease r s2 q => Sys2Proof.Machine.execPrelease r s2 q s
  | .tlbinv r v s2 q => Sys2Proof.Machine.execTlbinv r v s2 q s
  | .tlbinvAll q => Sys2Proof.Machine.execTlbinvAll q s
  | .mma c l h r a b i2 t k => Sys2Proof.Machine.execMma c l h r a b i2 t k s
  | .mmas c l h r a b i2 t => Sys2Proof.Machine.execMmas c l h r a b i2 t s
  | .mmar c l h r b i2 t n => Sys2Proof.Machine.execMmar c l h r b i2 t n s
  | .latld l h r a i2 => Sys2Proof.Machine.execLatld l h r a i2 s
  | .latldRank l h r i2 n => Sys2Proof.Machine.execLatldRank l h r i2 n s
  | .tzero c => Sys2Proof.Machine.execTzero c s
  | .tld c h r => Sys2Proof.Machine.execTld c h r s
  | .tst c h r => Sys2Proof.Machine.execTst c h r s
  | .tadd c h s2 => Sys2Proof.Machine.execTadd c h s2 s
  | .tscl c h n => Sys2Proof.Machine.execTscl c h n s
  | .xperm d a p => Sys2Proof.Machine.execXperm d a p s
  | .xshfl d a p => Sys2Proof.Machine.execXshfl d a p s
  | .xred d a p => Sys2Proof.Machine.execXred d a p s
  | .xscan d a p => Sys2Proof.Machine.execXscan d a p s
  | .gvsh d a p => Sys2Proof.Machine.execGvsh d a p s
  | .gvred d a p => Sys2Proof.Machine.execGvred d a p s
  | .gshuf d s2 m => Sys2Proof.Machine.execGshuf d s2 m s
  | .gred d s2 q => Sys2Proof.Machine.execGred d s2 q s
  | .gbcst d s2 n => Sys2Proof.Machine.execGbcst d s2 n s
  | .cbld a t => Sys2Proof.Machine.execCbld a t s
  | .scld a t h => Sys2Proof.Machine.execScld a t h s
  | .atld a t => Sys2Proof.Machine.execAtld a t s
  | .xpld a t => Sys2Proof.Machine.execXpld a t s
  | .stbs a => Sys2Proof.Machine.execStbs a s
  | .powerGood => Sys2Proof.Machine.execPowerGood s
  | .powerGoodWithdrawn => Sys2Proof.Machine.execPowerGoodWithdrawn s
  | .thermalTrip => Sys2Proof.Machine.execThermalTrip s
  | .patrolScrub => Sys2Proof.Machine.execPatrolScrub s
  | .ufpWrite => Sys2Proof.Machine.execUfpWrite s
  | .ufpRead => Sys2Proof.Machine.execUfpRead s
  | .ufpSend => Sys2Proof.Machine.execUfpSend s
  | .ufpAtomic => Sys2Proof.Machine.execUfpAtomic s
  | .ufpSubmit => Sys2Proof.Machine.execUfpSubmit s
  | .ufpAckSend => Sys2Proof.Machine.execUfpAckSend s
  | .ufpRetransmitTimeout => Sys2Proof.Machine.execUfpRetransmitTimeout s
  | .firmwareCommit => Sys2Proof.Machine.execFirmwareCommit s
  | .getCertificate => Sys2Proof.Machine.execGetCertificate s
  | .taskAccept => Sys2Proof.Machine.execTaskAccept s
  | .taskReady => Sys2Proof.Machine.execTaskReady s
  | .squadPlace => Sys2Proof.Machine.execSquadPlace s
  | .agingExpiry => Sys2Proof.Machine.execAgingExpiry s
  | .preemptionRequest => Sys2Proof.Machine.execPreemptionRequest s
  | .preemptStop => Sys2Proof.Machine.execPreemptStop s
  | .squadResume => Sys2Proof.Machine.execSquadResume s
  | .gangExitComplete => Sys2Proof.Machine.execGangExitComplete s
  | .taskComplete => Sys2Proof.Machine.execTaskComplete s
  | .autoCommit => Sys2Proof.Machine.execAutoCommit s
  | .bundleIssue => Sys2Proof.Machine.execBundleIssue s
  | .batchRelease => Sys2Proof.Machine.execBatchRelease s
  | .loadEntryResolve => Sys2Proof.Machine.execLoadEntryResolve s
  | .scopPerform => Sys2Proof.Machine.execScopPerform s
  | .timingTrap => Sys2Proof.Machine.execTimingTrap s
  | .longWaitHalt => Sys2Proof.Machine.execLongWaitHalt s
  | .faultHalt => Sys2Proof.Machine.execFaultHalt s
  | .timerExpiry => Sys2Proof.Machine.execTimerExpiry s
  | .barrierOpen => Sys2Proof.Machine.execBarrierOpen s
  | .waitWake => Sys2Proof.Machine.execWaitWake s
  | .bwaitWake => Sys2Proof.Machine.execBwaitWake s
  | .gmergeWaitEnd => Sys2Proof.Machine.execGmergeWaitEnd s
  | .signalDelivery => Sys2Proof.Machine.execSignalDelivery s
  | .arrayOpComplete => Sys2Proof.Machine.execArrayOpComplete s
  | .engineOpStart => Sys2Proof.Machine.execEngineOpStart s
  | .copyChunkLand => Sys2Proof.Machine.execCopyChunkLand s
  | .copyChunkFault => Sys2Proof.Machine.execCopyChunkFault s
  | .copyComplete => Sys2Proof.Machine.execCopyComplete s
  | .walkerBatchPush => Sys2Proof.Machine.execWalkerBatchPush s
  | .walkerComplete => Sys2Proof.Machine.execWalkerComplete s
  | .collectiveCommit => Sys2Proof.Machine.execCollectiveCommit s
  | .collectiveTimeout => Sys2Proof.Machine.execCollectiveTimeout s
  | .collectiveMemberComplete => Sys2Proof.Machine.execCollectiveMemberComplete s
  | .ringWatchEvent => Sys2Proof.Machine.execRingWatchEvent s
  | .txCommit => Sys2Proof.Machine.execTxCommit s
  | .txEntryResolve => Sys2Proof.Machine.execTxEntryResolve s
  | .serialLockGrant => Sys2Proof.Machine.execSerialLockGrant s
  | .serialLockRelease => Sys2Proof.Machine.execSerialLockRelease s
  | .invalidationAck => Sys2Proof.Machine.execInvalidationAck s
  | .frameReturn => Sys2Proof.Machine.execFrameReturn s
  | .signalOthers => Sys2Proof.Machine.execSignalOthers s
  | .ret => Sys2Proof.Machine.execRet s
  | .gjoin => Sys2Proof.Machine.execGjoin s
  | .gmerge => Sys2Proof.Machine.execGmerge s
  | .sysExit => Sys2Proof.Machine.execSysExit s
  | .sysBrk => Sys2Proof.Machine.execSysBrk s
  | .qsync => Sys2Proof.Machine.execQsync s
  | .hubFailure => Sys2Proof.Machine.execHubFailure s

end Sys2Proof.Machine
end

