-- ==== Sys2Proof/Machine/Tick.lean ====
section
/-! DEFINITION. The passing of a cycle: results land (R33, R34), released stores and write-backs arrive (R39, R61), timers count
(R132), invalidations reach the caches, and marks and held tile-port reads are tried again. -/
namespace Sys2Proof.Machine

/-- A result of a sequencer takes its place. -/
def State.applySPay (s : State) (core : Nat) (spare : Bool) (p : SPay) : State :=
  match p with
  | .s i v => s.modGang core (fun g => g.modSeq spare (fun q => { q with s := sput 0 q.s i v }))
  | .g i m v => s.modGang core (fun g => g.modSeq spare (fun q => { q with g := sput 0 q.g i (mergeBits (sget 0 q.g i) m v) }))
  | .cr a v => s.writeCr core spare a v
  | .shadow u i v => s.modGang core (fun g => g.modUnit u (fun x => { x with shadow := sput 0 x.shadow i v }))

/-- The register of a result holds an undefined value (R34). -/
def State.spoilSPay (s : State) (core : Nat) (spare : Bool) (p : SPay) : State :=
  let w (i : Nat) : Word := Config.freeWord s.free (freeTag 16 core spare.toNat i)
  match p with
  | .s i _ => s.applySPay core spare (.s i (w i))
  | .g i _ _ => s.applySPay core spare (.g i (BitVec.allOnes 16) ((w (64 + i)).setWidth 16))
  | .cr a _ => s.applySPay core spare (.cr a (w (128 + a % 2048)))
  | .shadow u i _ => s.applySPay core spare (.shadow u i (w (3000 + 64 * u + i)))

/-- Results that land in one cycle; a register that two of them write is undefined. -/
def State.applySLands (s : State) (core : Nat) (spare : Bool) : List SLand → State
  | [] => s
  | L :: t =>
    let s' := (s.applySPay core spare L.pay).applySLands core spare t
    if t.any (fun M => L.pay.clash M.pay) then s'.spoilSPay core spare L.pay else s'

/-- The results of a sequencer that are due in a cycle. -/
def Seq.dueLands (q : Seq) (now : Nat) : List SLand := q.lands.filter (fun L => decide (L.due ≤ now))

/-- The results of a sequencer that are due take their places. -/
def State.landSeq (s : State) (core : Nat) (spare : Bool) : State :=
  match s.gang core with
  | none => s
  | some g =>
    let due := (g.seq spare).dueLands s.cycle
    if due.isEmpty then s
    else (s.modGang core (fun g => g.modSeq spare (fun q => { q with lands := q.lands.filter (fun L => !decide (L.due ≤ s.cycle)) }))).applySLands
      core spare due

/-- A register that both sequencers of a gang write: a control register of the gang or core, or a shadow register of its units. -/
def SPay.shared (p : SPay) : Bool :=
  match p with
  | .cr a _ => a != 0x00B && !(decide (0x20 ≤ a) && decide (a ≤ 0x3F)) && !(decide (0x701 ≤ a) && decide (a ≤ 0x706))
  | .shadow _ _ _ => true
  | _ => false

/-- The results of both sequencers that are due take their places; a shared register that both write in one cycle is undefined (R34,
R135). (DESIGN CHOICE, log 9) -/
def State.landSeqs (s : State) (core : Nat) : State :=
  let due (spare : Bool) : List SLand := match s.gang core with
    | some g => (g.seq spare).dueLands s.cycle
    | none => []
  ((due false).filter (fun L => L.pay.shared && (due true).any (fun M => L.pay.clash M.pay))).foldl (fun s L => s.spoilSPay core false L.pay)
    ((s.landSeq core false).landSeq core true)

/-- The engines of a gang take their due results. -/
def Gang.landEngines (g : Gang) (now epoch core : Nat) : Gang :=
  g.mapAct 0xFFFF (fun k en => if en.lands.isEmpty then en else en.landDue now epoch (freeTag 17 core k 0))

/-- A gang's own clockwork: the events set in the last cycle are old, and CR_TIMER counts down. -/
def Gang.tickTimer (g : Gang) : Gang :=
  { g with freshEvents := 0, timer := g.timer - 1, timerDue := g.timer == 1 }

/-- A queue wait passes its limit in a region that cannot restart (R40, R167). -/
def Seq.tickLong (q : Seq) (now : Nat) : Seq :=
  match q.wait with
  | some (.queue, t) =>
    if q.immediate ∧ now = t + q.bound then { q with perf := { q.perf with longWait := q.perf.longWait + 1 } } else q
  | _ => q

/-- A cycle passes for the gang of a core. -/
def State.tickCore (s : State) (core : Nat) : State :=
  match s.gang core with
  | none => s.openGates core
  | some _ =>
    let s := s.modGang core Gang.tickTimer
    let s := s.landSeqs core
    let s := s.modGang core (fun g =>
      let g := g.landEngines s.cycle s.free core
      { g with prim := g.prim.tickLong s.cycle, spare := g.spare.tickLong s.cycle })
    ((((((s.tickFences core).openGates core).tickPort core).tickTx core).tickBatches core).tickArrivals core)

/-- A cycle passes. (DESIGN CHOICE, log 3) -/
def State.tick (s : State) : State :=
  let s := { s with cycle := s.cycle + 1 }
  let s := (((((s.tickCommits).landTransits).landWriteBacks).tickInvs).tickHub).tickLink
  (below 72).foldl State.tickCore s

end Sys2Proof.Machine
end

