-- ==== Sys2Proof/Machine/Pick.lean ====
section
/-! DEFINITION. Which event comes next in a cycle: the events of the outside world that the state lists, then the machine's own, in
one fixed order in which results and completions come before the bundles that may use them; and a package with one instruction
about to issue. -/
namespace Sys2Proof.Machine

/-- An event with its subject. -/
abbrev Event := Instr × Ctx

/-- Whether a step is one that the outside world brings about, or a choice that the manual leaves open.
(DESIGN CHOICE, log 4, 65) -/
def outside (i : Instr) : Bool :=
  match i with
  | .powerGood => true
  | .finish _ => true
  | .powerGoodWithdrawn => true
  | .thermalTrip => true
  | .eccCorrection _ _ _ => true
  | .uncorrectableError _ => true
  | .patrolScrub => true
  | .engineFence _ _ _ => true
  | .coreFence _ _ => true
  | .channelFence _ _ => true
  | .cdieFence _ _ => true
  | .mdieFence _ _ => true
  | .portFence _ => true
  | .collectiveFail _ _ => true
  | .hubFailure => true
  | .ufpFrameReceive _ => true
  | .ufpAck _ => true
  | .ufpResponse _ => true
  | .hubAgeWrite _ => true
  | .installContext _ _ => true
  | .removeContext _ => true
  | .addFrames _ _ _ => true
  | .removeFrames _ _ _ => true
  | .installRingContext _ _ => true
  | .installPeerContext _ _ _ => true
  | .openConnection _ _ => true
  | .closeConnection _ => true
  | .readSaveArea _ _ _ _ _ => true
  | .resumeGang _ _ _ => true
  | .cancelTaskMessage _ => true
  | .firmwareBegin _ => true
  | .firmwareChunk _ _ => true
  | .firmwareCommit => true
  | .getCertificate => true
  | .attestationReport _ => true
  | .submissionArrival _ => true
  | .dieCacheEviction _ _ => true
  | .collectiveCommit => true
  | .pageWalk _ _ _ => true
  | _ => false

/-- An event without a subject, where a condition holds. -/
def plain (c : Bool) (i : Instr) : Option Event := if c then some (i, {}) else none
/-- An event of a core. -/
def ofCore (core : Nat) (c : Bool) (i : Instr) : Option Event := if c then some (i, { core }) else none

/-- The first event of a list of candidates, each looked at only where those before it are not due. -/
def firstEvent : List (Unit → Option Event) → Option Event
  | [] => none
  | f :: t => match f () with
    | some e => some e
    | none => firstEvent t

/-- An access of an engine that may come to be performed: an entry of a queue (unit 0, 1 or 3 of LOAD_ENTRY_RESOLVE), or a place (unit 2). -/
inductive Item where
  | entry (unit : Nat) (e : QEntry)
  | place (e : SQEntry)
  deriving DecidableEq, Repr

/-- Its place in program order. -/
def Item.serial : Item → Nat
  | .entry _ e => e.serial
  | .place e => e.serial

/-- The accesses of an engine in program order. -/
def itemsOf (g : Gang) (k : Nat) : List Item :=
  let en := g.eng k
  sortBy (fun a b => decide (a.serial < b.serial))
    (en.q0.map (.entry 0) ++ en.q1.map (.entry 1) ++ en.iq.map (.entry 3) ++ (placesOf g k).map .place)

/-- The subject of an access. -/
def Item.ctx (core k : Nat) : Item → Ctx
  | .entry u e => { core, engine := k, unit := u, id := e.serial }
  | .place e => { core, engine := k, unit := 2, id := e.serial }

/-- An access is due: a load, an atomic or an operation, by LOAD_ENTRY_RESOLVE. -/
def Item.due (s : State) (core : Nat) (g : Gang) (k : Nat) : Item → Bool
  | .entry _ e => entryDue s core k g e
  | .place e => placeDue s core k g e

/-- A SCOP, with a queue entry or without, may be performed in this cycle. -/
def Item.scopDue (s : State) (core : Nat) (g : Gang) (k : Nat) : Item → Bool
  | .entry _ e => e.acc.kind.isScop && !e.performed && decide (e.readyAt ≤ s.cycle) && mayScop s core g k e.serial e.acc.from_ &&
      e.acc.free s core g k []
  | .place e => e.open_ && e.acc.kind.isScop && decide (e.completeAt ≤ s.cycle) && mayScop s core g k e.serial e.acc.from_ &&
      e.acc.free s core g k []

/-- A TXEND that may be performed, or whose causes have arrived. -/
def Item.txDue (s : State) (core : Nat) (g : Gang) (k : Nat) : Item → Bool
  | .entry _ e => e.acc.kind == .txend && !e.performed && mayCommit s core g k e
  | .place _ => false
def Item.txHere (s : State) : Item → Bool
  | .entry _ e => e.acc.kind == .txend && e.held.isSome && decide (e.readyAt ≤ s.cycle)
  | .place _ => false

/-- The first access of a gang, by engine and then in program order, that is due in some way: the event, with its subject
(R67, R189, R350, R364). -/
def firstItem (core : Nat) (g : Gang) (i : Instr) (p : Nat → Item → Bool) : Option Event :=
  (below g.engines.length).findSome? (fun k => ((itemsOf g k).find? (p k)).map (fun x => (i, x.ctx core k)))

/-- Accesses of a gang that are due: loads, atomics and operations; SCOPs; transactions; released batches. -/
def accessEvent (s : State) (core : Nat) (g : Gang) : Option Event :=
  firstEvent [
    fun _ => firstItem core g .loadEntryResolve (fun k x => x.due s core g k),
    fun _ => if tickBegins s core then firstItem core g .scopPerform (fun k x => x.scopDue s core g k) else none,
    fun _ => firstItem core g .txCommit (fun k x => x.txDue s core g k),
    fun _ => firstItem core g .txEntryResolve (fun _ x => x.txHere s),
    fun _ => ([false, true].find? (fun sp => match (g.seq sp).batch with
      | some b => batchDue s core g b
      | none => false)).map (fun sp => (.batchRelease, { core, spare := sp }))]

/-- A copy engine's due chunk, landing or failing its checks. -/
def chunkEvent (s : State) (core unit : Nat) : Option Event :=
  match tryChunk s core unit with
  | some (_, (_, .ok _)) => some (.copyChunkLand, { core, unit })
  | some (_, (_, .error _)) => some (.copyChunkFault, { core, unit })
  | none => none

/-- Units of a gang: array, copy engines, walkers, collective port, starts. -/
def unitEvent (s : State) (core : Nat) (g : Gang) : Option Event :=
  firstEvent [
    fun _ => ((below g.engines.length).find? (fun k => (g.eng k).xops.any (fun x => x.isDue s.cycle))).map (fun k =>
      (.arrayOpComplete, { core, engine := k })),
    fun _ => chunkEvent s core 0,
    fun _ => chunkEvent s core 1,
    fun _ => ([0, 1].find? (copyDone s core)).map (fun u => (.copyComplete, { core, unit := u })),
    fun _ => ((below g.engines.length).find? (pushReady s core)).map (fun k => (.walkerBatchPush, { core, engine := k })),
    fun _ => ofCore core (iwDone s g).isSome .walkerComplete,
    fun _ => ofCore core (collReady s core).isSome .collectiveMemberComplete,
    fun _ => ([0, 1, 2, 3].find? (fun u => startKind s core u != .no)).map (fun u => (.engineOpStart, { core, unit := u }))]

/-- Sequencers of a gang: the timer, stops, the ends of waits, issue, timing traps and halts. -/
def seqEvent (s : State) (core : Nat) (g : Gang) : Option Event :=
  let both (p : State → Nat → Bool → Bool) (i : Instr) : Option Event :=
    ([false, true].find? (p s core)).map (fun sp => (i, { core, spare := sp }))
  firstEvent [
    fun _ => ofCore core g.timerDue .timerExpiry,
    fun _ => both eccDue .timingTrap,
    fun _ => ofCore core (stopStep s core != .none) .preemptStop,
    fun _ => both (fun s c sp => wakeReady s c sp .barrier) .barrierOpen,
    fun _ => both (fun s c sp => wakeReady s c sp .event) .waitWake,
    fun _ => both (fun s c sp => wakeReady s c sp .baton) .bwaitWake,
    fun _ => ofCore core (g.st == .running && (mergeSecond g).isSome) .gmergeWaitEnd,
    fun _ => both issueReady .bundleIssue,
    fun _ => both trapDue .timingTrap,
    fun _ => both longWaitDue .longWaitHalt,
    fun _ => ofCore core (g.st == .faulting && g.halt.isSome && g.drained) .faultHalt,
    fun _ => ofCore core (exitStep s core != .none) .gangExitComplete]

/-- The first event of a kind over the cores with a gang. -/
def overCores (s : State) (f : Nat → Gang → Option Event) : Option Event :=
  (below 72).findSome? (fun c => match s.gang c with
    | some g => f c g
    | none => none)

/-- Translation, collectives, the serial lock, signals and ring events. -/
def sharedEvent (s : State) : Option Event :=
  firstEvent [
    fun _ => plain (dueAck s).isSome .invalidationAck,
    fun _ => if s.invs.any (fun v => v.settled s.cycle) then some (.loadEntryResolve, { unit := 4 }) else none,
    fun _ => plain (!s.framesBack.isEmpty) .frameReturn,
    fun _ => (collFailing s).map (fun x => (.collectiveFail x.1 x.2, {})),
    fun _ => plain (s.coll.any (·.atCommit s.cycle false)) .collectiveCommit,
    fun _ => plain (s.coll.any (·.timedOut s.cycle)) .collectiveTimeout,
    fun _ => plain (match s.lock.holder with
      | some c => mayUnlock s c
      | none => false) .serialLockRelease,
    fun _ => plain (s.lock.holder.isNone && !s.lock.requests.isEmpty && s.commits.isEmpty) .serialLockGrant,
    fun _ => plain (s.signals.any (signalDue s)) .signalDelivery,
    fun _ => plain (s.ringEvents.any (fun e => decide (e.due ≤ s.cycle))) .ringWatchEvent]

/-- The scheduler and the resident agent. -/
def schedEvent (s : State) : Option Event :=
  firstEvent [
    fun _ => (s.sched.cancels.find? (cancelDue s)).map (fun c => (.taskCancel c.handle c.asid, {})),
    fun _ => (nextComing s).map (fun c => (.submissionArrival c.sub, {})),
    fun _ => plain (nextQueue s).isSome .taskAccept,
    fun _ => plain (nextReady s).isSome .taskReady,
    fun _ => plain (nextComplete s).isSome .taskComplete,
    fun _ => plain (agentDue s).isSome .autoCommit,
    fun _ => plain (nextAged s).isSome .agingExpiry,
    fun _ => plain (nextVictim s).isSome .preemptionRequest,
    fun _ => plain (squadDue s).isSome .squadPlace,
    fun _ => plain ((strandedTask s).isSome || (resumeDue s).isSome) .squadResume]

/-- An operation of a connection, by its code. -/
def ufpInstr (op : Nat) : Instr :=
  match op with
  | 1 => .ufpWrite
  | 2 => .ufpRead
  | 3 => .ufpSend
  | 4 => .ufpAtomic
  | _ => .ufpSubmit

/-- The link. -/
def linkEvent (s : State) : Option Event :=
  firstEvent [
    fun _ => (nextUfp s).map (fun x => (ufpInstr x.2, { id := x.1 })),
    fun _ => plain (ackDue s).isSome .ufpAckSend,
    fun _ => plain (resendDue s).isSome .ufpRetransmitTimeout]

/-- The machine's next own event in this cycle. (DESIGN CHOICE, log 3) -/
def pick (s : State) : Option Event :=
  if s.stage = .up then
    firstEvent [
      fun _ => (nextStart s).map (fun x => (.gangStart x.1.handle x.2.num, {})),
      fun _ => sharedEvent s,
      fun _ => overCores s (accessEvent s),
      fun _ => overCores s (unitEvent s),
      fun _ => overCores s (seqEvent s),
      fun _ => schedEvent s,
      fun _ => linkEvent s]
  else linkEvent s

/-! ## One instruction about to issue -/

/-- The slots that a word of a width may stand in, in the order tried. (DEDUCED, log 59) -/
def slotsFor (i : Instr) (nbits : Nat) (w : Nat) : List Slot :=
  if nbits = 48 then [.v0, .v1, .v2]
  else if nbits = 24 then [.f]
  else if nbits = 32 then
    (if decodeS (BitVec.ofNat 32 w) = some i then [.s0, .s1] else if decodeM (BitVec.ofNat 32 w) = some i then [.m0, .m1] else [.x])
  else if decodeL (BitVec.ofNat 16 w) = some i then [.l] else [.k]

/-- The lowest bit of a slot in a bundle (R81). -/
def slotLow (sl : Slot) : Nat :=
  match sl with
  | .s0 => 328 | .s1 => 296 | .v0 => 248 | .v1 => 200 | .v2 => 152 | .f => 128 | .m0 => 96 | .m1 => 64 | .x => 32 | .l => 16 | .k => 0

/-- The bits of a bundle that holds a word in a slot, with RP set. -/
def bundleWith (sl : Slot) (w : Nat) : BundleBits := BitVec.ofNat 384 (2 ^ 383 + w * 2 ^ slotLow sl)

/-- The bundle that holds a table word where its slot rules allow it: a restart point with nothing else in it. (DEDUCED, log 5) -/
def fetchBundle (nbits w : Nat) : BundleBits :=
  match decodeTableWord nbits w with
  | none => BitVec.ofNat 384 (2 ^ 383)
  | some i =>
    let cands := slotsFor i nbits w
    match cands.find? (fun sl => (looseBundle (bundleWith sl w)).slotOk sl) with
    | some sl => bundleWith sl w
    | none => bundleWith (cands.headD .s0) w

/-- A gang alone on core 0, with the whole allocation of every kind, whose first bundle is entry 0 of its dictionary.
(DEDUCED, log 5) -/
def loneGang (w : BundleBits) (now : Nat) : Gang :=
  launchGang {} { asid := 1, handle := 1, cores := [0], regsA := 96, regsB := 96, regsC := 96, regsS := 32, spSize := 507904, ceilSize := 4194304 }
    [0] [w] [] [] now

end Sys2Proof.Machine
end

