-- ==== Sys2Proof/Machine/Step.lean ====
section
/-! DEFINITION. One step of the package: the next event that the outside world brings, or the machine's own next event of the cycle,
or, where nothing is left to happen in it, the passing of the cycle. -/
namespace Sys2Proof.Machine

/-- One step. (DESIGN CHOICE, log 3, 4; DEDUCED, log 6) -/
def step (s : State) : Host.Outcome State Fault Refusal :=
  let s := { s with free := s.free + 1 }
  match s.inputs with
  | i :: t => if outside i then exec i { s with inputs := t, ctx := {} } else .next { s with inputs := t }
  | [] =>
    match s.stage with
    | .off => .next s
    | .stopped => .fault .packageStopped
    | _ =>
      match pick s with
      | some e => exec e.1 { s with ctx := e.2 }
      | none => .next s.tick

/-- The package with one instruction about to issue: it is up, nothing else is resident or pending, and the gang on core 0 stands at
a bundle that holds the word. (DEDUCED, log 5) -/
def State.withFetchWord (s : State) (nbits w : Nat) : State :=
  { s with inputs := [], stage := .up, invs := [], framesBack := [], ringEvents := [], signals := [], coll := [], commits := [], lock := {}
           sched := {}, hub := { s.hub with conns := [] }
           cores := { gang := some (loneGang (fetchBundle nbits w) s.cycle) } :: List.replicate 71 {} }

end Sys2Proof.Machine
end

