-- ==== Sys2Proof/Laws/Exec.lean ====
section
/-! SUPPORT. The arms of exec one by one: each instruction's meaning by name; and the slots of a bundle perform the same meanings. -/
namespace Sys2Proof.Machine

@[simp] theorem exec_finish (report : FinishReport) (s : State) : exec (.finish report) s = execFinish report s := rfl
@[simp] theorem exec_eccCorrection (die pa : Nat) (delayed : Option (Nat × Nat × Nat)) (s : State) : exec (.eccCorrection die pa delayed) s = execEccCorrection die pa delayed s := rfl
@[simp] theorem exec_uncorrectableError (site : ErrorSite) (s : State) : exec (.uncorrectableError site) s = execUncorrectableError site s := rfl
@[simp] theorem exec_engineFence (core engine cause : Nat) (s : State) : exec (.engineFence core engine cause) s = execEngineFence core engine cause s := rfl
@[simp] theorem exec_coreFence (core cause : Nat) (s : State) : exec (.coreFence core cause) s = execCoreFence core cause s := rfl
@[simp] theorem exec_channelFence (channel cause : Nat) (s : State) : exec (.channelFence channel cause) s = execChannelFence channel cause s := rfl
@[simp] theorem exec_cdieFence (die cause : Nat) (s : State) : exec (.cdieFence die cause) s = execCdieFence die cause s := rfl
@[simp] theorem exec_mdieFence (die cause : Nat) (s : State) : exec (.mdieFence die cause) s = execMdieFence die cause s := rfl
@[simp] theorem exec_portFence (port : Nat) (s : State) : exec (.portFence port) s = execPortFence port s := rfl
@[simp] theorem exec_ufpFrameReceive (f : Wire) (s : State) : exec (.ufpFrameReceive f) s = execUfpFrameReceive f s := rfl
@[simp] theorem exec_ufpAck (f : Wire) (s : State) : exec (.ufpAck f) s = execUfpAck f s := rfl
@[simp] theorem exec_ufpResponse (f : Wire) (s : State) : exec (.ufpResponse f) s = execUfpResponse f s := rfl
@[simp] theorem exec_hubAgeWrite (value : Word) (s : State) : exec (.hubAgeWrite value) s = execHubAgeWrite value s := rfl
@[simp] theorem exec_installContext (asid root : Nat) (s : State) : exec (.installContext asid root) s = execInstallContext asid root s := rfl
@[simp] theorem exec_removeContext (asid : Nat) (s : State) : exec (.removeContext asid) s = execRemoveContext asid s := rfl
@[simp] theorem exec_addFrames (asid : Nat) (big : Bool) (frames : List Nat) (s : State) : exec (.addFrames asid big frames) s = execAddFrames asid big frames s := rfl
@[simp] theorem exec_removeFrames (asid : Nat) (big : Bool) (frames : List Nat) (s : State) : exec (.removeFrames asid big frames) s = execRemoveFrames asid big frames s := rfl
@[simp] theorem exec_installRingContext (ring : Nat) (record : List Byte) (s : State) : exec (.installRingContext ring record) s = execInstallRingContext ring record s := rfl
@[simp] theorem exec_installPeerContext (peer prank : Nat) (packages : List Remote) (s : State) : exec (.installPeerContext peer prank packages) s = execInstallPeerContext peer prank packages s := rfl
@[simp] theorem exec_openConnection (conn : Nat) (remote : Remote) (s : State) : exec (.openConnection conn remote) s = execOpenConnection conn remote s := rfl
@[simp] theorem exec_closeConnection (conn : Nat) (s : State) : exec (.closeConnection conn) s = execCloseConnection conn s := rfl
@[simp] theorem exec_readSaveArea (handle squad pos offset length : Nat) (s : State) : exec (.readSaveArea handle squad pos offset length) s = execReadSaveArea handle squad pos offset length s := rfl
@[simp] theorem exec_resumeGang (handle squad pos : Nat) (s : State) : exec (.resumeGang handle squad pos) s = execResumeGang handle squad pos s := rfl
@[simp] theorem exec_cancelTaskMessage (handle : Nat) (s : State) : exec (.cancelTaskMessage handle) s = execCancelTaskMessage handle s := rfl
@[simp] theorem exec_firmwareBegin (length : Nat) (s : State) : exec (.firmwareBegin length) s = execFirmwareBegin length s := rfl
@[simp] theorem exec_firmwareChunk (offset : Nat) (bytes : List Byte) (s : State) : exec (.firmwareChunk offset bytes) s = execFirmwareChunk offset bytes s := rfl
@[simp] theorem exec_attestationReport (nonce : List Byte) (s : State) : exec (.attestationReport nonce) s = execAttestationReport nonce s := rfl
@[simp] theorem exec_submissionArrival (sub : Submission) (s : State) : exec (.submissionArrival sub) s = execSubmissionArrival sub s := rfl
@[simp] theorem exec_gangStart (handle squad : Nat) (s : State) : exec (.gangStart handle squad) s = execGangStart handle squad s := rfl
@[simp] theorem exec_taskCancel (handle asid : Nat) (s : State) : exec (.taskCancel handle asid) s = execTaskCancel handle asid s := rfl
@[simp] theorem exec_dieCacheEviction (die line : Nat) (s : State) : exec (.dieCacheEviction die line) s = execDieCacheEviction die line s := rfl
@[simp] theorem exec_collectiveFail (key : CollKey) (cause : Nat) (s : State) : exec (.collectiveFail key cause) s = execCollectiveFail key cause s := rfl
@[simp] theorem exec_pageWalk (core : Nat) (va : Word) (write : Bool) (s : State) : exec (.pageWalk core va write) s = execPageWalk core va write s := rfl
@[simp] theorem exec_addSr (e : BitVec 1) (d : BitVec 6) (a : BitVec 6) (b : BitVec 6) (s : State) : exec (.addSr e d a b) s = execAddSr e d a b s := rfl
@[simp] theorem exec_addSi (e : BitVec 1) (d : BitVec 6) (a : BitVec 6) (i : BitVec 12) (s : State) : exec (.addSi e d a i) s = execAddSi e d a i s := rfl
@[simp] theorem exec_subSr (e : BitVec 1) (d : BitVec 6) (a : BitVec 6) (b : BitVec 6) (s : State) : exec (.subSr e d a b) s = execSubSr e d a b s := rfl
@[simp] theorem exec_subSi (e : BitVec 1) (d : BitVec 6) (a : BitVec 6) (i : BitVec 12) (s : State) : exec (.subSi e d a i) s = execSubSi e d a i s := rfl
@[simp] theorem exec_mulSr (e : BitVec 1) (d : BitVec 6) (a : BitVec 6) (b : BitVec 6) (s : State) : exec (.mulSr e d a b) s = execMulSr e d a b s := rfl
@[simp] theorem exec_mulSi (e : BitVec 1) (d : BitVec 6) (a : BitVec 6) (i : BitVec 12) (s : State) : exec (.mulSi e d a i) s = execMulSi e d a i s := rfl
@[simp] theorem exec_mulhSr (e : BitVec 1) (d : BitVec 6) (a : BitVec 6) (b : BitVec 6) (u : BitVec 1) (s : State) : exec (.mulhSr e d a b u) s = execMulhSr e d a b u s := rfl
@[simp] theorem exec_mulhSi (e : BitVec 1) (d : BitVec 6) (a : BitVec 6) (i : BitVec 12) (s : State) : exec (.mulhSi e d a i) s = execMulhSi e d a i s := rfl
@[simp] theorem exec_divSr (e : BitVec 1) (d : BitVec 6) (a : BitVec 6) (b : BitVec 6) (u : BitVec 1) (s : State) : exec (.divSr e d a b u) s = execDivSr e d a b u s := rfl
@[simp] theorem exec_divSi (e : BitVec 1) (d : BitVec 6) (a : BitVec 6) (i : BitVec 12) (s : State) : exec (.divSi e d a i) s = execDivSi e d a i s := rfl
@[simp] theorem exec_remSr (e : BitVec 1) (d : BitVec 6) (a : BitVec 6) (b : BitVec 6) (u : BitVec 1) (s : State) : exec (.remSr e d a b u) s = execRemSr e d a b u s := rfl
@[simp] theorem exec_remSi (e : BitVec 1) (d : BitVec 6) (a : BitVec 6) (i : BitVec 12) (s : State) : exec (.remSi e d a i) s = execRemSi e d a i s := rfl
@[simp] theorem exec_andSr (e : BitVec 1) (d : BitVec 6) (a : BitVec 6) (b : BitVec 6) (s : State) : exec (.andSr e d a b) s = execAndSr e d a b s := rfl
@[simp] theorem exec_andSi (e : BitVec 1) (d : BitVec 6) (a : BitVec 6) (i : BitVec 12) (s : State) : exec (.andSi e d a i) s = execAndSi e d a i s := rfl
@[simp] theorem exec_orSr (e : BitVec 1) (d : BitVec 6) (a : BitVec 6) (b : BitVec 6) (s : State) : exec (.orSr e d a b) s = execOrSr e d a b s := rfl
@[simp] theorem exec_orSi (e : BitVec 1) (d : BitVec 6) (a : BitVec 6) (i : BitVec 12) (s : State) : exec (.orSi e d a i) s = execOrSi e d a i s := rfl
@[simp] theorem exec_xorSr (e : BitVec 1) (d : BitVec 6) (a : BitVec 6) (b : BitVec 6) (s : State) : exec (.xorSr e d a b) s = execXorSr e d a b s := rfl
@[simp] theorem exec_xorSi (e : BitVec 1) (d : BitVec 6) (a : BitVec 6) (i : BitVec 12) (s : State) : exec (.xorSi e d a i) s = execXorSi e d a i s := rfl
@[simp] theorem exec_andnSr (e : BitVec 1) (d : BitVec 6) (a : BitVec 6) (b : BitVec 6) (s : State) : exec (.andnSr e d a b) s = execAndnSr e d a b s := rfl
@[simp] theorem exec_andnSi (e : BitVec 1) (d : BitVec 6) (a : BitVec 6) (i : BitVec 12) (s : State) : exec (.andnSi e d a i) s = execAndnSi e d a i s := rfl
@[simp] theorem exec_shlSr (e : BitVec 1) (d : BitVec 6) (a : BitVec 6) (b : BitVec 6) (s : State) : exec (.shlSr e d a b) s = execShlSr e d a b s := rfl
@[simp] theorem exec_shlSi (e : BitVec 1) (d : BitVec 6) (a : BitVec 6) (i : BitVec 12) (s : State) : exec (.shlSi e d a i) s = execShlSi e d a i s := rfl
@[simp] theorem exec_shrSr (e : BitVec 1) (d : BitVec 6) (a : BitVec 6) (b : BitVec 6) (s : State) : exec (.shrSr e d a b) s = execShrSr e d a b s := rfl
@[simp] theorem exec_shrSi (e : BitVec 1) (d : BitVec 6) (a : BitVec 6) (i : BitVec 12) (s : State) : exec (.shrSi e d a i) s = execShrSi e d a i s := rfl
@[simp] theorem exec_sraSr (e : BitVec 1) (d : BitVec 6) (a : BitVec 6) (b : BitVec 6) (s : State) : exec (.sraSr e d a b) s = execSraSr e d a b s := rfl
@[simp] theorem exec_sraSi (e : BitVec 1) (d : BitVec 6) (a : BitVec 6) (i : BitVec 12) (s : State) : exec (.sraSi e d a i) s = execSraSi e d a i s := rfl
@[simp] theorem exec_rolSr (e : BitVec 1) (d : BitVec 6) (a : BitVec 6) (b : BitVec 6) (s : State) : exec (.rolSr e d a b) s = execRolSr e d a b s := rfl
@[simp] theorem exec_rolSi (e : BitVec 1) (d : BitVec 6) (a : BitVec 6) (i : BitVec 12) (s : State) : exec (.rolSi e d a i) s = execRolSi e d a i s := rfl
@[simp] theorem exec_cmpSr (e : BitVec 1) (d : BitVec 6) (a : BitVec 6) (b : BitVec 6) (c : BitVec 6) (s : State) : exec (.cmpSr e d a b c) s = execCmpSr e d a b c s := rfl
@[simp] theorem exec_cmpSi (e : BitVec 1) (d : BitVec 6) (a : BitVec 6) (c : BitVec 3) (i : BitVec 9) (s : State) : exec (.cmpSi e d a c i) s = execCmpSi e d a c i s := rfl
@[simp] theorem exec_minSr (e : BitVec 1) (d : BitVec 6) (a : BitVec 6) (b : BitVec 6) (u : BitVec 1) (s : State) : exec (.minSr e d a b u) s = execMinSr e d a b u s := rfl
@[simp] theorem exec_minSi (e : BitVec 1) (d : BitVec 6) (a : BitVec 6) (i : BitVec 12) (s : State) : exec (.minSi e d a i) s = execMinSi e d a i s := rfl
@[simp] theorem exec_maxSr (e : BitVec 1) (d : BitVec 6) (a : BitVec 6) (b : BitVec 6) (u : BitVec 1) (s : State) : exec (.maxSr e d a b u) s = execMaxSr e d a b u s := rfl
@[simp] theorem exec_maxSi (e : BitVec 1) (d : BitVec 6) (a : BitVec 6) (i : BitVec 12) (s : State) : exec (.maxSi e d a i) s = execMaxSi e d a i s := rfl
@[simp] theorem exec_sel (e : BitVec 1) (d : BitVec 6) (a : BitVec 6) (b : BitVec 6) (f : BitVec 6) (s : State) : exec (.sel e d a b f) s = execSel e d a b f s := rfl
@[simp] theorem exec_bitcClz (e : BitVec 1) (d : BitVec 6) (a : BitVec 6) (s : State) : exec (.bitcClz e d a) s = execBitcClz e d a s := rfl
@[simp] theorem exec_bitcCtz (e : BitVec 1) (d : BitVec 6) (a : BitVec 6) (s : State) : exec (.bitcCtz e d a) s = execBitcCtz e d a s := rfl
@[simp] theorem exec_bitcPopc (e : BitVec 1) (d : BitVec 6) (a : BitVec 6) (s : State) : exec (.bitcPopc e d a) s = execBitcPopc e d a s := rfl
@[simp] theorem exec_bitcBrev (e : BitVec 1) (d : BitVec 6) (a : BitVec 6) (s : State) : exec (.bitcBrev e d a) s = execBitcBrev e d a s := rfl
@[simp] theorem exec_extSr (e : BitVec 1) (d : BitVec 6) (a : BitVec 6) (b : BitVec 6) (sc : BitVec 1) (s : State) : exec (.extSr e d a b sc) s = execExtSr e d a b sc s := rfl
@[simp] theorem exec_extSi (e : BitVec 1) (d : BitVec 6) (a : BitVec 6) (l : BitVec 6) (p : BitVec 6) (s : State) : exec (.extSi e d a l p) s = execExtSi e d a l p s := rfl
@[simp] theorem exec_li (e : BitVec 1) (d : BitVec 6) (i : BitVec 18) (s : State) : exec (.li e d i) s = execLi e d i s := rfl
@[simp] theorem exec_lis (e : BitVec 1) (d : BitVec 6) (i : BitVec 18) (s : State) : exec (.lis e d i) s = execLis e d i s := rfl
@[simp] theorem exec_movc (e : BitVec 1) (d : BitVec 6) (c : BitVec 12) (s : State) : exec (.movc e d c) s = execMovc e d c s := rfl
@[simp] theorem exec_movtc (e : BitVec 1) (a : BitVec 6) (c : BitVec 12) (s : State) : exec (.movtc e a c) s = execMovtc e a c s := rfl
@[simp] theorem exec_crEventsWrite (value : Word) (s : State) : exec (.crEventsWrite value) s = execCrEventsWrite value s := rfl
@[simp] theorem exec_crTimerWrite (value : Word) (s : State) : exec (.crTimerWrite value) s = execCrTimerWrite value s := rfl
@[simp] theorem exec_crBatonsWrite (value : Word) (s : State) : exec (.crBatonsWrite value) s = execCrBatonsWrite value s := rfl
@[simp] theorem exec_crWatchdogWrite (value : Word) (s : State) : exec (.crWatchdogWrite value) s = execCrWatchdogWrite value s := rfl
@[simp] theorem exec_crFpflagsWrite (engines : Mask) (value : Word) (s : State) : exec (.crFpflagsWrite engines value) s = execCrFpflagsWrite engines value s := rfl
@[simp] theorem exec_crStkdepthWrite (value : Word) (s : State) : exec (.crStkdepthWrite value) s = execCrStkdepthWrite value s := rfl
@[simp] theorem exec_crRcutWrite (engines : Mask) (value : Word) (s : State) : exec (.crRcutWrite engines value) s = execCrRcutWrite engines value s := rfl
@[simp] theorem exec_gpredSet (d : BitVec 6) (a : BitVec 6) (s : State) : exec (.gpredSet d a) s = execGpredSet d a s := rfl
@[simp] theorem exec_gpredAnd (d : BitVec 6) (a : BitVec 6) (b : BitVec 6) (s : State) : exec (.gpredAnd d a b) s = execGpredAnd d a b s := rfl
@[simp] theorem exec_gpredOr (d : BitVec 6) (a : BitVec 6) (b : BitVec 6) (s : State) : exec (.gpredOr d a b) s = execGpredOr d a b s := rfl
@[simp] theorem exec_gpredAndn (d : BitVec 6) (a : BitVec 6) (b : BitVec 6) (s : State) : exec (.gpredAndn d a b) s = execGpredAndn d a b s := rfl
@[simp] theorem exec_gpredXor (d : BitVec 6) (a : BitVec 6) (b : BitVec 6) (s : State) : exec (.gpredXor d a b) s = execGpredXor d a b s := rfl
@[simp] theorem exec_gpredNot (d : BitVec 6) (a : BitVec 6) (s : State) : exec (.gpredNot d a) s = execGpredNot d a s := rfl
@[simp] theorem exec_gpredFroms (d : BitVec 6) (a : BitVec 6) (s : State) : exec (.gpredFroms d a) s = execGpredFroms d a s := rfl
@[simp] theorem exec_gpredRange (d : BitVec 6) (a : BitVec 6) (h : BitVec 4) (l : BitVec 4) (s : State) : exec (.gpredRange d a h l) s = execGpredRange d a h l s := rfl
@[simp] theorem exec_gqryMask (d : BitVec 6) (a : BitVec 6) (s : State) : exec (.gqryMask d a) s = execGqryMask d a s := rfl
@[simp] theorem exec_gqryMaskE (d : BitVec 6) (a : BitVec 6) (s : State) : exec (.gqryMaskE d a) s = execGqryMaskE d a s := rfl
@[simp] theorem exec_gqryCount (d : BitVec 6) (a : BitVec 6) (s : State) : exec (.gqryCount d a) s = execGqryCount d a s := rfl
@[simp] theorem exec_gqryAny (d : BitVec 6) (a : BitVec 6) (s : State) : exec (.gqryAny d a) s = execGqryAny d a s := rfl
@[simp] theorem exec_gqryAll (d : BitVec 6) (a : BitVec 6) (s : State) : exec (.gqryAll d a) s = execGqryAll d a s := rfl
@[simp] theorem exec_gqryFirst (d : BitVec 6) (a : BitVec 6) (s : State) : exec (.gqryFirst d a) s = execGqryFirst d a s := rfl
@[simp] theorem exec_gqryAct (d : BitVec 6) (s : State) : exec (.gqryAct d) s = execGqryAct d s := rfl
@[simp] theorem exec_gqryBit (d : BitVec 6) (a : BitVec 6) (n : BitVec 4) (s : State) : exec (.gqryBit d a n) s = execGqryBit d a n s := rfl
@[simp] theorem exec_egetSr (d : BitVec 6) (a : BitVec 6) (b : BitVec 6) (s : State) : exec (.egetSr d a b) s = execEgetSr d a b s := rfl
@[simp] theorem exec_egetSi (d : BitVec 6) (n : BitVec 4) (b : BitVec 4) (s : State) : exec (.egetSi d n b) s = execEgetSi d n b s := rfl
@[simp] theorem exec_eputSr (d : BitVec 6) (a : BitVec 6) (b : BitVec 6) (s : State) : exec (.eputSr d a b) s = execEputSr d a b s := rfl
@[simp] theorem exec_eputSi (d : BitVec 6) (a : BitVec 6) (i : BitVec 12) (s : State) : exec (.eputSi d a i) s = execEputSi d a i s := rfl
@[simp] theorem exec_shpSr (e : BitVec 1) (d : BitVec 6) (a : BitVec 6) (s : State) : exec (.shpSr e d a) s = execShpSr e d a s := rfl
@[simp] theorem exec_shpK (e : BitVec 1) (d : BitVec 6) (k : BitVec 12) (s : State) : exec (.shpK e d k) s = execShpK e d k s := rfl
@[simp] theorem exec_asetSr (e : BitVec 1) (d : BitVec 6) (a : BitVec 6) (b : BitVec 6) (s : State) : exec (.asetSr e d a b) s = execAsetSr e d a b s := rfl
@[simp] theorem exec_asetSi (e : BitVec 1) (d : BitVec 6) (a : BitVec 6) (i : BitVec 12) (s : State) : exec (.asetSi e d a i) s = execAsetSi e d a i s := rfl
@[simp] theorem exec_astrSr (e : BitVec 1) (d : BitVec 6) (a : BitVec 6) (b : BitVec 6) (s : State) : exec (.astrSr e d a b) s = execAstrSr e d a b s := rfl
@[simp] theorem exec_astrSi (e : BitVec 1) (d : BitVec 6) (a : BitVec 6) (i : BitVec 12) (s : State) : exec (.astrSi e d a i) s = execAstrSi e d a i s := rfl
@[simp] theorem exec_engwSr (e : BitVec 1) (d : BitVec 6) (a : BitVec 6) (b : BitVec 6) (u : BitVec 6) (s : State) : exec (.engwSr e d a b u) s = execEngwSr e d a b u s := rfl
@[simp] theorem exec_engwSi (e : BitVec 1) (d : BitVec 6) (a : BitVec 6) (u : BitVec 2) (i : BitVec 10) (s : State) : exec (.engwSi e d a u i) s = execEngwSi e d a u i s := rfl
@[simp] theorem exec_enggoCp0 (p : BitVec 6) (x : BitVec 6) (y : BitVec 6) (z : BitVec 6) (s : State) : exec (.enggoCp0 p x y z) s = execEnggoCp0 p x y z s := rfl
@[simp] theorem exec_enggoCp1 (p : BitVec 6) (x : BitVec 6) (y : BitVec 6) (z : BitVec 6) (s : State) : exec (.enggoCp1 p x y z) s = execEnggoCp1 p x y z s := rfl
@[simp] theorem exec_enggoIw (p : BitVec 6) (x : BitVec 6) (y : BitVec 6) (z : BitVec 6) (s : State) : exec (.enggoIw p x y z) s = execEnggoIw p x y z s := rfl
@[simp] theorem exec_enggoCl (p : BitVec 6) (x : BitVec 6) (y : BitVec 6) (z : BitVec 6) (s : State) : exec (.enggoCl p x y z) s = execEnggoCl p x y z s := rfl
@[simp] theorem exec_bwait (d : BitVec 6) (a : BitVec 6) (k : BitVec 1) (n : BitVec 1) (s : State) : exec (.bwait d a k n) s = execBwait d a k n s := rfl
@[simp] theorem exec_wait (d : BitVec 6) (k : BitVec 1) (a : BitVec 1) (m : BitVec 4) (s : State) : exec (.wait d k a m) s = execWait d k a m s := rfl
@[simp] theorem exec_signalSr (a : BitVec 6) (s : State) : exec (.signalSr a) s = execSignalSr a s := rfl
@[simp] theorem exec_signalSi (p : BitVec 5) (s : State) : exec (.signalSi p) s = execSignalSi p s := rfl
@[simp] theorem exec_lapsetSr (a : BitVec 6) (s : State) : exec (.lapsetSr a) s = execLapsetSr a s := rfl
@[simp] theorem exec_lapsetSi (h : BitVec 4) (l : BitVec 4) (s : State) : exec (.lapsetSi h l) s = execLapsetSi h l s := rfl
@[simp] theorem exec_jmp (o : BitVec 20) (s : State) : exec (.jmp o) s = execJmp o s := rfl
@[simp] theorem exec_bz (a : BitVec 6) (o : BitVec 20) (s : State) : exec (.bz a o) s = execBz a o s := rfl
@[simp] theorem exec_bnz (a : BitVec 6) (o : BitVec 20) (s : State) : exec (.bnz a o) s = execBnz a o s := rfl
@[simp] theorem exec_bltz (a : BitVec 6) (o : BitVec 20) (s : State) : exec (.bltz a o) s = execBltz a o s := rfl
@[simp] theorem exec_call (o : BitVec 20) (s : State) : exec (.call o) s = execCall o s := rfl
@[simp] theorem exec_loop (a : BitVec 6) (o : BitVec 20) (s : State) : exec (.loop a o) s = execLoop a o s := rfl
@[simp] theorem exec_bmz (a : BitVec 6) (o : BitVec 20) (s : State) : exec (.bmz a o) s = execBmz a o s := rfl
@[simp] theorem exec_gif (a : BitVec 6) (o : BitVec 20) (s : State) : exec (.gif a o) s = execGif a o s := rfl
@[simp] theorem exec_gelse (o : BitVec 20) (s : State) : exec (.gelse o) s = execGelse o s := rfl
@[simp] theorem exec_gsplit (a : BitVec 6) (o : BitVec 20) (s : State) : exec (.gsplit a o) s = execGsplit a o s := rfl
@[simp] theorem exec_bar (l : BitVec 6) (s : State) : exec (.bar l) s = execBar l s := rfl
@[simp] theorem exec_sysLaunch (a : BitVec 6) (b : BitVec 6) (s : State) : exec (.sysLaunch a b) s = execSysLaunch a b s := rfl
@[simp] theorem exec_sysCancel (a : BitVec 6) (s : State) : exec (.sysCancel a) s = execSysCancel a s := rfl
@[simp] theorem exec_sysStkspill (d : BitVec 6) (s : State) : exec (.sysStkspill d) s = execSysStkspill d s := rfl
@[simp] theorem exec_sysStkfill (a : BitVec 6) (s : State) : exec (.sysStkfill a) s = execSysStkfill a s := rfl
@[simp] theorem exec_vadd (f : VFields) (s : State) : exec (.vadd f) s = execVadd f s := rfl
@[simp] theorem exec_vsub (f : VFields) (s : State) : exec (.vsub f) s = execVsub f s := rfl
@[simp] theorem exec_vmul (f : VFields) (s : State) : exec (.vmul f) s = execVmul f s := rfl
@[simp] theorem exec_vfma (f : VFields) (s : State) : exec (.vfma f) s = execVfma f s := rfl
@[simp] theorem exec_vfnma (f : VFields) (s : State) : exec (.vfnma f) s = execVfnma f s := rfl
@[simp] theorem exec_vmin (f : VFields) (s : State) : exec (.vmin f) s = execVmin f s := rfl
@[simp] theorem exec_vmax (f : VFields) (s : State) : exec (.vmax f) s = execVmax f s := rfl
@[simp] theorem exec_vabs (f : VFields) (s : State) : exec (.vabs f) s = execVabs f s := rfl
@[simp] theorem exec_vneg (f : VFields) (s : State) : exec (.vneg f) s = execVneg f s := rfl
@[simp] theorem exec_vand (f : VFields) (s : State) : exec (.vand f) s = execVand f s := rfl
@[simp] theorem exec_vor (f : VFields) (s : State) : exec (.vor f) s = execVor f s := rfl
@[simp] theorem exec_vxor (f : VFields) (s : State) : exec (.vxor f) s = execVxor f s := rfl
@[simp] theorem exec_vshl (f : VFields) (s : State) : exec (.vshl f) s = execVshl f s := rfl
@[simp] theorem exec_vshr (f : VFields) (s : State) : exec (.vshr f) s = execVshr f s := rfl
@[simp] theorem exec_vsra (f : VFields) (s : State) : exec (.vsra f) s = execVsra f s := rfl
@[simp] theorem exec_vcmp (f : VFields) (s : State) : exec (.vcmp f) s = execVcmp f s := rfl
@[simp] theorem exec_vsel (f : VFields) (s : State) : exec (.vsel f) s = execVsel f s := rfl
@[simp] theorem exec_vmov (f : VFields) (s : State) : exec (.vmov f) s = execVmov f s := rfl
@[simp] theorem exec_vxfer (f : VFields) (s : State) : exec (.vxfer f) s = execVxfer f s := rfl
@[simp] theorem exec_vcvt (f : VFields) (s : State) : exec (.vcvt f) s = execVcvt f s := rfl
@[simp] theorem exec_vdecb (f : VFields) (s : State) : exec (.vdecb f) s = execVdecb f s := rfl
@[simp] theorem exec_vencb (f : VFields) (s : State) : exec (.vencb f) s = execVencb f s := rfl
@[simp] theorem exec_vclass (f : VFields) (s : State) : exec (.vclass f) s = execVclass f s := rfl
@[simp] theorem exec_vrng (f : VFields) (s : State) : exec (.vrng f) s = execVrng f s := rfl
@[simp] theorem exec_vtopki (f : VFields) (s : State) : exec (.vtopki f) s = execVtopki f s := rfl
@[simp] theorem exec_viota (f : VFields) (s : State) : exec (.viota f) s = execViota f s := rfl
@[simp] theorem exec_vmulh (f : VFields) (s : State) : exec (.vmulh f) s = execVmulh f s := rfl
@[simp] theorem exec_vadds (f : VFields) (s : State) : exec (.vadds f) s = execVadds f s := rfl
@[simp] theorem exec_vdot4 (f : VFields) (s : State) : exec (.vdot4 f) s = execVdot4 f s := rfl
@[simp] theorem exec_vpopc (f : VFields) (s : State) : exec (.vpopc f) s = execVpopc f s := rfl
@[simp] theorem exec_vclz (f : VFields) (s : State) : exec (.vclz f) s = execVclz f s := rfl
@[simp] theorem exec_vext (f : VFields) (s : State) : exec (.vext f) s = execVext f s := rfl
@[simp] theorem exec_vins (f : VFields) (s : State) : exec (.vins f) s = execVins f s := rfl
@[simp] theorem exec_vladd (f : VFields) (s : State) : exec (.vladd f) s = execVladd f s := rfl
@[simp] theorem exec_vlsub (f : VFields) (s : State) : exec (.vlsub f) s = execVlsub f s := rfl
@[simp] theorem exec_vlshl (f : VFields) (s : State) : exec (.vlshl f) s = execVlshl f s := rfl
@[simp] theorem exec_vlshr (f : VFields) (s : State) : exec (.vlshr f) s = execVlshr f s := rfl
@[simp] theorem exec_vlcmp (f : VFields) (s : State) : exec (.vlcmp f) s = execVlcmp f s := rfl
@[simp] theorem exec_vlmul (f : VFields) (s : State) : exec (.vlmul f) s = execVlmul f s := rfl
@[simp] theorem exec_bind (f : VFields) (s : State) : exec (.bind f) s = execBind f s := rfl
@[simp] theorem exec_rcp (w : BitVec 2) (t : BitVec 2) (d : BitVec 5) (a : BitVec 5) (m : BitVec 3) (s : State) : exec (.rcp w t d a m) s = execRcp w t d a m s := rfl
@[simp] theorem exec_rsq (w : BitVec 2) (t : BitVec 2) (d : BitVec 5) (a : BitVec 5) (m : BitVec 3) (s : State) : exec (.rsq w t d a m) s = execRsq w t d a m s := rfl
@[simp] theorem exec_sqrt (w : BitVec 2) (t : BitVec 2) (d : BitVec 5) (a : BitVec 5) (m : BitVec 3) (s : State) : exec (.sqrt w t d a m) s = execSqrt w t d a m s := rfl
@[simp] theorem exec_exp2 (w : BitVec 2) (t : BitVec 2) (d : BitVec 5) (a : BitVec 5) (m : BitVec 3) (s : State) : exec (.exp2 w t d a m) s = execExp2 w t d a m s := rfl
@[simp] theorem exec_log2 (w : BitVec 2) (t : BitVec 2) (d : BitVec 5) (a : BitVec 5) (m : BitVec 3) (s : State) : exec (.log2 w t d a m) s = execLog2 w t d a m s := rfl
@[simp] theorem exec_tanh (w : BitVec 2) (t : BitVec 2) (d : BitVec 5) (a : BitVec 5) (m : BitVec 3) (s : State) : exec (.tanh w t d a m) s = execTanh w t d a m s := rfl
@[simp] theorem exec_sint (w : BitVec 2) (t : BitVec 2) (d : BitVec 5) (a : BitVec 5) (m : BitVec 3) (s : State) : exec (.sint w t d a m) s = execSint w t d a m s := rfl
@[simp] theorem exec_cost (w : BitVec 2) (t : BitVec 2) (d : BitVec 5) (a : BitVec 5) (m : BitVec 3) (s : State) : exec (.cost w t d a m) s = execCost w t d a m s := rfl
@[simp] theorem exec_erf (w : BitVec 2) (t : BitVec 2) (d : BitVec 5) (a : BitVec 5) (m : BitVec 3) (s : State) : exec (.erf w t d a m) s = execErf w t d a m s := rfl
@[simp] theorem exec_rank (t : BitVec 2) (d : BitVec 5) (a : BitVec 5) (c : BitVec 2) (g : BitVec 2) (s : State) : exec (.rank t d a c g) s = execRank t d a c g s := rfl
@[simp] theorem exec_rankv (t : BitVec 2) (d : BitVec 5) (a : BitVec 5) (c : BitVec 2) (g : BitVec 2) (s : State) : exec (.rankv t d a c g) s = execRankv t d a c g s := rfl
@[simp] theorem exec_rankc (t : BitVec 2) (d : BitVec 5) (a : BitVec 5) (e : BitVec 2) (g : BitVec 2) (s : State) : exec (.rankc t d a e g) s = execRankc t d a e g s := rfl
@[simp] theorem exec_rmerge (t : BitVec 2) (d : BitVec 5) (a : BitVec 5) (c : BitVec 2) (s : State) : exec (.rmerge t d a c) s = execRmerge t d a c s := rfl
@[simp] theorem exec_unrank (t : BitVec 2) (d : BitVec 5) (a : BitVec 5) (n : BitVec 1) (sc : BitVec 1) (g : BitVec 2) (s : State) : exec (.unrank t d a n sc g) s = execUnrank t d a n sc g s := rfl
@[simp] theorem exec_ld (r : BitVec 5) (m : BitVec 3) (sc : BitVec 3) (q : BitVec 2) (i : BitVec 1) (s : State) : exec (.ld r m sc q i) s = execLd r m sc q i s := rfl
@[simp] theorem exec_ldg (r : BitVec 5) (v : BitVec 9) (m : BitVec 3) (sc : BitVec 3) (q : BitVec 2) (i : BitVec 1) (s : State) : exec (.ldg r v m sc q i) s = execLdg r v m sc q i s := rfl
@[simp] theorem exec_st (r : BitVec 5) (v : BitVec 9) (m : BitVec 3) (sc : BitVec 3) (i : BitVec 1) (s : State) : exec (.st r v m sc i) s = execSt r v m sc i s := rfl
@[simp] theorem exec_sts (r : BitVec 5) (v : BitVec 9) (m : BitVec 3) (sc : BitVec 3) (i : BitVec 1) (s : State) : exec (.sts r v m sc i) s = execSts r v m sc i s := rfl
@[simp] theorem exec_ldl (r : BitVec 5) (m : BitVec 3) (q : BitVec 2) (i : BitVec 1) (s : State) : exec (.ldl r m q i) s = execLdl r m q i s := rfl
@[simp] theorem exec_stl (r : BitVec 5) (v : BitVec 9) (m : BitVec 3) (i : BitVec 1) (s : State) : exec (.stl r v m i) s = execStl r v m i s := rfl
@[simp] theorem exec_atom (r : BitVec 5) (v : BitVec 9) (o : BitVec 4) (w : BitVec 1) (sc : BitVec 3) (q : BitVec 3) (s : State) : exec (.atom r v o w sc q) s = execAtom r v o w sc q s := rfl
@[simp] theorem exec_atomg (r : BitVec 5) (v : BitVec 9) (o : BitVec 4) (w : BitVec 1) (sc : BitVec 3) (q : BitVec 3) (s : State) : exec (.atomg r v o w sc q) s = execAtomg r v o w sc q s := rfl
@[simp] theorem exec_fence (k : BitVec 3) (sc : BitVec 3) (s : State) : exec (.fence k sc) s = execFence k sc s := rfl
@[simp] theorem exec_aadd (r : BitVec 5) (i : BitVec 21) (s : State) : exec (.aadd r i) s = execAadd r i s := rfl
@[simp] theorem exec_pref (r : BitVec 5) (sc : BitVec 3) (h : BitVec 3) (i : BitVec 1) (s : State) : exec (.pref r sc h i) s = execPref r sc h i s := rfl
@[simp] theorem exec_scopLd (r : BitVec 5) (q : BitVec 2) (i : BitVec 1) (s : State) : exec (.scopLd r q i) s = execScopLd r q i s := rfl
@[simp] theorem exec_scopSt (r : BitVec 5) (v : BitVec 9) (i : BitVec 1) (s : State) : exec (.scopSt r v i) s = execScopSt r v i s := rfl
@[simp] theorem exec_scopExch (r : BitVec 5) (v : BitVec 9) (q : BitVec 2) (i : BitVec 1) (s : State) : exec (.scopExch r v q i) s = execScopExch r v q i s := rfl
@[simp] theorem exec_scopCas (r : BitVec 5) (v : BitVec 9) (q : BitVec 2) (i : BitVec 1) (s : State) : exec (.scopCas r v q i) s = execScopCas r v q i s := rfl
@[simp] theorem exec_lapadd (r : BitVec 5) (n : BitVec 21) (s : State) : exec (.lapadd r n) s = execLapadd r n s := rfl
@[simp] theorem exec_rpass (r : BitVec 5) (v : BitVec 9) (sc : BitVec 3) (q : BitVec 2) (s : State) : exec (.rpass r v sc q) s = execRpass r v sc q s := rfl
@[simp] theorem exec_rtake (r : BitVec 5) (sc : BitVec 3) (q : BitVec 2) (s : State) : exec (.rtake r sc q) s = execRtake r sc q s := rfl
@[simp] theorem exec_rtakeArm (r : BitVec 5) (s : State) : exec (.rtakeArm r) s = execRtakeArm r s := rfl
@[simp] theorem exec_rtakeStat (r : BitVec 5) (q : BitVec 2) (s : State) : exec (.rtakeStat r q) s = execRtakeStat r q s := rfl
@[simp] theorem exec_txbegin (m : BitVec 3) (s : State) : exec (.txbegin m) s = execTxbegin m s := rfl
@[simp] theorem exec_txbeginSerial (m : BitVec 3) (s : State) : exec (.txbeginSerial m) s = execTxbeginSerial m s := rfl
@[simp] theorem exec_txend (q : BitVec 2) (s : State) : exec (.txend q) s = execTxend q s := rfl
@[simp] theorem exec_txabort (m : BitVec 3) (s : State) : exec (.txabort m) s = execTxabort m s := rfl
@[simp] theorem exec_pcommit (r : BitVec 5) (sc : BitVec 1) (q : BitVec 2) (s : State) : exec (.pcommit r sc q) s = execPcommit r sc q s := rfl
@[simp] theorem exec_prelease (r : BitVec 5) (sc : BitVec 1) (q : BitVec 2) (s : State) : exec (.prelease r sc q) s = execPrelease r sc q s := rfl
@[simp] theorem exec_tlbinv (r : BitVec 5) (v : BitVec 9) (sc : BitVec 2) (q : BitVec 2) (s : State) : exec (.tlbinv r v sc q) s = execTlbinv r v sc q s := rfl
@[simp] theorem exec_tlbinvAll (q : BitVec 2) (s : State) : exec (.tlbinvAll q) s = execTlbinvAll q s := rfl
@[simp] theorem exec_mma (c : BitVec 3) (l : BitVec 2) (h : BitVec 3) (r : BitVec 5) (a : BitVec 3) (b : BitVec 3) (i : BitVec 1) (t : BitVec 1) (k : BitVec 2) (s : State) : exec (.mma c l h r a b i t k) s = execMma c l h r a b i t k s := rfl
@[simp] theorem exec_mmas (c : BitVec 3) (l : BitVec 2) (h : BitVec 3) (r : BitVec 5) (a : BitVec 3) (b : BitVec 3) (i : BitVec 1) (t : BitVec 1) (s : State) : exec (.mmas c l h r a b i t) s = execMmas c l h r a b i t s := rfl
@[simp] theorem exec_mmar (c : BitVec 3) (l : BitVec 2) (h : BitVec 3) (r : BitVec 5) (b : BitVec 3) (i : BitVec 1) (t : BitVec 1) (n : BitVec 1) (s : State) : exec (.mmar c l h r b i t n) s = execMmar c l h r b i t n s := rfl
@[simp] theorem exec_latld (l : BitVec 2) (h : BitVec 3) (r : BitVec 5) (a : BitVec 3) (i : BitVec 1) (s : State) : exec (.latld l h r a i) s = execLatld l h r a i s := rfl
@[simp] theorem exec_latldRank (l : BitVec 2) (h : BitVec 3) (r : BitVec 5) (i : BitVec 1) (n : BitVec 6) (s : State) : exec (.latldRank l h r i n) s = execLatldRank l h r i n s := rfl
@[simp] theorem exec_tzero (c : BitVec 3) (s : State) : exec (.tzero c) s = execTzero c s := rfl
@[simp] theorem exec_tld (c : BitVec 3) (h : BitVec 3) (r : BitVec 5) (s : State) : exec (.tld c h r) s = execTld c h r s := rfl
@[simp] theorem exec_tst (c : BitVec 3) (h : BitVec 3) (r : BitVec 5) (s : State) : exec (.tst c h r) s = execTst c h r s := rfl
@[simp] theorem exec_tadd (c : BitVec 3) (h : BitVec 3) (sc : BitVec 3) (s : State) : exec (.tadd c h sc) s = execTadd c h sc s := rfl
@[simp] theorem exec_tscl (c : BitVec 3) (h : BitVec 3) (n : BitVec 2) (s : State) : exec (.tscl c h n) s = execTscl c h n s := rfl
@[simp] theorem exec_xperm (d : BitVec 5) (a : BitVec 5) (p : BitVec 2) (s : State) : exec (.xperm d a p) s = execXperm d a p s := rfl
@[simp] theorem exec_xshfl (d : BitVec 5) (a : BitVec 5) (p : BitVec 2) (s : State) : exec (.xshfl d a p) s = execXshfl d a p s := rfl
@[simp] theorem exec_xred (d : BitVec 5) (a : BitVec 5) (p : BitVec 2) (s : State) : exec (.xred d a p) s = execXred d a p s := rfl
@[simp] theorem exec_xscan (d : BitVec 5) (a : BitVec 5) (p : BitVec 2) (s : State) : exec (.xscan d a p) s = execXscan d a p s := rfl
@[simp] theorem exec_gvsh (d : BitVec 5) (a : BitVec 5) (p : BitVec 2) (s : State) : exec (.gvsh d a p) s = execGvsh d a p s := rfl
@[simp] theorem exec_gvred (d : BitVec 5) (a : BitVec 5) (p : BitVec 2) (s : State) : exec (.gvred d a p) s = execGvred d a p s := rfl
@[simp] theorem exec_gshuf (d : BitVec 3) (sc : BitVec 3) (m : BitVec 4) (s : State) : exec (.gshuf d sc m) s = execGshuf d sc m s := rfl
@[simp] theorem exec_gred (d : BitVec 3) (sc : BitVec 3) (q : BitVec 4) (s : State) : exec (.gred d sc q) s = execGred d sc q s := rfl
@[simp] theorem exec_gbcst (d : BitVec 3) (sc : BitVec 3) (n : BitVec 4) (s : State) : exec (.gbcst d sc n) s = execGbcst d sc n s := rfl
@[simp] theorem exec_cbld (a : BitVec 5) (t : BitVec 3) (s : State) : exec (.cbld a t) s = execCbld a t s := rfl
@[simp] theorem exec_scld (a : BitVec 5) (t : BitVec 3) (h : BitVec 1) (s : State) : exec (.scld a t h) s = execScld a t h s := rfl
@[simp] theorem exec_atld (a : BitVec 5) (t : BitVec 3) (s : State) : exec (.atld a t) s = execAtld a t s := rfl
@[simp] theorem exec_xpld (a : BitVec 5) (t : BitVec 3) (s : State) : exec (.xpld a t) s = execXpld a t s := rfl
@[simp] theorem exec_stbs (a : BitVec 5) (s : State) : exec (.stbs a) s = execStbs a s := rfl
@[simp] theorem exec_powerGood (s : State) : exec (.powerGood) s = execPowerGood s := rfl
@[simp] theorem exec_powerGoodWithdrawn (s : State) : exec (.powerGoodWithdrawn) s = execPowerGoodWithdrawn s := rfl
@[simp] theorem exec_thermalTrip (s : State) : exec (.thermalTrip) s = execThermalTrip s := rfl
@[simp] theorem exec_patrolScrub (s : State) : exec (.patrolScrub) s = execPatrolScrub s := rfl
@[simp] theorem exec_ufpWrite (s : State) : exec (.ufpWrite) s = execUfpWrite s := rfl
@[simp] theorem exec_ufpRead (s : State) : exec (.ufpRead) s = execUfpRead s := rfl
@[simp] theorem exec_ufpSend (s : State) : exec (.ufpSend) s = execUfpSend s := rfl
@[simp] theorem exec_ufpAtomic (s : State) : exec (.ufpAtomic) s = execUfpAtomic s := rfl
@[simp] theorem exec_ufpSubmit (s : State) : exec (.ufpSubmit) s = execUfpSubmit s := rfl
@[simp] theorem exec_ufpAckSend (s : State) : exec (.ufpAckSend) s = execUfpAckSend s := rfl
@[simp] theorem exec_ufpRetransmitTimeout (s : State) : exec (.ufpRetransmitTimeout) s = execUfpRetransmitTimeout s := rfl
@[simp] theorem exec_firmwareCommit (s : State) : exec (.firmwareCommit) s = execFirmwareCommit s := rfl
@[simp] theorem exec_getCertificate (s : State) : exec (.getCertificate) s = execGetCertificate s := rfl
@[simp] theorem exec_taskAccept (s : State) : exec (.taskAccept) s = execTaskAccept s := rfl
@[simp] theorem exec_taskReady (s : State) : exec (.taskReady) s = execTaskReady s := rfl
@[simp] theorem exec_squadPlace (s : State) : exec (.squadPlace) s = execSquadPlace s := rfl
@[simp] theorem exec_agingExpiry (s : State) : exec (.agingExpiry) s = execAgingExpiry s := rfl
@[simp] theorem exec_preemptionRequest (s : State) : exec (.preemptionRequest) s = execPreemptionRequest s := rfl
@[simp] theorem exec_preemptStop (s : State) : exec (.preemptStop) s = execPreemptStop s := rfl
@[simp] theorem exec_squadResume (s : State) : exec (.squadResume) s = execSquadResume s := rfl
@[simp] theorem exec_gangExitComplete (s : State) : exec (.gangExitComplete) s = execGangExitComplete s := rfl
@[simp] theorem exec_taskComplete (s : State) : exec (.taskComplete) s = execTaskComplete s := rfl
@[simp] theorem exec_autoCommit (s : State) : exec (.autoCommit) s = execAutoCommit s := rfl
@[simp] theorem exec_bundleIssue (s : State) : exec (.bundleIssue) s = execBundleIssue s := rfl
@[simp] theorem exec_batchRelease (s : State) : exec (.batchRelease) s = execBatchRelease s := rfl
@[simp] theorem exec_loadEntryResolve (s : State) : exec (.loadEntryResolve) s = execLoadEntryResolve s := rfl
@[simp] theorem exec_scopPerform (s : State) : exec (.scopPerform) s = execScopPerform s := rfl
@[simp] theorem exec_timingTrap (s : State) : exec (.timingTrap) s = execTimingTrap s := rfl
@[simp] theorem exec_longWaitHalt (s : State) : exec (.longWaitHalt) s = execLongWaitHalt s := rfl
@[simp] theorem exec_faultHalt (s : State) : exec (.faultHalt) s = execFaultHalt s := rfl
@[simp] theorem exec_timerExpiry (s : State) : exec (.timerExpiry) s = execTimerExpiry s := rfl
@[simp] theorem exec_barrierOpen (s : State) : exec (.barrierOpen) s = execBarrierOpen s := rfl
@[simp] theorem exec_waitWake (s : State) : exec (.waitWake) s = execWaitWake s := rfl
@[simp] theorem exec_bwaitWake (s : State) : exec (.bwaitWake) s = execBwaitWake s := rfl
@[simp] theorem exec_gmergeWaitEnd (s : State) : exec (.gmergeWaitEnd) s = execGmergeWaitEnd s := rfl
@[simp] theorem exec_signalDelivery (s : State) : exec (.signalDelivery) s = execSignalDelivery s := rfl
@[simp] theorem exec_arrayOpComplete (s : State) : exec (.arrayOpComplete) s = execArrayOpComplete s := rfl
@[simp] theorem exec_engineOpStart (s : State) : exec (.engineOpStart) s = execEngineOpStart s := rfl
@[simp] theorem exec_copyChunkLand (s : State) : exec (.copyChunkLand) s = execCopyChunkLand s := rfl
@[simp] theorem exec_copyChunkFault (s : State) : exec (.copyChunkFault) s = execCopyChunkFault s := rfl
@[simp] theorem exec_copyComplete (s : State) : exec (.copyComplete) s = execCopyComplete s := rfl
@[simp] theorem exec_walkerBatchPush (s : State) : exec (.walkerBatchPush) s = execWalkerBatchPush s := rfl
@[simp] theorem exec_walkerComplete (s : State) : exec (.walkerComplete) s = execWalkerComplete s := rfl
@[simp] theorem exec_collectiveCommit (s : State) : exec (.collectiveCommit) s = execCollectiveCommit s := rfl
@[simp] theorem exec_collectiveTimeout (s : State) : exec (.collectiveTimeout) s = execCollectiveTimeout s := rfl
@[simp] theorem exec_collectiveMemberComplete (s : State) : exec (.collectiveMemberComplete) s = execCollectiveMemberComplete s := rfl
@[simp] theorem exec_ringWatchEvent (s : State) : exec (.ringWatchEvent) s = execRingWatchEvent s := rfl
@[simp] theorem exec_txCommit (s : State) : exec (.txCommit) s = execTxCommit s := rfl
@[simp] theorem exec_txEntryResolve (s : State) : exec (.txEntryResolve) s = execTxEntryResolve s := rfl
@[simp] theorem exec_serialLockGrant (s : State) : exec (.serialLockGrant) s = execSerialLockGrant s := rfl
@[simp] theorem exec_serialLockRelease (s : State) : exec (.serialLockRelease) s = execSerialLockRelease s := rfl
@[simp] theorem exec_invalidationAck (s : State) : exec (.invalidationAck) s = execInvalidationAck s := rfl
@[simp] theorem exec_frameReturn (s : State) : exec (.frameReturn) s = execFrameReturn s := rfl
@[simp] theorem exec_signalOthers (s : State) : exec (.signalOthers) s = execSignalOthers s := rfl
@[simp] theorem exec_ret (s : State) : exec (.ret) s = execRet s := rfl
@[simp] theorem exec_gjoin (s : State) : exec (.gjoin) s = execGjoin s := rfl
@[simp] theorem exec_gmerge (s : State) : exec (.gmerge) s = execGmerge s := rfl
@[simp] theorem exec_sysExit (s : State) : exec (.sysExit) s = execSysExit s := rfl
@[simp] theorem exec_sysBrk (s : State) : exec (.sysBrk) s = execSysBrk s := rfl
@[simp] theorem exec_qsync (s : State) : exec (.qsync) s = execQsync s := rfl
@[simp] theorem exec_hubFailure (s : State) : exec (.hubFailure) s = execHubFailure s := rfl

/-- A slot instruction issued in a bundle has the meaning that exec gives it. -/
theorem slotExec_eq_exec {i : Instr} {sl : Slot} (s : State) (h : fieldsOk sl i = true) : slotExec i s = exec i s := by
  cases i <;> first | rfl | exact Bool.noConfusion h

end Sys2Proof.Machine
end

