-- ==== Sys2Proof/Laws/Sparse.lean ====
section
/-! SUPPORT. The laws of the sparse stores: reading after writing, other keys, and the canonical form that every write keeps; and from
them the laws of byte memories. -/
namespace Sys2Proof.Machine

variable {α : Type}

theorem kfind_kput_same (l : List (Nat × α)) (k : Nat) (v : α) : kfind (kput l k v) k = some v := by
  induction l with
  | nil => simp [kput, kfind]
  | cons e t ih =>
    obtain ⟨j, w⟩ := e
    simp only [kput]
    split
    · simp [kfind]
    · split
      · simp [kfind]
      · rename_i h₁ h₂
        have : ¬ j = k := fun h => h₂ h.symm
        simp [kfind, this, ih]

theorem kfind_kput_ne (l : List (Nat × α)) {k j : Nat} (v : α) (h : j ≠ k) : kfind (kput l k v) j = kfind l j := by
  induction l with
  | nil =>
    have : ¬ k = j := fun e => h e.symm
    simp [kput, kfind, this]
  | cons e t ih =>
    obtain ⟨i, w⟩ := e
    have hk : ¬ k = j := fun e => h e.symm
    simp only [kput]
    split
    · simp [kfind, hk]
    · split
      · rename_i _ h₂
        subst h₂
        simp [kfind, hk]
      · simp [kfind, ih]

theorem kfind_kdel_ne (l : List (Nat × α)) {k j : Nat} (h : j ≠ k) : kfind (kdel l k) j = kfind l j := by
  induction l with
  | nil => rfl
  | cons e t ih =>
    obtain ⟨i, w⟩ := e
    simp only [kdel]
    split
    · rename_i h₂
      subst h₂
      have : ¬ i = j := fun e => h e.symm
      simp [kfind, this]
    · simp [kfind, ih]

/-- Every key of a list lies above a bound. -/
def keysAbove (b : Nat) (l : List (Nat × α)) : Prop := ∀ e ∈ l, b < e.1

theorem keysRise_cons (e : Nat × α) (t : List (Nat × α)) :
    keysRise (e :: t) = true ↔ keysAbove e.1 t ∧ keysRise t = true := by
  induction t generalizing e with
  | nil => simp [keysRise, keysAbove]
  | cons f t ih =>
    obtain ⟨j, v⟩ := e
    obtain ⟨k, w⟩ := f
    simp only [keysRise, Bool.and_eq_true, decide_eq_true_eq]
    constructor
    · rintro ⟨h, hr⟩
      refine ⟨?_, hr⟩
      intro x hx
      rcases List.mem_cons.1 hx with rfl | hx
      · exact h
      · exact Nat.lt_trans h (((ih (k, w)).1 hr).1 x hx)
    · rintro ⟨ha, hr⟩
      exact ⟨ha (k, w) (List.mem_cons_self ..), hr⟩

theorem kfind_of_above {l : List (Nat × α)} {b k : Nat} (h : keysAbove b l) (hk : k ≤ b) : kfind l k = none := by
  induction l with
  | nil => rfl
  | cons e t ih =>
    obtain ⟨j, v⟩ := e
    have hj : b < j := h (j, v) (List.mem_cons_self ..)
    have : ¬ j = k := by omega
    simp only [kfind, this, if_false]
    exact ih (fun x hx => h x (List.mem_cons_of_mem _ hx))

theorem kfind_kdel_same {l : List (Nat × α)} (k : Nat) (h : keysRise l = true) : kfind (kdel l k) k = none := by
  induction l with
  | nil => rfl
  | cons e t ih =>
    obtain ⟨j, v⟩ := e
    have ⟨ha, hr⟩ := (keysRise_cons (j, v) t).1 h
    simp only [kdel]
    split
    · rename_i h₂
      subst h₂
      exact kfind_of_above ha (Nat.le_refl _)
    · rename_i h₂
      simp only [kfind, h₂, if_false]
      exact ih hr

theorem mem_kput {l : List (Nat × α)} {k : Nat} {v : α} {e : Nat × α} (h : e ∈ kput l k v) : e = (k, v) ∨ e ∈ l := by
  induction l with
  | nil => simpa [kput] using h
  | cons f t ih =>
    obtain ⟨j, w⟩ := f
    simp only [kput] at h
    split at h
    · rcases List.mem_cons.1 h with rfl | h
      · exact .inl rfl
      · exact .inr h
    · split at h
      · rcases List.mem_cons.1 h with rfl | h
        · exact .inl rfl
        · exact .inr (List.mem_cons_of_mem _ h)
      · rcases List.mem_cons.1 h with rfl | h
        · exact .inr (List.mem_cons_self ..)
        · rcases ih h with h | h
          · exact .inl h
          · exact .inr (List.mem_cons_of_mem _ h)

theorem mem_kdel {l : List (Nat × α)} {k : Nat} {e : Nat × α} (h : e ∈ kdel l k) : e ∈ l := by
  induction l with
  | nil => exact h
  | cons f t ih =>
    obtain ⟨j, w⟩ := f
    simp only [kdel] at h
    split at h
    · exact List.mem_cons_of_mem _ h
    · rcases List.mem_cons.1 h with rfl | h
      · exact List.mem_cons_self ..
      · exact List.mem_cons_of_mem _ (ih h)

theorem keysRise_kput {l : List (Nat × α)} (k : Nat) (v : α) (h : keysRise l = true) : keysRise (kput l k v) = true := by
  induction l with
  | nil => rfl
  | cons f t ih =>
    obtain ⟨j, w⟩ := f
    have ⟨ha, hr⟩ := (keysRise_cons (j, w) t).1 h
    simp only [kput]
    split
    · rename_i hlt
      refine (keysRise_cons _ _).2 ⟨?_, h⟩
      intro x hx
      rcases List.mem_cons.1 hx with rfl | hx
      · exact hlt
      · exact Nat.lt_trans hlt (ha x hx)
    · split
      · rename_i _ he
        subst he
        exact (keysRise_cons _ _).2 ⟨ha, hr⟩
      · rename_i h₁ h₂
        refine (keysRise_cons _ _).2 ⟨?_, ih hr⟩
        intro x hx
        rcases mem_kput hx with rfl | hx
        · show j < k
          omega
        · exact ha x hx

theorem keysRise_kdel {l : List (Nat × α)} (k : Nat) (h : keysRise l = true) : keysRise (kdel l k) = true := by
  induction l with
  | nil => rfl
  | cons f t ih =>
    obtain ⟨j, w⟩ := f
    have ⟨ha, hr⟩ := (keysRise_cons (j, w) t).1 h
    simp only [kdel]
    split
    · exact hr
    · exact (keysRise_cons _ _).2 ⟨fun x hx => ha x (mem_kdel hx), ih hr⟩

variable [DecidableEq α]

theorem sparseWf_iff (d : α) (l : List (Nat × α)) : sparseWf d l = true ↔ keysRise l = true ∧ ∀ e ∈ l, e.2 ≠ d := by
  simp [sparseWf, List.all_eq_true]

/-- Every write keeps the canonical form. -/
theorem sput_wf {d : α} {l : List (Nat × α)} (k : Nat) (v : α) (h : sparseWf d l = true) : sparseWf d (sput d l k v) = true := by
  obtain ⟨hr, hn⟩ := (sparseWf_iff d l).1 h
  simp only [sput]
  split
  · exact (sparseWf_iff _ _).2 ⟨keysRise_kdel k hr, fun e he => hn e (mem_kdel he)⟩
  · rename_i hv
    refine (sparseWf_iff _ _).2 ⟨keysRise_kput k v hr, fun e he => ?_⟩
    rcases mem_kput he with rfl | he
    · exact hv
    · exact hn e he

/-- Leaving entries out keeps the canonical form. -/
theorem filter_wf {d : α} {l : List (Nat × α)} (p : Nat × α → Bool) (h : sparseWf d l = true) :
    sparseWf d (l.filter p) = true := by
  obtain ⟨hr, hn⟩ := (sparseWf_iff d l).1 h
  refine (sparseWf_iff _ _).2 ⟨?_, fun e he => hn e ((List.mem_filter.1 he).1)⟩
  clear h hn
  induction l with
  | nil => rfl
  | cons e t ih =>
    have ⟨ha, hr'⟩ := (keysRise_cons e t).1 hr
    simp only [List.filter]
    split
    · exact (keysRise_cons _ _).2 ⟨fun x hx => ha x ((List.mem_filter.1 hx).1), ih hr'⟩
    · exact ih hr'

/-- A read after a write to the same key gives the value written. -/
theorem sget_sput_same {d : α} {l : List (Nat × α)} (k : Nat) (v : α) (h : sparseWf d l = true) :
    sget d (sput d l k v) k = v := by
  simp only [sput, sget]
  split
  · rename_i hv
    rw [kfind_kdel_same k ((sparseWf_iff d l).1 h).1]
    exact hv.symm
  · rw [kfind_kput_same]
    rfl

/-- A write leaves every other key alone. -/
@[simp] theorem sget_sput_ne (d : α) (l : List (Nat × α)) {k j : Nat} (v : α) (h : j ≠ k) :
    sget d (sput d l k v) j = sget d l j := by
  simp only [sput, sget]
  split
  · rw [kfind_kdel_ne l h]
  · rw [kfind_kput_ne l v h]

/-! ## Byte memories -/

theorem nil_wf : Memory.wf [] = true := rfl

/-- Storing bytes keeps the canonical form. -/
theorem storeBytes_wf {m : Bytes} (a : Nat) (bs : List (Option Byte)) (h : Memory.wf m = true) :
    Memory.wf (storeBytes m a bs) = true := by
  induction bs generalizing m a with
  | nil => exact h
  | cons b t ih =>
    cases b with
    | none => exact ih (a + 1) h
    | some v => exact ih (a + 1) (sput_wf a v h)

/-- Bytes outside those stored read as before. -/
theorem storeBytes_frame (m : Bytes) (a : Nat) (bs : List (Option Byte)) {x : Nat} (h : x < a ∨ a + bs.length ≤ x) :
    sget 0 (storeBytes m a bs) x = sget 0 m x := by
  induction bs generalizing m a with
  | nil => rfl
  | cons b t ih =>
    have hl : (b :: t).length = t.length + 1 := rfl
    have hx : x ≠ a := by omega
    have hr : x < a + 1 ∨ a + 1 + t.length ≤ x := by omega
    cases b with
    | none => exact ih m (a + 1) hr
    | some v => exact (ih _ (a + 1) hr).trans (sget_sput_ne 0 m v hx)

/-- A byte stored reads as stored. -/
theorem storeBytes_get {m : Bytes} (a : Nat) (bs : List (Option Byte)) {i : Nat} {v : Byte} (h : Memory.wf m = true)
    (hv : bs[i]? = some (some v)) : sget 0 (storeBytes m a bs) (a + i) = v := by
  induction bs generalizing m a i with
  | nil => simp at hv
  | cons b t ih =>
    cases i with
    | zero =>
      have hb : b = some v := by simpa using hv
      subst hb
      have := storeBytes_frame (sput 0 m a v) (a + 1) t (x := a) (.inl (by omega))
      exact this.trans (sget_sput_same a v h)
    | succ i =>
      have ht : t[i]? = some (some v) := by simpa using hv
      have e : a + (i + 1) = a + 1 + i := by omega
      rw [e]
      cases b with
      | none => exact ih (a + 1) h ht
      | some w => exact ih (a + 1) (sput_wf a w h) ht

end Sys2Proof.Machine
end

