-- ==== Sys2Proof/Laws/State.lean ====
section
/-! SUPPORT. The state's updates, field by field: each named update leaves every field but its own as it was, and its own field is what
the update says. -/
namespace Sys2Proof.Machine

/-! ## The package -/

@[simp] theorem State.modCore_cycle (s : State) (i : Nat) (f : Core → Core) : (s.modCore i f).cycle = s.cycle := rfl
@[simp] theorem State.modCore_free (s : State) (i : Nat) (f : Core → Core) : (s.modCore i f).free = s.free := rfl
@[simp] theorem State.modCore_wbNext (s : State) (i : Nat) (f : Core → Core) : (s.modCore i f).wbNext = s.wbNext := rfl
@[simp] theorem State.modCore_hubLater (s : State) (i : Nat) (f : Core → Core) : (s.modCore i f).hubLater = s.hubLater := rfl
@[simp] theorem State.modCore_ctx (s : State) (i : Nat) (f : Core → Core) : (s.modCore i f).ctx = s.ctx := rfl
@[simp] theorem State.modCore_inputs (s : State) (i : Nat) (f : Core → Core) : (s.modCore i f).inputs = s.inputs := rfl
@[simp] theorem State.modCore_mem (s : State) (i : Nat) (f : Core → Core) : (s.modCore i f).mem = s.mem := rfl
@[simp] theorem State.modCore_poison (s : State) (i : Nat) (f : Core → Core) : (s.modCore i f).poison = s.poison := rfl
@[simp] theorem State.modCore_homeLines (s : State) (i : Nat) (f : Core → Core) : (s.modCore i f).homeLines = s.homeLines := rfl
@[simp] theorem State.modCore_dieCaches (s : State) (i : Nat) (f : Core → Core) : (s.modCore i f).dieCaches = s.dieCaches := rfl
@[simp] theorem State.modCore_transit (s : State) (i : Nat) (f : Core → Core) : (s.modCore i f).transit = s.transit := rfl
@[simp] theorem State.modCore_writeBacks (s : State) (i : Nat) (f : Core → Core) : (s.modCore i f).writeBacks = s.writeBacks := rfl
@[simp] theorem State.modCore_signals (s : State) (i : Nat) (f : Core → Core) : (s.modCore i f).signals = s.signals := rfl
@[simp] theorem State.modCore_stage (s : State) (i : Nat) (f : Core → Core) : (s.modCore i f).stage = s.stage := rfl
@[simp] theorem State.modCore_dieTc (s : State) (i : Nat) (f : Core → Core) : (s.modCore i f).dieTc = s.dieTc := rfl
@[simp] theorem State.modCore_hubTc (s : State) (i : Nat) (f : Core → Core) : (s.modCore i f).hubTc = s.hubTc := rfl
@[simp] theorem State.modCore_contexts (s : State) (i : Nat) (f : Core → Core) : (s.modCore i f).contexts = s.contexts := rfl
@[simp] theorem State.modCore_invs (s : State) (i : Nat) (f : Core → Core) : (s.modCore i f).invs = s.invs := rfl
@[simp] theorem State.modCore_framesBack (s : State) (i : Nat) (f : Core → Core) : (s.modCore i f).framesBack = s.framesBack := rfl
@[simp] theorem State.modCore_rings (s : State) (i : Nat) (f : Core → Core) : (s.modCore i f).rings = s.rings := rfl
@[simp] theorem State.modCore_ringEvents (s : State) (i : Nat) (f : Core → Core) : (s.modCore i f).ringEvents = s.ringEvents := rfl
@[simp] theorem State.modCore_coll (s : State) (i : Nat) (f : Core → Core) : (s.modCore i f).coll = s.coll := rfl
@[simp] theorem State.modCore_peers (s : State) (i : Nat) (f : Core → Core) : (s.modCore i f).peers = s.peers := rfl
@[simp] theorem State.modCore_lock (s : State) (i : Nat) (f : Core → Core) : (s.modCore i f).lock = s.lock := rfl
@[simp] theorem State.modCore_sched (s : State) (i : Nat) (f : Core → Core) : (s.modCore i f).sched = s.sched := rfl
@[simp] theorem State.modCore_hub (s : State) (i : Nat) (f : Core → Core) : (s.modCore i f).hub = s.hub := rfl
@[simp] theorem State.modCore_commits (s : State) (i : Nat) (f : Core → Core) : (s.modCore i f).commits = s.commits := rfl

@[simp] theorem State.modGang_cycle (s : State) (i : Nat) (f : Gang → Gang) : (s.modGang i f).cycle = s.cycle := rfl
@[simp] theorem State.modGang_free (s : State) (i : Nat) (f : Gang → Gang) : (s.modGang i f).free = s.free := rfl
@[simp] theorem State.modGang_wbNext (s : State) (i : Nat) (f : Gang → Gang) : (s.modGang i f).wbNext = s.wbNext := rfl
@[simp] theorem State.modGang_hubLater (s : State) (i : Nat) (f : Gang → Gang) : (s.modGang i f).hubLater = s.hubLater := rfl
@[simp] theorem State.modGang_ctx (s : State) (i : Nat) (f : Gang → Gang) : (s.modGang i f).ctx = s.ctx := rfl
@[simp] theorem State.modGang_inputs (s : State) (i : Nat) (f : Gang → Gang) : (s.modGang i f).inputs = s.inputs := rfl
@[simp] theorem State.modGang_mem (s : State) (i : Nat) (f : Gang → Gang) : (s.modGang i f).mem = s.mem := rfl
@[simp] theorem State.modGang_poison (s : State) (i : Nat) (f : Gang → Gang) : (s.modGang i f).poison = s.poison := rfl
@[simp] theorem State.modGang_homeLines (s : State) (i : Nat) (f : Gang → Gang) : (s.modGang i f).homeLines = s.homeLines := rfl
@[simp] theorem State.modGang_dieCaches (s : State) (i : Nat) (f : Gang → Gang) : (s.modGang i f).dieCaches = s.dieCaches := rfl
@[simp] theorem State.modGang_transit (s : State) (i : Nat) (f : Gang → Gang) : (s.modGang i f).transit = s.transit := rfl
@[simp] theorem State.modGang_writeBacks (s : State) (i : Nat) (f : Gang → Gang) : (s.modGang i f).writeBacks = s.writeBacks := rfl
@[simp] theorem State.modGang_signals (s : State) (i : Nat) (f : Gang → Gang) : (s.modGang i f).signals = s.signals := rfl
@[simp] theorem State.modGang_stage (s : State) (i : Nat) (f : Gang → Gang) : (s.modGang i f).stage = s.stage := rfl
@[simp] theorem State.modGang_dieTc (s : State) (i : Nat) (f : Gang → Gang) : (s.modGang i f).dieTc = s.dieTc := rfl
@[simp] theorem State.modGang_hubTc (s : State) (i : Nat) (f : Gang → Gang) : (s.modGang i f).hubTc = s.hubTc := rfl
@[simp] theorem State.modGang_contexts (s : State) (i : Nat) (f : Gang → Gang) : (s.modGang i f).contexts = s.contexts := rfl
@[simp] theorem State.modGang_invs (s : State) (i : Nat) (f : Gang → Gang) : (s.modGang i f).invs = s.invs := rfl
@[simp] theorem State.modGang_framesBack (s : State) (i : Nat) (f : Gang → Gang) : (s.modGang i f).framesBack = s.framesBack := rfl
@[simp] theorem State.modGang_rings (s : State) (i : Nat) (f : Gang → Gang) : (s.modGang i f).rings = s.rings := rfl
@[simp] theorem State.modGang_ringEvents (s : State) (i : Nat) (f : Gang → Gang) : (s.modGang i f).ringEvents = s.ringEvents := rfl
@[simp] theorem State.modGang_coll (s : State) (i : Nat) (f : Gang → Gang) : (s.modGang i f).coll = s.coll := rfl
@[simp] theorem State.modGang_peers (s : State) (i : Nat) (f : Gang → Gang) : (s.modGang i f).peers = s.peers := rfl
@[simp] theorem State.modGang_lock (s : State) (i : Nat) (f : Gang → Gang) : (s.modGang i f).lock = s.lock := rfl
@[simp] theorem State.modGang_sched (s : State) (i : Nat) (f : Gang → Gang) : (s.modGang i f).sched = s.sched := rfl
@[simp] theorem State.modGang_hub (s : State) (i : Nat) (f : Gang → Gang) : (s.modGang i f).hub = s.hub := rfl
@[simp] theorem State.modGang_commits (s : State) (i : Nat) (f : Gang → Gang) : (s.modGang i f).commits = s.commits := rfl

@[simp] theorem State.putGang_cycle (s : State) (i : Nat) (g : Gang) : (s.putGang i g).cycle = s.cycle := rfl
@[simp] theorem State.putGang_free (s : State) (i : Nat) (g : Gang) : (s.putGang i g).free = s.free := rfl
@[simp] theorem State.putGang_wbNext (s : State) (i : Nat) (g : Gang) : (s.putGang i g).wbNext = s.wbNext := rfl
@[simp] theorem State.putGang_hubLater (s : State) (i : Nat) (g : Gang) : (s.putGang i g).hubLater = s.hubLater := rfl
@[simp] theorem State.putGang_ctx (s : State) (i : Nat) (g : Gang) : (s.putGang i g).ctx = s.ctx := rfl
@[simp] theorem State.putGang_inputs (s : State) (i : Nat) (g : Gang) : (s.putGang i g).inputs = s.inputs := rfl
@[simp] theorem State.putGang_mem (s : State) (i : Nat) (g : Gang) : (s.putGang i g).mem = s.mem := rfl
@[simp] theorem State.putGang_poison (s : State) (i : Nat) (g : Gang) : (s.putGang i g).poison = s.poison := rfl
@[simp] theorem State.putGang_homeLines (s : State) (i : Nat) (g : Gang) : (s.putGang i g).homeLines = s.homeLines := rfl
@[simp] theorem State.putGang_dieCaches (s : State) (i : Nat) (g : Gang) : (s.putGang i g).dieCaches = s.dieCaches := rfl
@[simp] theorem State.putGang_transit (s : State) (i : Nat) (g : Gang) : (s.putGang i g).transit = s.transit := rfl
@[simp] theorem State.putGang_writeBacks (s : State) (i : Nat) (g : Gang) : (s.putGang i g).writeBacks = s.writeBacks := rfl
@[simp] theorem State.putGang_signals (s : State) (i : Nat) (g : Gang) : (s.putGang i g).signals = s.signals := rfl
@[simp] theorem State.putGang_stage (s : State) (i : Nat) (g : Gang) : (s.putGang i g).stage = s.stage := rfl
@[simp] theorem State.putGang_dieTc (s : State) (i : Nat) (g : Gang) : (s.putGang i g).dieTc = s.dieTc := rfl
@[simp] theorem State.putGang_hubTc (s : State) (i : Nat) (g : Gang) : (s.putGang i g).hubTc = s.hubTc := rfl
@[simp] theorem State.putGang_contexts (s : State) (i : Nat) (g : Gang) : (s.putGang i g).contexts = s.contexts := rfl
@[simp] theorem State.putGang_invs (s : State) (i : Nat) (g : Gang) : (s.putGang i g).invs = s.invs := rfl
@[simp] theorem State.putGang_framesBack (s : State) (i : Nat) (g : Gang) : (s.putGang i g).framesBack = s.framesBack := rfl
@[simp] theorem State.putGang_rings (s : State) (i : Nat) (g : Gang) : (s.putGang i g).rings = s.rings := rfl
@[simp] theorem State.putGang_ringEvents (s : State) (i : Nat) (g : Gang) : (s.putGang i g).ringEvents = s.ringEvents := rfl
@[simp] theorem State.putGang_coll (s : State) (i : Nat) (g : Gang) : (s.putGang i g).coll = s.coll := rfl
@[simp] theorem State.putGang_peers (s : State) (i : Nat) (g : Gang) : (s.putGang i g).peers = s.peers := rfl
@[simp] theorem State.putGang_lock (s : State) (i : Nat) (g : Gang) : (s.putGang i g).lock = s.lock := rfl
@[simp] theorem State.putGang_sched (s : State) (i : Nat) (g : Gang) : (s.putGang i g).sched = s.sched := rfl
@[simp] theorem State.putGang_hub (s : State) (i : Nat) (g : Gang) : (s.putGang i g).hub = s.hub := rfl
@[simp] theorem State.putGang_commits (s : State) (i : Nat) (g : Gang) : (s.putGang i g).commits = s.commits := rfl

@[simp] theorem State.setLine_cycle (s : State) (d l : Nat) (c : CacheLine) : (s.setLine d l c).cycle = s.cycle := rfl
@[simp] theorem State.setLine_free (s : State) (d l : Nat) (c : CacheLine) : (s.setLine d l c).free = s.free := rfl
@[simp] theorem State.setLine_wbNext (s : State) (d l : Nat) (c : CacheLine) : (s.setLine d l c).wbNext = s.wbNext := rfl
@[simp] theorem State.setLine_hubLater (s : State) (d l : Nat) (c : CacheLine) : (s.setLine d l c).hubLater = s.hubLater := rfl
@[simp] theorem State.setLine_ctx (s : State) (d l : Nat) (c : CacheLine) : (s.setLine d l c).ctx = s.ctx := rfl
@[simp] theorem State.setLine_inputs (s : State) (d l : Nat) (c : CacheLine) : (s.setLine d l c).inputs = s.inputs := rfl
@[simp] theorem State.setLine_cores (s : State) (d l : Nat) (c : CacheLine) : (s.setLine d l c).cores = s.cores := rfl
@[simp] theorem State.setLine_mem (s : State) (d l : Nat) (c : CacheLine) : (s.setLine d l c).mem = s.mem := rfl
@[simp] theorem State.setLine_poison (s : State) (d l : Nat) (c : CacheLine) : (s.setLine d l c).poison = s.poison := rfl
@[simp] theorem State.setLine_homeLines (s : State) (d l : Nat) (c : CacheLine) : (s.setLine d l c).homeLines = s.homeLines := rfl
@[simp] theorem State.setLine_transit (s : State) (d l : Nat) (c : CacheLine) : (s.setLine d l c).transit = s.transit := rfl
@[simp] theorem State.setLine_writeBacks (s : State) (d l : Nat) (c : CacheLine) : (s.setLine d l c).writeBacks = s.writeBacks := rfl
@[simp] theorem State.setLine_signals (s : State) (d l : Nat) (c : CacheLine) : (s.setLine d l c).signals = s.signals := rfl
@[simp] theorem State.setLine_stage (s : State) (d l : Nat) (c : CacheLine) : (s.setLine d l c).stage = s.stage := rfl
@[simp] theorem State.setLine_dieTc (s : State) (d l : Nat) (c : CacheLine) : (s.setLine d l c).dieTc = s.dieTc := rfl
@[simp] theorem State.setLine_hubTc (s : State) (d l : Nat) (c : CacheLine) : (s.setLine d l c).hubTc = s.hubTc := rfl
@[simp] theorem State.setLine_contexts (s : State) (d l : Nat) (c : CacheLine) : (s.setLine d l c).contexts = s.contexts := rfl
@[simp] theorem State.setLine_invs (s : State) (d l : Nat) (c : CacheLine) : (s.setLine d l c).invs = s.invs := rfl
@[simp] theorem State.setLine_framesBack (s : State) (d l : Nat) (c : CacheLine) : (s.setLine d l c).framesBack = s.framesBack := rfl
@[simp] theorem State.setLine_rings (s : State) (d l : Nat) (c : CacheLine) : (s.setLine d l c).rings = s.rings := rfl
@[simp] theorem State.setLine_ringEvents (s : State) (d l : Nat) (c : CacheLine) : (s.setLine d l c).ringEvents = s.ringEvents := rfl
@[simp] theorem State.setLine_coll (s : State) (d l : Nat) (c : CacheLine) : (s.setLine d l c).coll = s.coll := rfl
@[simp] theorem State.setLine_peers (s : State) (d l : Nat) (c : CacheLine) : (s.setLine d l c).peers = s.peers := rfl
@[simp] theorem State.setLine_lock (s : State) (d l : Nat) (c : CacheLine) : (s.setLine d l c).lock = s.lock := rfl
@[simp] theorem State.setLine_sched (s : State) (d l : Nat) (c : CacheLine) : (s.setLine d l c).sched = s.sched := rfl
@[simp] theorem State.setLine_hub (s : State) (d l : Nat) (c : CacheLine) : (s.setLine d l c).hub = s.hub := rfl
@[simp] theorem State.setLine_commits (s : State) (d l : Nat) (c : CacheLine) : (s.setLine d l c).commits = s.commits := rfl

/-! ## The gang -/

@[simp] theorem Gang.modEng_info (g : Gang) (i : Nat) (f : Engine → Engine) : (g.modEng i f).info = g.info := rfl
@[simp] theorem Gang.modEng_st (g : Gang) (i : Nat) (f : Engine → Engine) : (g.modEng i f).st = g.st := rfl
@[simp] theorem Gang.modEng_code (g : Gang) (i : Nat) (f : Engine → Engine) : (g.modEng i f).code = g.code := rfl
@[simp] theorem Gang.modEng_dict (g : Gang) (i : Nat) (f : Engine → Engine) : (g.modEng i f).dict = g.dict := rfl
@[simp] theorem Gang.modEng_stencil (g : Gang) (i : Nat) (f : Engine → Engine) : (g.modEng i f).stencil = g.stencil := rfl
@[simp] theorem Gang.modEng_live (g : Gang) (i : Nat) (f : Engine → Engine) : (g.modEng i f).live = g.live := rfl
@[simp] theorem Gang.modEng_gangCap (g : Gang) (i : Nat) (f : Engine → Engine) : (g.modEng i f).gangCap = g.gangCap := rfl
@[simp] theorem Gang.modEng_prim (g : Gang) (i : Nat) (f : Engine → Engine) : (g.modEng i f).prim = g.prim := rfl
@[simp] theorem Gang.modEng_spare (g : Gang) (i : Nat) (f : Engine → Engine) : (g.modEng i f).spare = g.spare := rfl
@[simp] theorem Gang.modEng_split (g : Gang) (i : Nat) (f : Engine → Engine) : (g.modEng i f).split = g.split := rfl
@[simp] theorem Gang.modEng_splitTag (g : Gang) (i : Nat) (f : Engine → Engine) : (g.modEng i f).splitTag = g.splitTag := rfl
@[simp] theorem Gang.modEng_splitDepth (g : Gang) (i : Nat) (f : Engine → Engine) : (g.modEng i f).splitDepth = g.splitDepth := rfl
@[simp] theorem Gang.modEng_splitEngines (g : Gang) (i : Nat) (f : Engine → Engine) : (g.modEng i f).splitEngines = g.splitEngines := rfl
@[simp] theorem Gang.modEng_spareLive (g : Gang) (i : Nat) (f : Engine → Engine) : (g.modEng i f).spareLive = g.spareLive := rfl
@[simp] theorem Gang.modEng_ckptP (g : Gang) (i : Nat) (f : Engine → Engine) : (g.modEng i f).ckptP = g.ckptP := rfl
@[simp] theorem Gang.modEng_ckptS (g : Gang) (i : Nat) (f : Engine → Engine) : (g.modEng i f).ckptS = g.ckptS := rfl
@[simp] theorem Gang.modEng_events (g : Gang) (i : Nat) (f : Engine → Engine) : (g.modEng i f).events = g.events := rfl
@[simp] theorem Gang.modEng_freshEvents (g : Gang) (i : Nat) (f : Engine → Engine) : (g.modEng i f).freshEvents = g.freshEvents := rfl
@[simp] theorem Gang.modEng_timer (g : Gang) (i : Nat) (f : Engine → Engine) : (g.modEng i f).timer = g.timer := rfl
@[simp] theorem Gang.modEng_timerDue (g : Gang) (i : Nat) (f : Engine → Engine) : (g.modEng i f).timerDue = g.timerDue := rfl
@[simp] theorem Gang.modEng_lapGate (g : Gang) (i : Nat) (f : Engine → Engine) : (g.modEng i f).lapGate = g.lapGate := rfl
@[simp] theorem Gang.modEng_watchdog (g : Gang) (i : Nat) (f : Engine → Engine) : (g.modEng i f).watchdog = g.watchdog := rfl
@[simp] theorem Gang.modEng_batons (g : Gang) (i : Nat) (f : Engine → Engine) : (g.modEng i f).batons = g.batons := rfl
@[simp] theorem Gang.modEng_badBatons (g : Gang) (i : Nat) (f : Engine → Engine) : (g.modEng i f).badBatons = g.badBatons := rfl
@[simp] theorem Gang.modEng_cp0 (g : Gang) (i : Nat) (f : Engine → Engine) : (g.modEng i f).cp0 = g.cp0 := rfl
@[simp] theorem Gang.modEng_cp1 (g : Gang) (i : Nat) (f : Engine → Engine) : (g.modEng i f).cp1 = g.cp1 := rfl
@[simp] theorem Gang.modEng_cl (g : Gang) (i : Nat) (f : Engine → Engine) : (g.modEng i f).cl = g.cl := rfl
@[simp] theorem Gang.modEng_iwOps (g : Gang) (i : Nat) (f : Engine → Engine) : (g.modEng i f).iwOps = g.iwOps := rfl
@[simp] theorem Gang.modEng_iwNext (g : Gang) (i : Nat) (f : Engine → Engine) : (g.modEng i f).iwNext = g.iwNext := rfl
@[simp] theorem Gang.modEng_xlReason (g : Gang) (i : Nat) (f : Engine → Engine) : (g.modEng i f).xlReason = g.xlReason := rfl
@[simp] theorem Gang.modEng_xlLevel (g : Gang) (i : Nat) (f : Engine → Engine) : (g.modEng i f).xlLevel = g.xlLevel := rfl
@[simp] theorem Gang.modEng_preempts (g : Gang) (i : Nat) (f : Engine → Engine) : (g.modEng i f).preempts = g.preempts := rfl
@[simp] theorem Gang.modEng_preemptReq (g : Gang) (i : Nat) (f : Engine → Engine) : (g.modEng i f).preemptReq = g.preemptReq := rfl
@[simp] theorem Gang.modEng_saveDue (g : Gang) (i : Nat) (f : Engine → Engine) : (g.modEng i f).saveDue = g.saveDue := rfl
@[simp] theorem Gang.modEng_saved (g : Gang) (i : Nat) (f : Engine → Engine) : (g.modEng i f).saved = g.saved := rfl
@[simp] theorem Gang.modEng_selfCancelled (g : Gang) (i : Nat) (f : Engine → Engine) : (g.modEng i f).selfCancelled = g.selfCancelled := rfl
@[simp] theorem Gang.modEng_reported (g : Gang) (i : Nat) (f : Engine → Engine) : (g.modEng i f).reported = g.reported := rfl
@[simp] theorem Gang.modEng_clCount (g : Gang) (i : Nat) (f : Engine → Engine) : (g.modEng i f).clCount = g.clCount := rfl
@[simp] theorem Gang.modEng_ringPend (g : Gang) (i : Nat) (f : Engine → Engine) : (g.modEng i f).ringPend = g.ringPend := rfl
@[simp] theorem Gang.modEng_arrivals (g : Gang) (i : Nat) (f : Engine → Engine) : (g.modEng i f).arrivals = g.arrivals := rfl
@[simp] theorem Gang.modEng_arriveAt (g : Gang) (i : Nat) (f : Engine → Engine) : (g.modEng i f).arriveAt = g.arriveAt := rfl
@[simp] theorem Gang.modEng_raised (g : Gang) (i : Nat) (f : Engine → Engine) : (g.modEng i f).raised = g.raised := rfl
@[simp] theorem Gang.modEng_halt (g : Gang) (i : Nat) (f : Engine → Engine) : (g.modEng i f).halt = g.halt := rfl
@[simp] theorem Gang.modEng_haltSpare (g : Gang) (i : Nat) (f : Engine → Engine) : (g.modEng i f).haltSpare = g.haltSpare := rfl
@[simp] theorem Gang.modEng_copied (g : Gang) (i : Nat) (f : Engine → Engine) : (g.modEng i f).copied = g.copied := rfl
@[simp] theorem Gang.modEng_lockKept (g : Gang) (i : Nat) (f : Engine → Engine) : (g.modEng i f).lockKept = g.lockKept := rfl

@[simp] theorem Gang.mapAct_info (g : Gang) (m : Mask) (f : Nat → Engine → Engine) : (g.mapAct m f).info = g.info := rfl
@[simp] theorem Gang.mapAct_st (g : Gang) (m : Mask) (f : Nat → Engine → Engine) : (g.mapAct m f).st = g.st := rfl
@[simp] theorem Gang.mapAct_code (g : Gang) (m : Mask) (f : Nat → Engine → Engine) : (g.mapAct m f).code = g.code := rfl
@[simp] theorem Gang.mapAct_dict (g : Gang) (m : Mask) (f : Nat → Engine → Engine) : (g.mapAct m f).dict = g.dict := rfl
@[simp] theorem Gang.mapAct_stencil (g : Gang) (m : Mask) (f : Nat → Engine → Engine) : (g.mapAct m f).stencil = g.stencil := rfl
@[simp] theorem Gang.mapAct_live (g : Gang) (m : Mask) (f : Nat → Engine → Engine) : (g.mapAct m f).live = g.live := rfl
@[simp] theorem Gang.mapAct_gangCap (g : Gang) (m : Mask) (f : Nat → Engine → Engine) : (g.mapAct m f).gangCap = g.gangCap := rfl
@[simp] theorem Gang.mapAct_prim (g : Gang) (m : Mask) (f : Nat → Engine → Engine) : (g.mapAct m f).prim = g.prim := rfl
@[simp] theorem Gang.mapAct_spare (g : Gang) (m : Mask) (f : Nat → Engine → Engine) : (g.mapAct m f).spare = g.spare := rfl
@[simp] theorem Gang.mapAct_split (g : Gang) (m : Mask) (f : Nat → Engine → Engine) : (g.mapAct m f).split = g.split := rfl
@[simp] theorem Gang.mapAct_splitTag (g : Gang) (m : Mask) (f : Nat → Engine → Engine) : (g.mapAct m f).splitTag = g.splitTag := rfl
@[simp] theorem Gang.mapAct_splitDepth (g : Gang) (m : Mask) (f : Nat → Engine → Engine) : (g.mapAct m f).splitDepth = g.splitDepth := rfl
@[simp] theorem Gang.mapAct_splitEngines (g : Gang) (m : Mask) (f : Nat → Engine → Engine) : (g.mapAct m f).splitEngines = g.splitEngines := rfl
@[simp] theorem Gang.mapAct_spareLive (g : Gang) (m : Mask) (f : Nat → Engine → Engine) : (g.mapAct m f).spareLive = g.spareLive := rfl
@[simp] theorem Gang.mapAct_ckptP (g : Gang) (m : Mask) (f : Nat → Engine → Engine) : (g.mapAct m f).ckptP = g.ckptP := rfl
@[simp] theorem Gang.mapAct_ckptS (g : Gang) (m : Mask) (f : Nat → Engine → Engine) : (g.mapAct m f).ckptS = g.ckptS := rfl
@[simp] theorem Gang.mapAct_events (g : Gang) (m : Mask) (f : Nat → Engine → Engine) : (g.mapAct m f).events = g.events := rfl
@[simp] theorem Gang.mapAct_freshEvents (g : Gang) (m : Mask) (f : Nat → Engine → Engine) : (g.mapAct m f).freshEvents = g.freshEvents := rfl
@[simp] theorem Gang.mapAct_timer (g : Gang) (m : Mask) (f : Nat → Engine → Engine) : (g.mapAct m f).timer = g.timer := rfl
@[simp] theorem Gang.mapAct_timerDue (g : Gang) (m : Mask) (f : Nat → Engine → Engine) : (g.mapAct m f).timerDue = g.timerDue := rfl
@[simp] theorem Gang.mapAct_lapGate (g : Gang) (m : Mask) (f : Nat → Engine → Engine) : (g.mapAct m f).lapGate = g.lapGate := rfl
@[simp] theorem Gang.mapAct_watchdog (g : Gang) (m : Mask) (f : Nat → Engine → Engine) : (g.mapAct m f).watchdog = g.watchdog := rfl
@[simp] theorem Gang.mapAct_batons (g : Gang) (m : Mask) (f : Nat → Engine → Engine) : (g.mapAct m f).batons = g.batons := rfl
@[simp] theorem Gang.mapAct_badBatons (g : Gang) (m : Mask) (f : Nat → Engine → Engine) : (g.mapAct m f).badBatons = g.badBatons := rfl
@[simp] theorem Gang.mapAct_cp0 (g : Gang) (m : Mask) (f : Nat → Engine → Engine) : (g.mapAct m f).cp0 = g.cp0 := rfl
@[simp] theorem Gang.mapAct_cp1 (g : Gang) (m : Mask) (f : Nat → Engine → Engine) : (g.mapAct m f).cp1 = g.cp1 := rfl
@[simp] theorem Gang.mapAct_cl (g : Gang) (m : Mask) (f : Nat → Engine → Engine) : (g.mapAct m f).cl = g.cl := rfl
@[simp] theorem Gang.mapAct_iwOps (g : Gang) (m : Mask) (f : Nat → Engine → Engine) : (g.mapAct m f).iwOps = g.iwOps := rfl
@[simp] theorem Gang.mapAct_iwNext (g : Gang) (m : Mask) (f : Nat → Engine → Engine) : (g.mapAct m f).iwNext = g.iwNext := rfl
@[simp] theorem Gang.mapAct_xlReason (g : Gang) (m : Mask) (f : Nat → Engine → Engine) : (g.mapAct m f).xlReason = g.xlReason := rfl
@[simp] theorem Gang.mapAct_xlLevel (g : Gang) (m : Mask) (f : Nat → Engine → Engine) : (g.mapAct m f).xlLevel = g.xlLevel := rfl
@[simp] theorem Gang.mapAct_preempts (g : Gang) (m : Mask) (f : Nat → Engine → Engine) : (g.mapAct m f).preempts = g.preempts := rfl
@[simp] theorem Gang.mapAct_preemptReq (g : Gang) (m : Mask) (f : Nat → Engine → Engine) : (g.mapAct m f).preemptReq = g.preemptReq := rfl
@[simp] theorem Gang.mapAct_saveDue (g : Gang) (m : Mask) (f : Nat → Engine → Engine) : (g.mapAct m f).saveDue = g.saveDue := rfl
@[simp] theorem Gang.mapAct_saved (g : Gang) (m : Mask) (f : Nat → Engine → Engine) : (g.mapAct m f).saved = g.saved := rfl
@[simp] theorem Gang.mapAct_selfCancelled (g : Gang) (m : Mask) (f : Nat → Engine → Engine) : (g.mapAct m f).selfCancelled = g.selfCancelled := rfl
@[simp] theorem Gang.mapAct_reported (g : Gang) (m : Mask) (f : Nat → Engine → Engine) : (g.mapAct m f).reported = g.reported := rfl
@[simp] theorem Gang.mapAct_clCount (g : Gang) (m : Mask) (f : Nat → Engine → Engine) : (g.mapAct m f).clCount = g.clCount := rfl
@[simp] theorem Gang.mapAct_ringPend (g : Gang) (m : Mask) (f : Nat → Engine → Engine) : (g.mapAct m f).ringPend = g.ringPend := rfl
@[simp] theorem Gang.mapAct_arrivals (g : Gang) (m : Mask) (f : Nat → Engine → Engine) : (g.mapAct m f).arrivals = g.arrivals := rfl
@[simp] theorem Gang.mapAct_arriveAt (g : Gang) (m : Mask) (f : Nat → Engine → Engine) : (g.mapAct m f).arriveAt = g.arriveAt := rfl
@[simp] theorem Gang.mapAct_raised (g : Gang) (m : Mask) (f : Nat → Engine → Engine) : (g.mapAct m f).raised = g.raised := rfl
@[simp] theorem Gang.mapAct_halt (g : Gang) (m : Mask) (f : Nat → Engine → Engine) : (g.mapAct m f).halt = g.halt := rfl
@[simp] theorem Gang.mapAct_haltSpare (g : Gang) (m : Mask) (f : Nat → Engine → Engine) : (g.mapAct m f).haltSpare = g.haltSpare := rfl
@[simp] theorem Gang.mapAct_copied (g : Gang) (m : Mask) (f : Nat → Engine → Engine) : (g.mapAct m f).copied = g.copied := rfl
@[simp] theorem Gang.mapAct_lockKept (g : Gang) (m : Mask) (f : Nat → Engine → Engine) : (g.mapAct m f).lockKept = g.lockKept := rfl

@[simp] theorem Gang.raise_info (g : Gang) (s : State) (c : GFault) (m : Mask) (d : Nat) (va : Word) : (g.raise s c m d va).info = g.info := rfl
@[simp] theorem Gang.raise_st (g : Gang) (s : State) (c : GFault) (m : Mask) (d : Nat) (va : Word) : (g.raise s c m d va).st = g.st := rfl
@[simp] theorem Gang.raise_code (g : Gang) (s : State) (c : GFault) (m : Mask) (d : Nat) (va : Word) : (g.raise s c m d va).code = g.code := rfl
@[simp] theorem Gang.raise_dict (g : Gang) (s : State) (c : GFault) (m : Mask) (d : Nat) (va : Word) : (g.raise s c m d va).dict = g.dict := rfl
@[simp] theorem Gang.raise_stencil (g : Gang) (s : State) (c : GFault) (m : Mask) (d : Nat) (va : Word) : (g.raise s c m d va).stencil = g.stencil := rfl
@[simp] theorem Gang.raise_live (g : Gang) (s : State) (c : GFault) (m : Mask) (d : Nat) (va : Word) : (g.raise s c m d va).live = g.live := rfl
@[simp] theorem Gang.raise_gangCap (g : Gang) (s : State) (c : GFault) (m : Mask) (d : Nat) (va : Word) : (g.raise s c m d va).gangCap = g.gangCap := rfl
@[simp] theorem Gang.raise_prim (g : Gang) (s : State) (c : GFault) (m : Mask) (d : Nat) (va : Word) : (g.raise s c m d va).prim = g.prim := rfl
@[simp] theorem Gang.raise_spare (g : Gang) (s : State) (c : GFault) (m : Mask) (d : Nat) (va : Word) : (g.raise s c m d va).spare = g.spare := rfl
@[simp] theorem Gang.raise_split (g : Gang) (s : State) (c : GFault) (m : Mask) (d : Nat) (va : Word) : (g.raise s c m d va).split = g.split := rfl
@[simp] theorem Gang.raise_splitTag (g : Gang) (s : State) (c : GFault) (m : Mask) (d : Nat) (va : Word) : (g.raise s c m d va).splitTag = g.splitTag := rfl
@[simp] theorem Gang.raise_splitDepth (g : Gang) (s : State) (c : GFault) (m : Mask) (d : Nat) (va : Word) : (g.raise s c m d va).splitDepth = g.splitDepth := rfl
@[simp] theorem Gang.raise_splitEngines (g : Gang) (s : State) (c : GFault) (m : Mask) (d : Nat) (va : Word) : (g.raise s c m d va).splitEngines = g.splitEngines := rfl
@[simp] theorem Gang.raise_spareLive (g : Gang) (s : State) (c : GFault) (m : Mask) (d : Nat) (va : Word) : (g.raise s c m d va).spareLive = g.spareLive := rfl
@[simp] theorem Gang.raise_engines (g : Gang) (s : State) (c : GFault) (m : Mask) (d : Nat) (va : Word) : (g.raise s c m d va).engines = g.engines := rfl
@[simp] theorem Gang.raise_ckptP (g : Gang) (s : State) (c : GFault) (m : Mask) (d : Nat) (va : Word) : (g.raise s c m d va).ckptP = g.ckptP := rfl
@[simp] theorem Gang.raise_ckptS (g : Gang) (s : State) (c : GFault) (m : Mask) (d : Nat) (va : Word) : (g.raise s c m d va).ckptS = g.ckptS := rfl
@[simp] theorem Gang.raise_events (g : Gang) (s : State) (c : GFault) (m : Mask) (d : Nat) (va : Word) : (g.raise s c m d va).events = g.events := rfl
@[simp] theorem Gang.raise_freshEvents (g : Gang) (s : State) (c : GFault) (m : Mask) (d : Nat) (va : Word) : (g.raise s c m d va).freshEvents = g.freshEvents := rfl
@[simp] theorem Gang.raise_timer (g : Gang) (s : State) (c : GFault) (m : Mask) (d : Nat) (va : Word) : (g.raise s c m d va).timer = g.timer := rfl
@[simp] theorem Gang.raise_timerDue (g : Gang) (s : State) (c : GFault) (m : Mask) (d : Nat) (va : Word) : (g.raise s c m d va).timerDue = g.timerDue := rfl
@[simp] theorem Gang.raise_lapGate (g : Gang) (s : State) (c : GFault) (m : Mask) (d : Nat) (va : Word) : (g.raise s c m d va).lapGate = g.lapGate := rfl
@[simp] theorem Gang.raise_watchdog (g : Gang) (s : State) (c : GFault) (m : Mask) (d : Nat) (va : Word) : (g.raise s c m d va).watchdog = g.watchdog := rfl
@[simp] theorem Gang.raise_batons (g : Gang) (s : State) (c : GFault) (m : Mask) (d : Nat) (va : Word) : (g.raise s c m d va).batons = g.batons := rfl
@[simp] theorem Gang.raise_badBatons (g : Gang) (s : State) (c : GFault) (m : Mask) (d : Nat) (va : Word) : (g.raise s c m d va).badBatons = g.badBatons := rfl
@[simp] theorem Gang.raise_cp0 (g : Gang) (s : State) (c : GFault) (m : Mask) (d : Nat) (va : Word) : (g.raise s c m d va).cp0 = g.cp0 := rfl
@[simp] theorem Gang.raise_cp1 (g : Gang) (s : State) (c : GFault) (m : Mask) (d : Nat) (va : Word) : (g.raise s c m d va).cp1 = g.cp1 := rfl
@[simp] theorem Gang.raise_cl (g : Gang) (s : State) (c : GFault) (m : Mask) (d : Nat) (va : Word) : (g.raise s c m d va).cl = g.cl := rfl
@[simp] theorem Gang.raise_iwOps (g : Gang) (s : State) (c : GFault) (m : Mask) (d : Nat) (va : Word) : (g.raise s c m d va).iwOps = g.iwOps := rfl
@[simp] theorem Gang.raise_iwNext (g : Gang) (s : State) (c : GFault) (m : Mask) (d : Nat) (va : Word) : (g.raise s c m d va).iwNext = g.iwNext := rfl
@[simp] theorem Gang.raise_xlReason (g : Gang) (s : State) (c : GFault) (m : Mask) (d : Nat) (va : Word) : (g.raise s c m d va).xlReason = g.xlReason := rfl
@[simp] theorem Gang.raise_xlLevel (g : Gang) (s : State) (c : GFault) (m : Mask) (d : Nat) (va : Word) : (g.raise s c m d va).xlLevel = g.xlLevel := rfl
@[simp] theorem Gang.raise_preempts (g : Gang) (s : State) (c : GFault) (m : Mask) (d : Nat) (va : Word) : (g.raise s c m d va).preempts = g.preempts := rfl
@[simp] theorem Gang.raise_preemptReq (g : Gang) (s : State) (c : GFault) (m : Mask) (d : Nat) (va : Word) : (g.raise s c m d va).preemptReq = g.preemptReq := rfl
@[simp] theorem Gang.raise_saveDue (g : Gang) (s : State) (c : GFault) (m : Mask) (d : Nat) (va : Word) : (g.raise s c m d va).saveDue = g.saveDue := rfl
@[simp] theorem Gang.raise_saved (g : Gang) (s : State) (c : GFault) (m : Mask) (d : Nat) (va : Word) : (g.raise s c m d va).saved = g.saved := rfl
@[simp] theorem Gang.raise_selfCancelled (g : Gang) (s : State) (c : GFault) (m : Mask) (d : Nat) (va : Word) : (g.raise s c m d va).selfCancelled = g.selfCancelled := rfl
@[simp] theorem Gang.raise_reported (g : Gang) (s : State) (c : GFault) (m : Mask) (d : Nat) (va : Word) : (g.raise s c m d va).reported = g.reported := rfl
@[simp] theorem Gang.raise_clCount (g : Gang) (s : State) (c : GFault) (m : Mask) (d : Nat) (va : Word) : (g.raise s c m d va).clCount = g.clCount := rfl
@[simp] theorem Gang.raise_ringPend (g : Gang) (s : State) (c : GFault) (m : Mask) (d : Nat) (va : Word) : (g.raise s c m d va).ringPend = g.ringPend := rfl
@[simp] theorem Gang.raise_arrivals (g : Gang) (s : State) (c : GFault) (m : Mask) (d : Nat) (va : Word) : (g.raise s c m d va).arrivals = g.arrivals := rfl
@[simp] theorem Gang.raise_arriveAt (g : Gang) (s : State) (c : GFault) (m : Mask) (d : Nat) (va : Word) : (g.raise s c m d va).arriveAt = g.arriveAt := rfl
@[simp] theorem Gang.raise_halt (g : Gang) (s : State) (c : GFault) (m : Mask) (d : Nat) (va : Word) : (g.raise s c m d va).halt = g.halt := rfl
@[simp] theorem Gang.raise_haltSpare (g : Gang) (s : State) (c : GFault) (m : Mask) (d : Nat) (va : Word) : (g.raise s c m d va).haltSpare = g.haltSpare := rfl
@[simp] theorem Gang.raise_copied (g : Gang) (s : State) (c : GFault) (m : Mask) (d : Nat) (va : Word) : (g.raise s c m d va).copied = g.copied := rfl
@[simp] theorem Gang.raise_lockKept (g : Gang) (s : State) (c : GFault) (m : Mask) (d : Nat) (va : Word) : (g.raise s c m d va).lockKept = g.lockKept := rfl

@[simp] theorem Gang.modSeq_info (g : Gang) (sp : Bool) (f : Seq → Seq) : (g.modSeq sp f).info = g.info := by cases sp <;> rfl
@[simp] theorem Gang.modSeq_st (g : Gang) (sp : Bool) (f : Seq → Seq) : (g.modSeq sp f).st = g.st := by cases sp <;> rfl
@[simp] theorem Gang.modSeq_code (g : Gang) (sp : Bool) (f : Seq → Seq) : (g.modSeq sp f).code = g.code := by cases sp <;> rfl
@[simp] theorem Gang.modSeq_dict (g : Gang) (sp : Bool) (f : Seq → Seq) : (g.modSeq sp f).dict = g.dict := by cases sp <;> rfl
@[simp] theorem Gang.modSeq_stencil (g : Gang) (sp : Bool) (f : Seq → Seq) : (g.modSeq sp f).stencil = g.stencil := by cases sp <;> rfl
@[simp] theorem Gang.modSeq_live (g : Gang) (sp : Bool) (f : Seq → Seq) : (g.modSeq sp f).live = g.live := by cases sp <;> rfl
@[simp] theorem Gang.modSeq_gangCap (g : Gang) (sp : Bool) (f : Seq → Seq) : (g.modSeq sp f).gangCap = g.gangCap := by cases sp <;> rfl
@[simp] theorem Gang.modSeq_split (g : Gang) (sp : Bool) (f : Seq → Seq) : (g.modSeq sp f).split = g.split := by cases sp <;> rfl
@[simp] theorem Gang.modSeq_splitTag (g : Gang) (sp : Bool) (f : Seq → Seq) : (g.modSeq sp f).splitTag = g.splitTag := by cases sp <;> rfl
@[simp] theorem Gang.modSeq_splitDepth (g : Gang) (sp : Bool) (f : Seq → Seq) : (g.modSeq sp f).splitDepth = g.splitDepth := by cases sp <;> rfl
@[simp] theorem Gang.modSeq_splitEngines (g : Gang) (sp : Bool) (f : Seq → Seq) : (g.modSeq sp f).splitEngines = g.splitEngines := by cases sp <;> rfl
@[simp] theorem Gang.modSeq_spareLive (g : Gang) (sp : Bool) (f : Seq → Seq) : (g.modSeq sp f).spareLive = g.spareLive := by cases sp <;> rfl
@[simp] theorem Gang.modSeq_engines (g : Gang) (sp : Bool) (f : Seq → Seq) : (g.modSeq sp f).engines = g.engines := by cases sp <;> rfl
@[simp] theorem Gang.modSeq_ckptP (g : Gang) (sp : Bool) (f : Seq → Seq) : (g.modSeq sp f).ckptP = g.ckptP := by cases sp <;> rfl
@[simp] theorem Gang.modSeq_ckptS (g : Gang) (sp : Bool) (f : Seq → Seq) : (g.modSeq sp f).ckptS = g.ckptS := by cases sp <;> rfl
@[simp] theorem Gang.modSeq_events (g : Gang) (sp : Bool) (f : Seq → Seq) : (g.modSeq sp f).events = g.events := by cases sp <;> rfl
@[simp] theorem Gang.modSeq_freshEvents (g : Gang) (sp : Bool) (f : Seq → Seq) : (g.modSeq sp f).freshEvents = g.freshEvents := by cases sp <;> rfl
@[simp] theorem Gang.modSeq_timer (g : Gang) (sp : Bool) (f : Seq → Seq) : (g.modSeq sp f).timer = g.timer := by cases sp <;> rfl
@[simp] theorem Gang.modSeq_timerDue (g : Gang) (sp : Bool) (f : Seq → Seq) : (g.modSeq sp f).timerDue = g.timerDue := by cases sp <;> rfl
@[simp] theorem Gang.modSeq_lapGate (g : Gang) (sp : Bool) (f : Seq → Seq) : (g.modSeq sp f).lapGate = g.lapGate := by cases sp <;> rfl
@[simp] theorem Gang.modSeq_watchdog (g : Gang) (sp : Bool) (f : Seq → Seq) : (g.modSeq sp f).watchdog = g.watchdog := by cases sp <;> rfl
@[simp] theorem Gang.modSeq_batons (g : Gang) (sp : Bool) (f : Seq → Seq) : (g.modSeq sp f).batons = g.batons := by cases sp <;> rfl
@[simp] theorem Gang.modSeq_badBatons (g : Gang) (sp : Bool) (f : Seq → Seq) : (g.modSeq sp f).badBatons = g.badBatons := by cases sp <;> rfl
@[simp] theorem Gang.modSeq_cp0 (g : Gang) (sp : Bool) (f : Seq → Seq) : (g.modSeq sp f).cp0 = g.cp0 := by cases sp <;> rfl
@[simp] theorem Gang.modSeq_cp1 (g : Gang) (sp : Bool) (f : Seq → Seq) : (g.modSeq sp f).cp1 = g.cp1 := by cases sp <;> rfl
@[simp] theorem Gang.modSeq_cl (g : Gang) (sp : Bool) (f : Seq → Seq) : (g.modSeq sp f).cl = g.cl := by cases sp <;> rfl
@[simp] theorem Gang.modSeq_iwOps (g : Gang) (sp : Bool) (f : Seq → Seq) : (g.modSeq sp f).iwOps = g.iwOps := by cases sp <;> rfl
@[simp] theorem Gang.modSeq_iwNext (g : Gang) (sp : Bool) (f : Seq → Seq) : (g.modSeq sp f).iwNext = g.iwNext := by cases sp <;> rfl
@[simp] theorem Gang.modSeq_xlReason (g : Gang) (sp : Bool) (f : Seq → Seq) : (g.modSeq sp f).xlReason = g.xlReason := by cases sp <;> rfl
@[simp] theorem Gang.modSeq_xlLevel (g : Gang) (sp : Bool) (f : Seq → Seq) : (g.modSeq sp f).xlLevel = g.xlLevel := by cases sp <;> rfl
@[simp] theorem Gang.modSeq_preempts (g : Gang) (sp : Bool) (f : Seq → Seq) : (g.modSeq sp f).preempts = g.preempts := by cases sp <;> rfl
@[simp] theorem Gang.modSeq_preemptReq (g : Gang) (sp : Bool) (f : Seq → Seq) : (g.modSeq sp f).preemptReq = g.preemptReq := by cases sp <;> rfl
@[simp] theorem Gang.modSeq_saveDue (g : Gang) (sp : Bool) (f : Seq → Seq) : (g.modSeq sp f).saveDue = g.saveDue := by cases sp <;> rfl
@[simp] theorem Gang.modSeq_saved (g : Gang) (sp : Bool) (f : Seq → Seq) : (g.modSeq sp f).saved = g.saved := by cases sp <;> rfl
@[simp] theorem Gang.modSeq_selfCancelled (g : Gang) (sp : Bool) (f : Seq → Seq) : (g.modSeq sp f).selfCancelled = g.selfCancelled := by cases sp <;> rfl
@[simp] theorem Gang.modSeq_reported (g : Gang) (sp : Bool) (f : Seq → Seq) : (g.modSeq sp f).reported = g.reported := by cases sp <;> rfl
@[simp] theorem Gang.modSeq_clCount (g : Gang) (sp : Bool) (f : Seq → Seq) : (g.modSeq sp f).clCount = g.clCount := by cases sp <;> rfl
@[simp] theorem Gang.modSeq_ringPend (g : Gang) (sp : Bool) (f : Seq → Seq) : (g.modSeq sp f).ringPend = g.ringPend := by cases sp <;> rfl
@[simp] theorem Gang.modSeq_arrivals (g : Gang) (sp : Bool) (f : Seq → Seq) : (g.modSeq sp f).arrivals = g.arrivals := by cases sp <;> rfl
@[simp] theorem Gang.modSeq_arriveAt (g : Gang) (sp : Bool) (f : Seq → Seq) : (g.modSeq sp f).arriveAt = g.arriveAt := by cases sp <;> rfl
@[simp] theorem Gang.modSeq_raised (g : Gang) (sp : Bool) (f : Seq → Seq) : (g.modSeq sp f).raised = g.raised := by cases sp <;> rfl
@[simp] theorem Gang.modSeq_halt (g : Gang) (sp : Bool) (f : Seq → Seq) : (g.modSeq sp f).halt = g.halt := by cases sp <;> rfl
@[simp] theorem Gang.modSeq_haltSpare (g : Gang) (sp : Bool) (f : Seq → Seq) : (g.modSeq sp f).haltSpare = g.haltSpare := by cases sp <;> rfl
@[simp] theorem Gang.modSeq_copied (g : Gang) (sp : Bool) (f : Seq → Seq) : (g.modSeq sp f).copied = g.copied := by cases sp <;> rfl
@[simp] theorem Gang.modSeq_lockKept (g : Gang) (sp : Bool) (f : Seq → Seq) : (g.modSeq sp f).lockKept = g.lockKept := by cases sp <;> rfl

/-! ## Engines and sequencers -/

@[simp] theorem Engine.land_e (en : Engine) (now lat : Nat) (p : EPay) : (en.land now lat p).e = en.e := rfl
@[simp] theorem Engine.land_a (en : Engine) (now lat : Nat) (p : EPay) : (en.land now lat p).a = en.a := rfl
@[simp] theorem Engine.land_st (en : Engine) (now lat : Nat) (p : EPay) : (en.land now lat p).st = en.st := rfl
@[simp] theorem Engine.land_v (en : Engine) (now lat : Nat) (p : EPay) : (en.land now lat p).v = en.v := rfl
@[simp] theorem Engine.land_c (en : Engine) (now lat : Nat) (p : EPay) : (en.land now lat p).c = en.c := rfl
@[simp] theorem Engine.land_l (en : Engine) (now lat : Nat) (p : EPay) : (en.land now lat p).l = en.l := rfl
@[simp] theorem Engine.land_h (en : Engine) (now lat : Nat) (p : EPay) : (en.land now lat p).h = en.h := rfl
@[simp] theorem Engine.land_cb (en : Engine) (now lat : Nat) (p : EPay) : (en.land now lat p).cb = en.cb := rfl
@[simp] theorem Engine.land_sc (en : Engine) (now lat : Nat) (p : EPay) : (en.land now lat p).sc = en.sc := rfl
@[simp] theorem Engine.land_att (en : Engine) (now lat : Nat) (p : EPay) : (en.land now lat p).att = en.att := rfl
@[simp] theorem Engine.land_x (en : Engine) (now lat : Nat) (p : EPay) : (en.land now lat p).x = en.x := rfl
@[simp] theorem Engine.land_sb (en : Engine) (now lat : Nat) (p : EPay) : (en.land now lat p).sb = en.sb := rfl
@[simp] theorem Engine.land_capRows (en : Engine) (now lat : Nat) (p : EPay) : (en.land now lat p).capRows = en.capRows := rfl
@[simp] theorem Engine.land_fpflags (en : Engine) (now lat : Nat) (p : EPay) : (en.land now lat p).fpflags = en.fpflags := rfl
@[simp] theorem Engine.land_rcut (en : Engine) (now lat : Nat) (p : EPay) : (en.land now lat p).rcut = en.rcut := rfl
@[simp] theorem Engine.land_rthr (en : Engine) (now lat : Nat) (p : EPay) : (en.land now lat p).rthr = en.rthr := rfl
@[simp] theorem Engine.land_rfill (en : Engine) (now lat : Nat) (p : EPay) : (en.land now lat p).rfill = en.rfill := rfl
@[simp] theorem Engine.land_bind (en : Engine) (now lat : Nat) (p : EPay) : (en.land now lat p).bind = en.bind := rfl
@[simp] theorem Engine.land_iwShadow (en : Engine) (now lat : Nat) (p : EPay) : (en.land now lat p).iwShadow = en.iwShadow := rfl
@[simp] theorem Engine.land_walks (en : Engine) (now lat : Nat) (p : EPay) : (en.land now lat p).walks = en.walks := rfl
@[simp] theorem Engine.land_q0 (en : Engine) (now lat : Nat) (p : EPay) : (en.land now lat p).q0 = en.q0 := rfl
@[simp] theorem Engine.land_q1 (en : Engine) (now lat : Nat) (p : EPay) : (en.land now lat p).q1 = en.q1 := rfl
@[simp] theorem Engine.land_iq (en : Engine) (now lat : Nat) (p : EPay) : (en.land now lat p).iq = en.iq := rfl
@[simp] theorem Engine.land_sq (en : Engine) (now lat : Nat) (p : EPay) : (en.land now lat p).sq = en.sq := rfl
@[simp] theorem Engine.land_fences (en : Engine) (now lat : Nat) (p : EPay) : (en.land now lat p).fences = en.fences := rfl
@[simp] theorem Engine.land_serial (en : Engine) (now lat : Nat) (p : EPay) : (en.land now lat p).serial = en.serial := rfl
@[simp] theorem Engine.land_regionFrom (en : Engine) (now lat : Nat) (p : EPay) : (en.land now lat p).regionFrom = en.regionFrom := rfl
@[simp] theorem Engine.land_wrote (en : Engine) (now lat : Nat) (p : EPay) : (en.land now lat p).wrote = en.wrote := rfl
@[simp] theorem Engine.land_scopTurn (en : Engine) (now lat : Nat) (p : EPay) : (en.land now lat p).scopTurn = en.scopTurn := rfl
@[simp] theorem Engine.land_xops (en : Engine) (now lat : Nat) (p : EPay) : (en.land now lat p).xops = en.xops := rfl
@[simp] theorem Engine.land_busy (en : Engine) (now lat : Nat) (p : EPay) : (en.land now lat p).busy = en.busy := rfl
@[simp] theorem Engine.land_arrayFree (en : Engine) (now lat : Nat) (p : EPay) : (en.land now lat p).arrayFree = en.arrayFree := rfl
@[simp] theorem Engine.land_portFree (en : Engine) (now lat : Nat) (p : EPay) : (en.land now lat p).portFree = en.portFree := rfl
@[simp] theorem Engine.land_rankFree (en : Engine) (now lat : Nat) (p : EPay) : (en.land now lat p).rankFree = en.rankFree := rfl
@[simp] theorem Engine.land_rankDst (en : Engine) (now lat : Nat) (p : EPay) : (en.land now lat p).rankDst = en.rankDst := rfl
@[simp] theorem Engine.land_scratch (en : Engine) (now lat : Nat) (p : EPay) : (en.land now lat p).scratch = en.scratch := rfl
@[simp] theorem Engine.land_ceil (en : Engine) (now lat : Nat) (p : EPay) : (en.land now lat p).ceil = en.ceil := rfl
@[simp] theorem Engine.land_tx (en : Engine) (now lat : Nat) (p : EPay) : (en.land now lat p).tx = en.tx := rfl
@[simp] theorem Engine.land_occSeen (en : Engine) (now lat : Nat) (p : EPay) : (en.land now lat p).occSeen = en.occSeen := rfl
@[simp] theorem Engine.land_seen (en : Engine) (now lat : Nat) (p : EPay) : (en.land now lat p).seen = en.seen := rfl
@[simp] theorem Engine.land_banks (en : Engine) (now lat : Nat) (p : EPay) : (en.land now lat p).banks = en.banks := rfl
@[simp] theorem Engine.land_poison (en : Engine) (now lat : Nat) (p : EPay) : (en.land now lat p).poison = en.poison := rfl

@[simp] theorem Engine.hold_e (en : Engine) (s : State) (a : Access) : (en.hold s a).e = en.e := rfl
@[simp] theorem Engine.hold_a (en : Engine) (s : State) (a : Access) : (en.hold s a).a = en.a := rfl
@[simp] theorem Engine.hold_st (en : Engine) (s : State) (a : Access) : (en.hold s a).st = en.st := rfl
@[simp] theorem Engine.hold_v (en : Engine) (s : State) (a : Access) : (en.hold s a).v = en.v := rfl
@[simp] theorem Engine.hold_c (en : Engine) (s : State) (a : Access) : (en.hold s a).c = en.c := rfl
@[simp] theorem Engine.hold_l (en : Engine) (s : State) (a : Access) : (en.hold s a).l = en.l := rfl
@[simp] theorem Engine.hold_h (en : Engine) (s : State) (a : Access) : (en.hold s a).h = en.h := rfl
@[simp] theorem Engine.hold_cb (en : Engine) (s : State) (a : Access) : (en.hold s a).cb = en.cb := rfl
@[simp] theorem Engine.hold_sc (en : Engine) (s : State) (a : Access) : (en.hold s a).sc = en.sc := rfl
@[simp] theorem Engine.hold_att (en : Engine) (s : State) (a : Access) : (en.hold s a).att = en.att := rfl
@[simp] theorem Engine.hold_x (en : Engine) (s : State) (a : Access) : (en.hold s a).x = en.x := rfl
@[simp] theorem Engine.hold_sb (en : Engine) (s : State) (a : Access) : (en.hold s a).sb = en.sb := rfl
@[simp] theorem Engine.hold_capRows (en : Engine) (s : State) (a : Access) : (en.hold s a).capRows = en.capRows := rfl
@[simp] theorem Engine.hold_fpflags (en : Engine) (s : State) (a : Access) : (en.hold s a).fpflags = en.fpflags := rfl
@[simp] theorem Engine.hold_rcut (en : Engine) (s : State) (a : Access) : (en.hold s a).rcut = en.rcut := rfl
@[simp] theorem Engine.hold_rthr (en : Engine) (s : State) (a : Access) : (en.hold s a).rthr = en.rthr := rfl
@[simp] theorem Engine.hold_rfill (en : Engine) (s : State) (a : Access) : (en.hold s a).rfill = en.rfill := rfl
@[simp] theorem Engine.hold_bind (en : Engine) (s : State) (a : Access) : (en.hold s a).bind = en.bind := rfl
@[simp] theorem Engine.hold_iwShadow (en : Engine) (s : State) (a : Access) : (en.hold s a).iwShadow = en.iwShadow := rfl
@[simp] theorem Engine.hold_walks (en : Engine) (s : State) (a : Access) : (en.hold s a).walks = en.walks := rfl
@[simp] theorem Engine.hold_q0 (en : Engine) (s : State) (a : Access) : (en.hold s a).q0 = en.q0 := rfl
@[simp] theorem Engine.hold_q1 (en : Engine) (s : State) (a : Access) : (en.hold s a).q1 = en.q1 := rfl
@[simp] theorem Engine.hold_iq (en : Engine) (s : State) (a : Access) : (en.hold s a).iq = en.iq := rfl
@[simp] theorem Engine.hold_fences (en : Engine) (s : State) (a : Access) : (en.hold s a).fences = en.fences := rfl
@[simp] theorem Engine.hold_regionFrom (en : Engine) (s : State) (a : Access) : (en.hold s a).regionFrom = en.regionFrom := rfl
@[simp] theorem Engine.hold_wrote (en : Engine) (s : State) (a : Access) : (en.hold s a).wrote = en.wrote := rfl
@[simp] theorem Engine.hold_scopTurn (en : Engine) (s : State) (a : Access) : (en.hold s a).scopTurn = en.scopTurn := rfl
@[simp] theorem Engine.hold_lands (en : Engine) (s : State) (a : Access) : (en.hold s a).lands = en.lands := rfl
@[simp] theorem Engine.hold_xops (en : Engine) (s : State) (a : Access) : (en.hold s a).xops = en.xops := rfl
@[simp] theorem Engine.hold_busy (en : Engine) (s : State) (a : Access) : (en.hold s a).busy = en.busy := rfl
@[simp] theorem Engine.hold_arrayFree (en : Engine) (s : State) (a : Access) : (en.hold s a).arrayFree = en.arrayFree := rfl
@[simp] theorem Engine.hold_portFree (en : Engine) (s : State) (a : Access) : (en.hold s a).portFree = en.portFree := rfl
@[simp] theorem Engine.hold_rankFree (en : Engine) (s : State) (a : Access) : (en.hold s a).rankFree = en.rankFree := rfl
@[simp] theorem Engine.hold_rankDst (en : Engine) (s : State) (a : Access) : (en.hold s a).rankDst = en.rankDst := rfl
@[simp] theorem Engine.hold_scratch (en : Engine) (s : State) (a : Access) : (en.hold s a).scratch = en.scratch := rfl
@[simp] theorem Engine.hold_ceil (en : Engine) (s : State) (a : Access) : (en.hold s a).ceil = en.ceil := rfl
@[simp] theorem Engine.hold_tx (en : Engine) (s : State) (a : Access) : (en.hold s a).tx = en.tx := rfl
@[simp] theorem Engine.hold_occSeen (en : Engine) (s : State) (a : Access) : (en.hold s a).occSeen = en.occSeen := rfl
@[simp] theorem Engine.hold_seen (en : Engine) (s : State) (a : Access) : (en.hold s a).seen = en.seen := rfl
@[simp] theorem Engine.hold_banks (en : Engine) (s : State) (a : Access) : (en.hold s a).banks = en.banks := rfl
@[simp] theorem Engine.hold_poison (en : Engine) (s : State) (a : Access) : (en.hold s a).poison = en.poison := rfl

@[simp] theorem Engine.place_e (en : Engine) (s : State) (a : Access) (r : Nat) : (en.place s a r).e = en.e := rfl
@[simp] theorem Engine.place_a (en : Engine) (s : State) (a : Access) (r : Nat) : (en.place s a r).a = en.a := rfl
@[simp] theorem Engine.place_st (en : Engine) (s : State) (a : Access) (r : Nat) : (en.place s a r).st = en.st := rfl
@[simp] theorem Engine.place_v (en : Engine) (s : State) (a : Access) (r : Nat) : (en.place s a r).v = en.v := rfl
@[simp] theorem Engine.place_c (en : Engine) (s : State) (a : Access) (r : Nat) : (en.place s a r).c = en.c := rfl
@[simp] theorem Engine.place_l (en : Engine) (s : State) (a : Access) (r : Nat) : (en.place s a r).l = en.l := rfl
@[simp] theorem Engine.place_h (en : Engine) (s : State) (a : Access) (r : Nat) : (en.place s a r).h = en.h := rfl
@[simp] theorem Engine.place_cb (en : Engine) (s : State) (a : Access) (r : Nat) : (en.place s a r).cb = en.cb := rfl
@[simp] theorem Engine.place_sc (en : Engine) (s : State) (a : Access) (r : Nat) : (en.place s a r).sc = en.sc := rfl
@[simp] theorem Engine.place_att (en : Engine) (s : State) (a : Access) (r : Nat) : (en.place s a r).att = en.att := rfl
@[simp] theorem Engine.place_x (en : Engine) (s : State) (a : Access) (r : Nat) : (en.place s a r).x = en.x := rfl
@[simp] theorem Engine.place_sb (en : Engine) (s : State) (a : Access) (r : Nat) : (en.place s a r).sb = en.sb := rfl
@[simp] theorem Engine.place_capRows (en : Engine) (s : State) (a : Access) (r : Nat) : (en.place s a r).capRows = en.capRows := rfl
@[simp] theorem Engine.place_fpflags (en : Engine) (s : State) (a : Access) (r : Nat) : (en.place s a r).fpflags = en.fpflags := rfl
@[simp] theorem Engine.place_rcut (en : Engine) (s : State) (a : Access) (r : Nat) : (en.place s a r).rcut = en.rcut := rfl
@[simp] theorem Engine.place_rthr (en : Engine) (s : State) (a : Access) (r : Nat) : (en.place s a r).rthr = en.rthr := rfl
@[simp] theorem Engine.place_rfill (en : Engine) (s : State) (a : Access) (r : Nat) : (en.place s a r).rfill = en.rfill := rfl
@[simp] theorem Engine.place_bind (en : Engine) (s : State) (a : Access) (r : Nat) : (en.place s a r).bind = en.bind := rfl
@[simp] theorem Engine.place_iwShadow (en : Engine) (s : State) (a : Access) (r : Nat) : (en.place s a r).iwShadow = en.iwShadow := rfl
@[simp] theorem Engine.place_walks (en : Engine) (s : State) (a : Access) (r : Nat) : (en.place s a r).walks = en.walks := rfl
@[simp] theorem Engine.place_q0 (en : Engine) (s : State) (a : Access) (r : Nat) : (en.place s a r).q0 = en.q0 := rfl
@[simp] theorem Engine.place_q1 (en : Engine) (s : State) (a : Access) (r : Nat) : (en.place s a r).q1 = en.q1 := rfl
@[simp] theorem Engine.place_iq (en : Engine) (s : State) (a : Access) (r : Nat) : (en.place s a r).iq = en.iq := rfl
@[simp] theorem Engine.place_fences (en : Engine) (s : State) (a : Access) (r : Nat) : (en.place s a r).fences = en.fences := rfl
@[simp] theorem Engine.place_regionFrom (en : Engine) (s : State) (a : Access) (r : Nat) : (en.place s a r).regionFrom = en.regionFrom := rfl
@[simp] theorem Engine.place_wrote (en : Engine) (s : State) (a : Access) (r : Nat) : (en.place s a r).wrote = en.wrote := rfl
@[simp] theorem Engine.place_scopTurn (en : Engine) (s : State) (a : Access) (r : Nat) : (en.place s a r).scopTurn = en.scopTurn := rfl
@[simp] theorem Engine.place_lands (en : Engine) (s : State) (a : Access) (r : Nat) : (en.place s a r).lands = en.lands := rfl
@[simp] theorem Engine.place_xops (en : Engine) (s : State) (a : Access) (r : Nat) : (en.place s a r).xops = en.xops := rfl
@[simp] theorem Engine.place_busy (en : Engine) (s : State) (a : Access) (r : Nat) : (en.place s a r).busy = en.busy := rfl
@[simp] theorem Engine.place_arrayFree (en : Engine) (s : State) (a : Access) (r : Nat) : (en.place s a r).arrayFree = en.arrayFree := rfl
@[simp] theorem Engine.place_portFree (en : Engine) (s : State) (a : Access) (r : Nat) : (en.place s a r).portFree = en.portFree := rfl
@[simp] theorem Engine.place_rankFree (en : Engine) (s : State) (a : Access) (r : Nat) : (en.place s a r).rankFree = en.rankFree := rfl
@[simp] theorem Engine.place_rankDst (en : Engine) (s : State) (a : Access) (r : Nat) : (en.place s a r).rankDst = en.rankDst := rfl
@[simp] theorem Engine.place_scratch (en : Engine) (s : State) (a : Access) (r : Nat) : (en.place s a r).scratch = en.scratch := rfl
@[simp] theorem Engine.place_ceil (en : Engine) (s : State) (a : Access) (r : Nat) : (en.place s a r).ceil = en.ceil := rfl
@[simp] theorem Engine.place_tx (en : Engine) (s : State) (a : Access) (r : Nat) : (en.place s a r).tx = en.tx := rfl
@[simp] theorem Engine.place_occSeen (en : Engine) (s : State) (a : Access) (r : Nat) : (en.place s a r).occSeen = en.occSeen := rfl
@[simp] theorem Engine.place_seen (en : Engine) (s : State) (a : Access) (r : Nat) : (en.place s a r).seen = en.seen := rfl
@[simp] theorem Engine.place_banks (en : Engine) (s : State) (a : Access) (r : Nat) : (en.place s a r).banks = en.banks := rfl
@[simp] theorem Engine.place_poison (en : Engine) (s : State) (a : Access) (r : Nat) : (en.place s a r).poison = en.poison := rfl

@[simp] theorem Engine.mark_e (en : Engine) (k sc i : Nat) : (en.mark k sc i).e = en.e := rfl
@[simp] theorem Engine.mark_a (en : Engine) (k sc i : Nat) : (en.mark k sc i).a = en.a := rfl
@[simp] theorem Engine.mark_st (en : Engine) (k sc i : Nat) : (en.mark k sc i).st = en.st := rfl
@[simp] theorem Engine.mark_v (en : Engine) (k sc i : Nat) : (en.mark k sc i).v = en.v := rfl
@[simp] theorem Engine.mark_c (en : Engine) (k sc i : Nat) : (en.mark k sc i).c = en.c := rfl
@[simp] theorem Engine.mark_l (en : Engine) (k sc i : Nat) : (en.mark k sc i).l = en.l := rfl
@[simp] theorem Engine.mark_h (en : Engine) (k sc i : Nat) : (en.mark k sc i).h = en.h := rfl
@[simp] theorem Engine.mark_cb (en : Engine) (k sc i : Nat) : (en.mark k sc i).cb = en.cb := rfl
@[simp] theorem Engine.mark_sc (en : Engine) (k sc i : Nat) : (en.mark k sc i).sc = en.sc := rfl
@[simp] theorem Engine.mark_att (en : Engine) (k sc i : Nat) : (en.mark k sc i).att = en.att := rfl
@[simp] theorem Engine.mark_x (en : Engine) (k sc i : Nat) : (en.mark k sc i).x = en.x := rfl
@[simp] theorem Engine.mark_sb (en : Engine) (k sc i : Nat) : (en.mark k sc i).sb = en.sb := rfl
@[simp] theorem Engine.mark_capRows (en : Engine) (k sc i : Nat) : (en.mark k sc i).capRows = en.capRows := rfl
@[simp] theorem Engine.mark_fpflags (en : Engine) (k sc i : Nat) : (en.mark k sc i).fpflags = en.fpflags := rfl
@[simp] theorem Engine.mark_rcut (en : Engine) (k sc i : Nat) : (en.mark k sc i).rcut = en.rcut := rfl
@[simp] theorem Engine.mark_rthr (en : Engine) (k sc i : Nat) : (en.mark k sc i).rthr = en.rthr := rfl
@[simp] theorem Engine.mark_rfill (en : Engine) (k sc i : Nat) : (en.mark k sc i).rfill = en.rfill := rfl
@[simp] theorem Engine.mark_bind (en : Engine) (k sc i : Nat) : (en.mark k sc i).bind = en.bind := rfl
@[simp] theorem Engine.mark_iwShadow (en : Engine) (k sc i : Nat) : (en.mark k sc i).iwShadow = en.iwShadow := rfl
@[simp] theorem Engine.mark_walks (en : Engine) (k sc i : Nat) : (en.mark k sc i).walks = en.walks := rfl
@[simp] theorem Engine.mark_q0 (en : Engine) (k sc i : Nat) : (en.mark k sc i).q0 = en.q0 := rfl
@[simp] theorem Engine.mark_q1 (en : Engine) (k sc i : Nat) : (en.mark k sc i).q1 = en.q1 := rfl
@[simp] theorem Engine.mark_iq (en : Engine) (k sc i : Nat) : (en.mark k sc i).iq = en.iq := rfl
@[simp] theorem Engine.mark_sq (en : Engine) (k sc i : Nat) : (en.mark k sc i).sq = en.sq := rfl
@[simp] theorem Engine.mark_regionFrom (en : Engine) (k sc i : Nat) : (en.mark k sc i).regionFrom = en.regionFrom := rfl
@[simp] theorem Engine.mark_wrote (en : Engine) (k sc i : Nat) : (en.mark k sc i).wrote = en.wrote := rfl
@[simp] theorem Engine.mark_scopTurn (en : Engine) (k sc i : Nat) : (en.mark k sc i).scopTurn = en.scopTurn := rfl
@[simp] theorem Engine.mark_lands (en : Engine) (k sc i : Nat) : (en.mark k sc i).lands = en.lands := rfl
@[simp] theorem Engine.mark_xops (en : Engine) (k sc i : Nat) : (en.mark k sc i).xops = en.xops := rfl
@[simp] theorem Engine.mark_busy (en : Engine) (k sc i : Nat) : (en.mark k sc i).busy = en.busy := rfl
@[simp] theorem Engine.mark_arrayFree (en : Engine) (k sc i : Nat) : (en.mark k sc i).arrayFree = en.arrayFree := rfl
@[simp] theorem Engine.mark_portFree (en : Engine) (k sc i : Nat) : (en.mark k sc i).portFree = en.portFree := rfl
@[simp] theorem Engine.mark_rankFree (en : Engine) (k sc i : Nat) : (en.mark k sc i).rankFree = en.rankFree := rfl
@[simp] theorem Engine.mark_rankDst (en : Engine) (k sc i : Nat) : (en.mark k sc i).rankDst = en.rankDst := rfl
@[simp] theorem Engine.mark_scratch (en : Engine) (k sc i : Nat) : (en.mark k sc i).scratch = en.scratch := rfl
@[simp] theorem Engine.mark_ceil (en : Engine) (k sc i : Nat) : (en.mark k sc i).ceil = en.ceil := rfl
@[simp] theorem Engine.mark_tx (en : Engine) (k sc i : Nat) : (en.mark k sc i).tx = en.tx := rfl
@[simp] theorem Engine.mark_occSeen (en : Engine) (k sc i : Nat) : (en.mark k sc i).occSeen = en.occSeen := rfl
@[simp] theorem Engine.mark_seen (en : Engine) (k sc i : Nat) : (en.mark k sc i).seen = en.seen := rfl
@[simp] theorem Engine.mark_banks (en : Engine) (k sc i : Nat) : (en.mark k sc i).banks = en.banks := rfl
@[simp] theorem Engine.mark_poison (en : Engine) (k sc i : Nat) : (en.mark k sc i).poison = en.poison := rfl

@[simp] theorem Seq.land_pc (q : Seq) (now lat : Nat) (p : SPay) : (q.land now lat p).pc = q.pc := rfl
@[simp] theorem Seq.land_active (q : Seq) (now lat : Nat) (p : SPay) : (q.land now lat p).active = q.active := rfl
@[simp] theorem Seq.land_s (q : Seq) (now lat : Nat) (p : SPay) : (q.land now lat p).s = q.s := rfl
@[simp] theorem Seq.land_g (q : Seq) (now lat : Nat) (p : SPay) : (q.land now lat p).g = q.g := rfl
@[simp] theorem Seq.land_stack (q : Seq) (now lat : Nat) (p : SPay) : (q.land now lat p).stack = q.stack := rfl
@[simp] theorem Seq.land_resident (q : Seq) (now lat : Nat) (p : SPay) : (q.land now lat p).resident = q.resident := rfl
@[simp] theorem Seq.land_spilled (q : Seq) (now lat : Nat) (p : SPay) : (q.land now lat p).spilled = q.spilled := rfl
@[simp] theorem Seq.land_callDepth (q : Seq) (now lat : Nat) (p : SPay) : (q.land now lat p).callDepth = q.callDepth := rfl
@[simp] theorem Seq.land_loop (q : Seq) (now lat : Nat) (p : SPay) : (q.land now lat p).loop = q.loop := rfl
@[simp] theorem Seq.land_ctl (q : Seq) (now lat : Nat) (p : SPay) : (q.land now lat p).ctl = q.ctl := rfl
@[simp] theorem Seq.land_base (q : Seq) (now lat : Nat) (p : SPay) : (q.land now lat p).base = q.base := rfl
@[simp] theorem Seq.land_tried (q : Seq) (now lat : Nat) (p : SPay) : (q.land now lat p).tried = q.tried := rfl
@[simp] theorem Seq.land_wait (q : Seq) (now lat : Nat) (p : SPay) : (q.land now lat p).wait = q.wait := rfl
@[simp] theorem Seq.land_rppc (q : Seq) (now lat : Nat) (p : SPay) : (q.land now lat p).rppc = q.rppc := rfl
@[simp] theorem Seq.land_traps (q : Seq) (now lat : Nat) (p : SPay) : (q.land now lat p).traps = q.traps := rfl
@[simp] theorem Seq.land_immediate (q : Seq) (now lat : Nat) (p : SPay) : (q.land now lat p).immediate = q.immediate := rfl
@[simp] theorem Seq.land_reissue (q : Seq) (now lat : Nat) (p : SPay) : (q.land now lat p).reissue = q.reissue := rfl
@[simp] theorem Seq.land_arrived (q : Seq) (now lat : Nat) (p : SPay) : (q.land now lat p).arrived = q.arrived := rfl
@[simp] theorem Seq.land_bound (q : Seq) (now lat : Nat) (p : SPay) : (q.land now lat p).bound = q.bound := rfl
@[simp] theorem Seq.land_stopped (q : Seq) (now lat : Nat) (p : SPay) : (q.land now lat p).stopped = q.stopped := rfl
@[simp] theorem Seq.land_perf (q : Seq) (now lat : Nat) (p : SPay) : (q.land now lat p).perf = q.perf := rfl
@[simp] theorem Seq.land_batch (q : Seq) (now lat : Nat) (p : SPay) : (q.land now lat p).batch = q.batch := rfl
@[simp] theorem Seq.land_status (q : Seq) (now lat : Nat) (p : SPay) : (q.land now lat p).status = q.status := rfl
@[simp] theorem Seq.land_eccLate (q : Seq) (now lat : Nat) (p : SPay) : (q.land now lat p).eccLate = q.eccLate := rfl

@[simp] theorem Engine.land_lands (en : Engine) (now lat : Nat) (p : EPay) : (en.land now lat p).lands = en.lands ++ [⟨now, now + lat, p⟩] := rfl
@[simp] theorem Seq.land_lands (q : Seq) (now lat : Nat) (p : SPay) : (q.land now lat p).lands = q.lands ++ [⟨now, now + lat, p⟩] := rfl
@[simp] theorem Gang.modSeq_prim (g : Gang) (f : Seq → Seq) : (g.modSeq false f).prim = f g.prim := rfl
@[simp] theorem Gang.modSeq_spare (g : Gang) (f : Seq → Seq) : (g.modSeq true f).spare = f g.spare := rfl

end Sys2Proof.Machine
end

