-- ==== Sys2Proof/Laws/Ops.lean ====
section
/-! SUPPORT. The laws of the shared operations: what reaching into cores, gangs and engines finds after a change, and for each slot frame
the one statement of everything it can do. -/
namespace Sys2Proof.Machine

/-! ## Lists by index -/

@[simp] theorem length_modAt {α : Type} (l : List α) (i : Nat) (f : α → α) : (modAt l i f).length = l.length := by
  induction l generalizing i with
  | nil => cases i <;> rfl
  | cons a t ih => cases i with
    | zero => rfl
    | succ i => simp [modAt, ih]

theorem getD_modAt_same {α : Type} (l : List α) (i : Nat) (f : α → α) (d : α) (h : i < l.length) :
    (modAt l i f).getD i d = f (l.getD i d) := by
  induction l generalizing i with
  | nil => simp at h
  | cons a t ih => cases i with
    | zero => rfl
    | succ i =>
      have := ih i (by simpa using h)
      simpa [modAt] using this

theorem getD_modAt_ne {α : Type} (l : List α) {i j : Nat} (f : α → α) (d : α) (h : j ≠ i) :
    (modAt l i f).getD j d = l.getD j d := by
  induction l generalizing i j with
  | nil => cases i <;> rfl
  | cons a t ih => cases i with
    | zero => cases j with
      | zero => exact absurd rfl h
      | succ j => rfl
    | succ i => cases j with
      | zero => rfl
      | succ j =>
        have := ih (i := i) (j := j) (fun e => h (by rw [e]))
        simpa [modAt] using this

/-! ## Gangs -/

theorem core_lt_of_gang {s : State} {i : Nat} {g : Gang} (h : s.gang i = some g) : i < s.cores.length := by
  rcases Nat.lt_or_ge i s.cores.length with hi | hi
  · exact hi
  · have : s.core i = {} := by simp [State.core, List.getD, List.getElem?_eq_none hi]
    simp [State.gang, this] at h

theorem gang_putGang_same {s : State} {i : Nat} {g : Gang} (h : s.gang i = some g) (g' : Gang) :
    (s.putGang i g').gang i = some g' := by
  simp only [State.gang, State.core, State.putGang, State.modCore]
  rw [getD_modAt_same _ _ _ _ (core_lt_of_gang h)]

@[simp] theorem gang_putGang_ne (s : State) {i j : Nat} (g : Gang) (h : j ≠ i) : (s.putGang i g).gang j = s.gang j := by
  simp only [State.gang, State.core, State.putGang, State.modCore]
  rw [getD_modAt_ne _ _ _ h]

theorem gang_modGang_same {s : State} {i : Nat} {g : Gang} (h : s.gang i = some g) (f : Gang → Gang) :
    (s.modGang i f).gang i = some (f g) := by
  have hi := core_lt_of_gang h
  simp only [State.gang, State.core, State.modGang, State.modCore] at h ⊢
  rw [getD_modAt_same _ _ _ _ hi]
  show Option.map f (s.cores.getD i {}).gang = _
  rw [h]
  rfl

@[simp] theorem gang_modGang_ne (s : State) {i j : Nat} (f : Gang → Gang) (h : j ≠ i) : (s.modGang i f).gang j = s.gang j := by
  simp only [State.gang, State.core, State.modGang, State.modCore]
  rw [getD_modAt_ne _ _ _ h]

/-- The frame of a slot meaning: it answers a next state exactly where a gang is resident, and changes that gang alone. -/
theorem slotGang_next {s t : State} {f : Gang → Gang} :
    slotGang s f = .next t ↔ ∃ g, s.gang s.ctx.core = some g ∧ t = s.putGang s.ctx.core (f g) := by
  simp only [slotGang]
  cases h : s.gang s.ctx.core with
  | none => simp
  | some g =>
    constructor
    · intro e
      injection e with e
      exact ⟨g, rfl, e.symm⟩
    · rintro ⟨g', hg, rfl⟩
      injection hg with hg
      rw [hg]

@[simp] theorem slotGang_of_gang {s : State} {g : Gang} (f : Gang → Gang) (h : s.gang s.ctx.core = some g) :
    slotGang s f = .next (s.putGang s.ctx.core (f g)) := slotGang_next.2 ⟨g, h, rfl⟩

@[simp] theorem slotState_of_gang {s : State} {g : Gang} (f : Gang → State) (h : s.gang s.ctx.core = some g) :
    slotState s f = .next (f g) := by
  simp [slotState, h]

/-- A slot meaning leaves all of the package but the cores as it was. -/
theorem slotGang_keeps {s t : State} {f : Gang → Gang} (h : slotGang s f = .next t) :
    t.mem = s.mem ∧ t.dieCaches = s.dieCaches ∧ t.poison = s.poison ∧ t.cycle = s.cycle ∧ t.sched = s.sched ∧ t.hub = s.hub ∧
      ∀ j, j ≠ s.ctx.core → t.gang j = s.gang j := by
  obtain ⟨g, _, rfl⟩ := slotGang_next.1 h
  exact ⟨rfl, rfl, rfl, rfl, rfl, rfl, fun j hj => gang_putGang_ne s _ hj⟩

/-! ## Engines -/

theorem length_mapEngs (m : Mask) (l : List Engine) (i : Nat) (f : Nat → Engine → Engine) :
    (mapEngs m i l f).length = l.length := by
  induction l generalizing i with
  | nil => rfl
  | cons a t ih => simp [mapEngs, ih]

theorem getD_mapEngs (m : Mask) (l : List Engine) (i k : Nat) (f : Nat → Engine → Engine) (h : k < l.length) :
    (mapEngs m i l f).getD k {} = if inMask m (i + k) then f (i + k) (l.getD k {}) else l.getD k {} := by
  induction l generalizing i k with
  | nil => simp at h
  | cons a t ih => cases k with
    | zero => simp [mapEngs]
    | succ k =>
      have := ih (i + 1) k (by simpa using h)
      have e : i + 1 + k = i + (k + 1) := by omega
      rw [e] at this
      simpa [mapEngs] using this

/-- Engine k after a change of the engines of a set. -/
theorem eng_mapAct {g : Gang} {k : Nat} (m : Mask) (f : Nat → Engine → Engine) (h : k < g.engines.length) :
    (g.mapAct m f).eng k = if inMask m k then f k (g.eng k) else g.eng k := by
  have := getD_mapEngs m g.engines 0 k f h
  simpa [Gang.eng, Gang.mapAct] using this

/-! ## The ALU's frame -/

/-- Under E = 0 the value lands in the issuing sequencer, lat cycles on; s0 discards it. -/
theorem aluOp_uniform {s : State} {g : Gang} (d : BitVec 6) (lat : Nat) (op : (BitVec 6 → Word) → Word)
    (h : s.gang s.ctx.core = some g) :
    aluOp s 0 d lat op = .next (s.putGang s.ctx.core (g.writeS s lat d.toNat (op (fun f => readS s (g.me s) f.toNat)))) := by
  simp [aluOp, slotGang_of_gang _ h]

/-- Under E = 1 it lands in each active engine. -/
theorem aluOp_engines {s : State} {g : Gang} (d : BitVec 6) (lat : Nat) (op : (BitVec 6 → Word) → Word)
    (h : s.gang s.ctx.core = some g) :
    aluOp s 1 d lat op = .next (s.putGang s.ctx.core (g.mapAct s.act (fun k en =>
      en.writeE s.cycle lat d.toNat (op (fun f => readField s g k en f.toNat))))) := by
  simp [aluOp, slotGang_of_gang _ h]

/-! ## The V slot's frame -/

/-- A V-slot meaning whose queue codes raise nothing computes in each active engine and pops its sources. -/
theorem vSlot_of_gang {s : State} {g : Gang} (w : BitVec 2) (m : BitVec 3) (codes : List Nat) (f : Gang → Nat → Engine → Engine)
    (h : s.gang s.ctx.core = some g) (hp : (g.raisePops s w m codes).raised.length = g.raised.length) :
    vSlot s w m codes f = .next (s.putGang s.ctx.core (g.mapAct s.act (fun k en => (f g k en).pops s.cycle codes))) := by
  simp [vSlot, slotGang_of_gang _ h, hp]

/-! ## The M slot's frame -/

/-- An M-slot meaning that has room in its queue in every active engine acts in each of them. -/
theorem mSlot_of_gang {s : State} {g : Gang} (q n : Nat) (f : Gang → Nat → Engine → Engine) (h : s.gang s.ctx.core = some g)
    (hr : ∀ k ∈ maskList s.act, (g.eng k).room q n = true) :
    mSlot s q n f = .next (s.putGang s.ctx.core (g.mapAct s.act (fun k en => f g k en))) := by
  have : (maskList s.act).filter (fun k => !(g.eng k).room q n) = [] := by
    rw [List.filter_eq_nil_iff]
    intro k hk
    simp [hr k hk]
  simp only [mSlot, mSlotThen, slotGang_of_gang _ h, this, if_true]

/-! ## Memory operations keep the canonical form -/

theorem dropClean_mem (s : State) (d l : Nat) : (s.dropClean d l).mem = s.mem := rfl

theorem homeTouch_mem (s : State) (l : Nat) : (s.homeTouch l).mem = s.mem := by
  simp only [State.homeTouch]
  split <;> rfl

theorem foldl_dropClean_mem (s : State) (l : Nat) (ds : List Nat) :
    (ds.foldl (fun s d => s.dropClean d l) s).mem = s.mem := by
  induction ds generalizing s with
  | nil => rfl
  | cons d t ih => exact ih (s.dropClean d l)

theorem writeBackLine_wf {s : State} (d l : Nat) (h : Memory.wf s.mem = true) : Memory.wf (s.writeBackLine d l).mem = true := by
  have hf : ∀ (ds : List Nat) (s : State), (ds.foldl (fun s e => if e = d then s else s.dropClean e l) s).mem = s.mem := by
    intro ds
    induction ds with
    | nil => exact fun _ => rfl
    | cons e t ih =>
      intro s
      refine (ih _).trans ?_
      by_cases he : e = d
      · simp only [he, if_true]
      · simp only [he, if_false, dropClean_mem]
  simp only [State.writeBackLine]
  split
  · exact h
  · refine storeBytes_wf _ _ ?_
    rw [hf]
    exact h

theorem foldl_homeLines_mem (ds ls : List Nat) (s : State) :
    (ls.foldl (fun s l => ds.foldl (fun s d => s.dropClean d l) (s.homeTouch l)) s).mem = s.mem := by
  induction ls generalizing s with
  | nil => rfl
  | cons l t ih =>
    rw [List.foldl_cons, ih, foldl_dropClean_mem, homeTouch_mem]

theorem homeStores_wf {s : State} (pa : Nat) (bs : List (Option Byte)) (h : Memory.wf s.mem = true) :
    Memory.wf (s.homeStores pa bs).mem = true := by
  unfold State.homeStores
  refine storeBytes_wf _ _ ?_
  rw [foldl_homeLines_mem]
  exact h

theorem recall_wf {s : State} (l : Nat) (h : Memory.wf s.mem = true) : Memory.wf (s.recall l).mem = true := by
  have hf : ∀ (ds : List Nat) (s : State), Memory.wf s.mem = true →
      Memory.wf (ds.foldl (fun s d => (s.writeBackLine d l).dropLine d l) s).mem = true := by
    intro ds
    induction ds with
    | nil => exact fun _ h => h
    | cons d t ih => exact fun s h => ih _ (writeBackLine_wf d l h)
  exact hf _ s h

theorem makeRoom_wf {s : State} (d l : Nat) (h : Memory.wf s.mem = true) : Memory.wf (s.makeRoom d l).mem = true := by
  simp only [State.makeRoom]
  split
  · exact h
  · split
    · exact writeBackLine_wf d _ h
    · exact h

/-- Bringing a line in keeps memory in form: a full cache may write another line back. -/
theorem fill_wf {s : State} (d l : Nat) (h : Memory.wf s.mem = true) : Memory.wf (s.fill d l).mem = true := by
  simp only [State.fill]
  split
  · exact h
  · rw [homeTouch_mem]
    exact makeRoom_wf d l h

theorem dieStores_wf {s : State} (d pa : Nat) (bs : List (Option Byte)) (h : Memory.wf s.mem = true) :
    Memory.wf (s.dieStores d pa bs).mem = true := by
  induction bs generalizing s pa with
  | nil => exact h
  | cons b t ih =>
    cases b with
    | none => exact ih (pa + 1) h
    | some v => exact ih (pa + 1) (makeRoom_wf d _ h)

theorem reset_mem_wf : Memory.wf State.reset.mem = true := rfl

end Sys2Proof.Machine
end

