-- ==== Sys2Proof/Safety.lean ====
section
/-! DEFINITION. What a run may rely on: the invariant that every step keeps, and the runs of the machine that stop on nothing. -/
namespace Sys2Proof.Machine

/-- The memory at the home slices is in its canonical form. -/
def State.MemOk (s : State) : Prop := Memory.wf s.mem = true

/-- A run of k steps answers a next state each time. -/
def Runs : Nat → State → State → Prop
  | 0, s, t => s = t
  | k + 1, s, t => ∃ u, step s = .next u ∧ Runs k u t

end Sys2Proof.Machine
end

