-- ==== Sys2Proof/Certificates/Slice0/Obligations.lean ====
section
/-! DEFINITION. The statements for the provers, and the words they share. -/

namespace Sys2Proof.Claims
open Sys2Proof.Machine

/-! ## Words the statements share -/

/-- exec answers the state in which the gang on the core in hand has become g', and nothing else has changed. -/
def Becomes (i : Instr) (s : State) (g' : Gang) : Prop := exec i s = .next (s.putGang s.ctx.core g')

/-- The gang on the core in hand. -/
def Here (s : State) (g : Gang) : Prop := s.gang s.ctx.core = some g

/-- A two's complement word. -/
def wrap (z : Int) : Word := BitVec.ofInt 64 z

/-- The leading bits of a word up to the first that is set. -/
def zerosFrom (bit : Nat → Bool) : Nat := ((List.range 64).takeWhile (fun i => !bit i)).length

/-- A field of a word read as a signed number of len bits. -/
def signedField (n len : Nat) : Int := if n.testBit (len - 1) then (n : Int) - 2 ^ len else n

/-- R133 and R134 in whole-number arithmetic: for an ALU instruction its E bit, destination, latency and result as a function of its
register sources. -/
def aluRow (i : Instr) : Option (BitVec 1 × BitVec 6 × Nat × ((BitVec 6 → Word) → Word)) :=
  match i with
  | .addSr e d a b => some (e, d, 1, fun r => wrap ((r a).toInt + (r b).toInt))
  | .addSi e d a i => some (e, d, 1, fun r => wrap ((r a).toInt + i.toInt))
  | .subSr e d a b => some (e, d, 1, fun r => wrap ((r a).toInt - (r b).toInt))
  | .subSi e d a i => some (e, d, 1, fun r => wrap ((r a).toInt - i.toInt))
  | .mulSr e d a b => some (e, d, 3, fun r => wrap ((r a).toInt * (r b).toInt))
  | .mulSi e d a i => some (e, d, 3, fun r => wrap ((r a).toInt * i.toInt))
  | .mulhSr e d a b u => some (e, d, 3, fun r =>
      if u = 1 then BitVec.ofNat 64 ((r a).toNat * (r b).toNat / 2 ^ 64) else wrap ((r a).toInt * (r b).toInt / 2 ^ 64))
  | .mulhSi e d a i => some (e, d, 3, fun r => wrap ((r a).toInt * i.toInt / 2 ^ 64))
  | .divSr e d a b u => some (e, d, 20, fun r =>
      if r b = 0 then BitVec.allOnes 64
      else if u = 1 then BitVec.ofNat 64 ((r a).toNat / (r b).toNat) else wrap ((r a).toInt.tdiv (r b).toInt))
  | .divSi e d a i => some (e, d, 20, fun r =>
      if i = 0 then BitVec.allOnes 64 else wrap ((r a).toInt.tdiv i.toInt))
  | .remSr e d a b u => some (e, d, 20, fun r =>
      if r b = 0 then r a
      else if u = 1 then BitVec.ofNat 64 ((r a).toNat % (r b).toNat) else wrap ((r a).toInt.tmod (r b).toInt))
  | .remSi e d a i => some (e, d, 20, fun r => if i = 0 then r a else wrap ((r a).toInt.tmod i.toInt))
  | .andSr e d a b => some (e, d, 1, fun r => r a &&& r b)
  | .andSi e d a i => some (e, d, 1, fun r => r a &&& wrap i.toInt)
  | .orSr e d a b => some (e, d, 1, fun r => r a ||| r b)
  | .orSi e d a i => some (e, d, 1, fun r => r a ||| wrap i.toInt)
  | .xorSr e d a b => some (e, d, 1, fun r => r a ^^^ r b)
  | .xorSi e d a i => some (e, d, 1, fun r => r a ^^^ wrap i.toInt)
  | .andnSr e d a b => some (e, d, 1, fun r => r a &&& ~~~ r b)
  | .andnSi e d a i => some (e, d, 1, fun r => r a &&& ~~~ wrap i.toInt)
  | .shlSr e d a b => some (e, d, 1, fun r => BitVec.ofNat 64 ((r a).toNat * 2 ^ ((r b).toNat % 64)))
  | .shlSi e d a i => some (e, d, 1, fun r => BitVec.ofNat 64 ((r a).toNat * 2 ^ (i.toNat % 64)))
  | .shrSr e d a b => some (e, d, 1, fun r => BitVec.ofNat 64 ((r a).toNat / 2 ^ ((r b).toNat % 64)))
  | .shrSi e d a i => some (e, d, 1, fun r => BitVec.ofNat 64 ((r a).toNat / 2 ^ (i.toNat % 64)))
  | .sraSr e d a b => some (e, d, 1, fun r => wrap ((r a).toInt / 2 ^ ((r b).toNat % 64)))
  | .sraSi e d a i => some (e, d, 1, fun r => wrap ((r a).toInt / 2 ^ (i.toNat % 64)))
  | .rolSr e d a b => some (e, d, 1, fun r =>
      BitVec.ofNat 64 ((r a).toNat * 2 ^ ((r b).toNat % 64) + (r a).toNat / 2 ^ (64 - (r b).toNat % 64)))
  | .rolSi e d a i => some (e, d, 1, fun r =>
      BitVec.ofNat 64 ((r a).toNat * 2 ^ (i.toNat % 64) + (r a).toNat / 2 ^ (64 - i.toNat % 64)))
  | .cmpSr e d a b c => some (e, d, 1, fun r => if cmpRow c.toNat (r a) (r b) then 1 else 0)
  | .cmpSi e d a c i => some (e, d, 1, fun r => if cmpRow c.toNat (r a) (wrap i.toInt) then 1 else 0)
  | .minSr e d a b u => some (e, d, 1, fun r =>
      if u = 1 then BitVec.ofNat 64 (min (r a).toNat (r b).toNat) else wrap (min (r a).toInt (r b).toInt))
  | .minSi e d a i => some (e, d, 1, fun r => wrap (min (r a).toInt i.toInt))
  | .maxSr e d a b u => some (e, d, 1, fun r =>
      if u = 1 then BitVec.ofNat 64 (max (r a).toNat (r b).toNat) else wrap (max (r a).toInt (r b).toInt))
  | .maxSi e d a i => some (e, d, 1, fun r => wrap (max (r a).toInt i.toInt))
  | .sel e d a b f => some (e, d, 1, fun r => if (r f).toNat = 0 then r b else r a)
  | .bitcClz e d a => some (e, d, 1, fun r => BitVec.ofNat 64 (zerosFrom (fun i => (r a).getLsbD (63 - i))))
  | .bitcCtz e d a => some (e, d, 1, fun r => BitVec.ofNat 64 (zerosFrom (r a).getLsbD))
  | .bitcPopc e d a => some (e, d, 1, fun r => BitVec.ofNat 64 ((List.range 64).countP (r a).getLsbD))
  | .bitcBrev e d a => some (e, d, 1, fun r => (r a).reverse)
  | .extSr e d a b g => some (e, d, 1, fun r =>
      let len := (r b).toNat / 2 ^ 8 % 64 + 1
      let field := (r a).toNat / 2 ^ ((r b).toNat % 64) % 2 ^ len
      if g = 1 then wrap (signedField field len) else BitVec.ofNat 64 field)
  | .extSi e d a l p => some (e, d, 1, fun r => BitVec.ofNat 64 ((r a).toNat / 2 ^ p.toNat % 2 ^ (l.toNat + 1)))
  | .li e d i => some (e, d, 1, fun _ => wrap i.toInt)
  | .lis e d i => some (e, d, 1, fun r => BitVec.ofNat 64 ((r d).toNat * 2 ^ 18 + i.toNat))
  | _ => none
where
  /-- The conditions of CMP: 0 eq, 1 ne, 2 lt, 3 ge, 4 ltu, 5 geu. -/
  cmpRow (c : Nat) (x y : Word) : Bool :=
    match c with
    | 0 => decide (x.toNat = y.toNat)
    | 1 => decide (x.toNat ≠ y.toNat)
    | 2 => decide (x.toInt < y.toInt)
    | 3 => decide (y.toInt ≤ x.toInt)
    | 4 => decide (x.toNat < y.toNat)
    | _ => decide (y.toNat ≤ x.toNat)

/-- A whole e-register value on its way to engine en: issued now, landing lat cycles on. -/
def eLand (en : Engine) (now lat d : Nat) (v : Word) : Engine :=
  { en with lands := en.lands ++ [{ issued := now, due := now + lat, pay := .e d (BitVec.allOnes 64) v }] }

/-- An s-register value on its way: a write to s0 is discarded (R87). -/
def sLand (g : Gang) (spare : Bool) (now lat d : Nat) (v : Word) : Gang :=
  if d = 0 then g
  else if spare then { g with spare := { g.spare with lands := g.spare.lands ++ [{ issued := now, due := now + lat, pay := .s d v }] } }
  else { g with prim := { g.prim with lands := g.prim.lands ++ [{ issued := now, due := now + lat, pay := .s d v }] } }

end Sys2Proof.Claims

section
open Sys2Proof Sys2Proof.Machine Sys2Proof.Claims

/-- Every ALU and constant instruction (ADD to LIS) completes, for all operands: its result, in whole-number arithmetic, lands at its
published latency in the s-register of the issuing sequencer (E = 0; s0 discards it) or in the e-register of each active engine (E = 1),
and nothing else of the package changes. -/
def Obligations.ScalarResults : Prop :=
  ∀ (i : Instr) (s : State) (g : Gang) e d lat f, Here s g →
    aluRow i = some (e, d, lat, f) →
    Becomes i s
      (if e = 0 then
        sLand g s.ctx.spare s.cycle lat d.toNat (f (fun r => readS s (g.seq s.ctx.spare) r.toNat))
       else g.mapAct s.ctx.act (fun k en => eLand en s.cycle lat d.toNat (f (fun r =>
          if r.toNat < 16 then readE s k en r.toNat
          else readS s (g.seq s.ctx.spare) (r.toNat - 16)))))

end

namespace Sys2Proof.Claims
open Sys2Proof.Machine

/-- Some bits of a g-register on their way to a sequencer, landing 1 cycle on. -/
def gLand (g : Gang) (spare : Bool) (now d : Nat) (mask v : Mask) : Gang :=
  g.modSeq spare (fun q => { q with lands := q.lands ++ [{ issued := now, due := now + 1, pay := .g d mask v }] })

/-- A result on its way to an engine, landing lat cycles on. -/
def withLand (en : Engine) (now lat : Nat) (p : EPay) : Engine :=
  { en with lands := en.lands ++ [{ issued := now, due := now + lat, pay := p }] }

/-- A source of an E-capable S slot: of the sequencer under E = 0, of engine k under E = 1 (R93, R131). -/
def source (s : State) (g : Gang) (e : BitVec 1) (k : Nat) (en : Engine) (r : BitVec 6) : Word :=
  if e = 0 then readS s (g.seq s.ctx.spare) r.toNat
  else if r.toNat < 16 then readE s k en r.toNat else readS s (g.seq s.ctx.spare) (r.toNat - 16)

/-- R139's effect on each bit of a g-register: which bits are written, and their values. -/
def gpredBit (s : State) (g : Gang) (i : Instr) : Option (Nat × (Nat → Bool) × (Nat → Bool)) :=
  let r (x : BitVec 6) (k : Nat) : Bool := (readG s g (g.seq s.ctx.spare) x.toNat).getLsbD k
  match i with
  | .gpredSet d a => some (d.toNat, s.ctx.act.getLsbD, fun k => s.ctx.act.getLsbD k && decide (source s g 1 k (g.eng k) a ≠ 0))
  | .gpredAnd d a b => some (d.toNat, fun _ => true, fun k => r a k && r b k)
  | .gpredOr d a b => some (d.toNat, fun _ => true, fun k => r a k || r b k)
  | .gpredAndn d a b => some (d.toNat, fun _ => true, fun k => r a k && !r b k)
  | .gpredXor d a b => some (d.toNat, fun _ => true, fun k => r a k != r b k)
  | .gpredNot d a => some (d.toNat, fun _ => true, fun k => g.live.getLsbD k && !r a k)
  | .gpredFroms d a => some (d.toNat, fun _ => true, fun k => (readS s (g.seq s.ctx.spare) a.toNat).getLsbD k && g.live.getLsbD k)
  | .gpredRange d a h l => some (d.toNat, fun _ => true, fun k => r a k && decide (l.toNat ≤ k) && decide (k ≤ h.toNat))
  | _ => none

/-- R140's value of each query into an s-register. -/
def gqryRow (s : State) (g : Gang) (i : Instr) : Option (BitVec 6 × Nat) :=
  let r (x : BitVec 6) (k : Nat) : Bool := (readG s g (g.seq s.ctx.spare) x.toNat).getLsbD k
  let act : Nat → Bool := s.ctx.act.getLsbD
  match i with
  | .gqryMask d a => some (d, (readG s g (g.seq s.ctx.spare) a.toNat).toNat)
  | .gqryCount d a => some (d, (List.range 16).countP (fun k => r a k && act k))
  | .gqryAny d a => some (d, if (List.range 16).any (fun k => r a k && act k) then 1 else 0)
  | .gqryAll d a => some (d, if (List.range 16).all (fun k => !act k || r a k) then 1 else 0)
  | .gqryFirst d a => some (d, ((List.range 16).takeWhile (fun k => !(r a k && act k))).length)
  | .gqryAct d => some (d, s.ctx.act.toNat)
  | .gqryBit d a n => some (d, if r a n.toNat then 1 else 0)
  | _ => none

/-- The limits of R138 on a shape word. -/
def shapeLegal (h : Word) : Prop :=
  1 ≤ h.toNat % 2 ^ 7 ∧ h.toNat % 2 ^ 7 ≤ 64 ∧ 1 ≤ h.toNat / 2 ^ 8 % 2 ^ 7 ∧ h.toNat / 2 ^ 8 % 2 ^ 7 ≤ 64 ∧
    1 ≤ h.toNat / 2 ^ 16 % 2 ^ 11 ∧ h.toNat / 2 ^ 16 % 2 ^ 11 ≤ 1024 ∧
    h.getLsbD 7 = false ∧ h.getLsbD 15 = false ∧ h.toNat / 2 ^ 27 % 2 ^ 5 = 0 ∧ h.toNat / 2 ^ 33 = 0

end Sys2Proof.Claims

section
open Sys2Proof Sys2Proof.Machine Sys2Proof.Claims

/-- MOVC completes and brings the register's value, 1 cycle on, to an s-register (E = 0) or to each active engine's e-register (E = 1). A
uniform read of CR_CAPROWS gives the gang capability and one in E-mode each engine's own value (R21), one of CR_FPFLAGS the union of
the active engines' flags, of another per-engine register the lowest active engine's copy; CR_COREID, CR_LIVEMASK, CR_EVENTS, CR_BATONS, CR_WATCHDOG and CR_CYCLE read as R20, R36 and
R132 lay them out. -/
def Obligations.ControlRegisterReads : Prop :=
  ∀ (s : State) (g : Gang) (d : BitVec 6) (c : BitVec 12), Here s g →
    Becomes (.movc 0 d c) s (sLand g s.ctx.spare s.cycle 1 d.toNat (crUniform s g c.toNat)) ∧
    Becomes (.movc 1 d c) s (g.mapAct s.ctx.act (fun _ en => eLand en s.cycle 1 d.toNat (crOf s g en c.toNat))) ∧
    crUniform s g 0x002 = BitVec.ofNat 64 g.gangCap ∧ (∀ en, crOf s g en 0x002 = BitVec.ofNat 64 en.capRows) ∧
    (∀ n, n < 5 → (∀ k, k < 16 → (g.eng k).fpflags < 32) →
      ((crUniform s g 0x00A).getLsbD n = true ↔ ∃ k, k < 16 ∧ s.ctx.act.getLsbD k = true ∧ (g.eng k).fpflags.testBit n = true)) ∧
    (∀ k, k < 16 → s.ctx.act.getLsbD k = true → (∀ j, j < k → s.ctx.act.getLsbD j = false) →
      c.toNat ≠ 0x002 → c.toNat ≠ 0x00A → crUniform s g c.toNat = crOf s g (g.eng k) c.toNat) ∧
    (s.ctx.core < 72 → (crUniform s g 0x001).toNat = s.ctx.core + 2 ^ 8 * (s.ctx.core / 9)) ∧
    (crUniform s g 0x004).toNat = g.live.toNat ∧ (crUniform s g 0x00C).toNat = g.events.toNat ∧
    (crUniform s g 0x011).toNat = g.batons.toNat ∧ crUniform s g 0x100 = BitVec.ofNat 64 g.watchdog ∧
    crUniform s g 0x700 = BitVec.ofNat 64 s.cycle

/-- MOVTC completes: its value is on its way for 1 cycle to every active engine's copy of a per-engine register, or (E = 0) to the
register of the sequencer, gang or core; in E-mode a register that is not per-engine raises ILLEGAL_ENCODING. -/
def Sys2Proof.Claims.ControlRegisterWrites : Prop :=
  ∀ (s : State) (g : Gang) (e : BitVec 1) (a : BitVec 6) (c : BitVec 12), Here s g →
    (crPerEngine c.toNat = true → Becomes (.movtc e a c) s (g.mapAct s.ctx.act (fun k en =>
      withLand en s.cycle 1 (.cr c.toNat (source s g e k en a))))) ∧
    (crPerEngine c.toNat = false → e = 0 → Becomes (.movtc e a c) s (g.modSeq s.ctx.spare (fun q =>
      { q with lands := q.lands ++ [{ issued := s.cycle, due := s.cycle + 1, pay := .cr c.toNat (readS s (g.seq s.ctx.spare) a.toNat) }] }))) ∧
    (crPerEngine c.toNat = false → e = 1 → Becomes (.movtc e a c) s (g.raise s .illegalEncoding 0 0 0))

/-- The landings of control-register writes, field by field: CR_EVENTS clears the bits written as 1 except those that the hardware sets
in the same cycle; CR_TIMER takes bits 31:0 and CR_BATONS every bit; CR_WATCHDOG is at least 256 and at most 20 bits; CR_STKDEPTH takes
SPILLED and a RESIDENT of at most 32 and keeps CALLDEPTH; CR_FPFLAGS takes bits 4:0 and CR_RCUT a count clamped to 1-64 in each engine
of the set. -/
def Sys2Proof.Claims.ControlRegisterLandings : Prop :=
  ∀ (s : State) (g : Gang) (v : Word) (m : Mask), Here s g →
    Becomes (.crEventsWrite v) s { g with events := (g.events &&& ~~~ (v.setWidth 4)) ||| g.freshEvents } ∧
    Becomes (.crTimerWrite v) s { g with timer := v.toNat % 2 ^ 32, timerDue := false } ∧
    Becomes (.crBatonsWrite v) s { g with batons := v.setWidth 32 } ∧
    Becomes (.crWatchdogWrite v) s { g with watchdog := max 256 (v.toNat % 2 ^ 20) } ∧
    Becomes (.crStkdepthWrite v) s (g.modSeq s.ctx.spare (fun q =>
      { q with spilled := v.toNat / 2 ^ 8 % 2 ^ 8, resident := min 32 (v.toNat % 2 ^ 6) })) ∧
    Becomes (.crFpflagsWrite m v) s (g.mapAct m (fun _ en => { en with fpflags := v.toNat % 2 ^ 5 })) ∧
    Becomes (.crRcutWrite m v) s (g.mapAct m (fun _ en => { en with rcut := max 1 (min 64 (v.toNat % 2 ^ 7)) }))

/-- EGET and EPUT move one value between the s-file and an e-register of the engine s[A] mod 16, active or not, in 1 cycle; an engine that
is not live reads 0 and a write to it does nothing. -/
def Obligations.SingleValueMoves : Prop :=
  ∀ (s : State) (g : Gang) (d a b : BitVec 6) (n r : BitVec 4) (i : BitVec 12), Here s g →
    let pick := (readS s (g.seq s.ctx.spare) a.toNat).toNat % 16
    let from_ (e f : Nat) : Word := if g.live.getLsbD e then readE s e (g.eng e) f else 0
    let to_ (v : Word) : Gang := if g.live.getLsbD pick then g.modEng pick (fun en => eLand en s.cycle 1 d.toNat v) else g
    Becomes (.egetSr d a b) s (sLand g s.ctx.spare s.cycle 1 d.toNat (from_ pick b.toNat)) ∧
    Becomes (.egetSi d n r) s (sLand g s.ctx.spare s.cycle 1 d.toNat (from_ n.toNat r.toNat)) ∧
    Becomes (.eputSr d a b) s (to_ (readS s (g.seq s.ctx.spare) b.toNat)) ∧
    Becomes (.eputSi d a i) s (to_ (wrap i.toInt))

/-- ASET, ASTR and AADD write an address or stride register of every active engine, 1 cycle on; AADD keeps the space tag and wraps the
other 60 bits. -/
def Sys2Proof.Claims.AddressRegisters : Prop :=
  ∀ (s : State) (g : Gang) (e : BitVec 1) (d a b : BitVec 6) (i : BitVec 12) (r : BitVec 5) (j : BitVec 21), Here s g →
    let each (f : Nat → Engine → EPay) : Gang := g.mapAct s.ctx.act (fun k en => withLand en s.cycle 1 (f k en))
    Becomes (.asetSr e d a b) s (each (fun k en => .a d.toNat false (source s g e k en a + source s g e k en b))) ∧
    Becomes (.asetSi e d a i) s (each (fun k en => .a d.toNat false (wrap ((source s g e k en a).toInt + i.toInt)))) ∧
    Becomes (.astrSr e d a b) s (each (fun k en => .st d.toNat ((source s g e k en a + source s g e k en b).setWidth 32))) ∧
    Becomes (.astrSi e d a i) s (each (fun k en => .st d.toNat (BitVec.ofInt 32 ((source s g e k en a).toInt + i.toInt)))) ∧
    ∃ v : Nat → Engine → Word, Becomes (.aadd r j) s (each (fun k en => .a r.toNat false (v k en))) ∧
      ∀ k en, (v k en).extractLsb' 60 4 = (readA s k en r.toNat).extractLsb' 60 4 ∧
        (v k en).extractLsb' 0 60 = BitVec.ofInt 60 ((readA s k en r.toNat).toInt + j.toInt)

/-- SHP writes the shape word to h[D] of every active engine, 1 cycle on, where every active engine's word keeps the limits of R138; SHP.K
replaces bits 26:16 and keeps the other fields. Where some active engine's word breaks them, the bundle raises SHAPE, and ENGMASK names
exactly those engines. -/
def Sys2Proof.Claims.ShapeWords : Prop :=
  ∀ (s : State) (g : Gang) (e : BitVec 1) (d a : BitVec 6) (n : BitVec 12), Here s g → d.toNat < 8 → n.toNat ≤ 1024 →
    let old (k : Nat) (en : Engine) : Word := readH s k en d.toNat
    let kept (k : Nat) (en : Engine) : Word := BitVec.ofNat 64
      ((old k en).toNat - (old k en).toNat / 2 ^ 16 % 2 ^ 11 * 2 ^ 16 + n.toNat * 2 ^ 16)
    ∀ i v, (i, v) ∈ [(Instr.shpSr e d a, fun k en => source s g e k en a), (Instr.shpK e d n, kept)] →
      ((∀ k, k < 16 → s.ctx.act.getLsbD k = true → shapeLegal (v k (g.eng k))) →
        Becomes i s (g.mapAct s.ctx.act (fun k en => withLand en s.cycle 1 (.h d.toNat (v k en))))) ∧
      ((∃ k, k < 16 ∧ s.ctx.act.getLsbD k = true ∧ ¬ shapeLegal (v k (g.eng k))) →
        ∃ m : Mask, Becomes i s (g.raise s .shape m d.toNat 0) ∧
          ∀ k, k < 16 → (m.getLsbD k = true ↔ s.ctx.act.getLsbD k = true ∧ ¬ shapeLegal (v k (g.eng k))))

/-- GPRED completes: the bits of g[D] that R139 writes land 1 cycle on with the values it gives them, and no other bit is written. -/
def Sys2Proof.Claims.GangPredicates : Prop :=
  ∀ (i : Instr) (s : State) (g : Gang) d on val, Here s g → gpredBit s g i = some (d, on, val) →
    ∃ mask v : Mask, Becomes i s (gLand g s.ctx.spare s.cycle d mask v) ∧
      ∀ k, k < 16 → mask.getLsbD k = on k ∧ v.getLsbD k = val k

/-- GQRY completes: the value R140 gives lands in s[D] 1 cycle on; GQRY.MASK in E-mode brings each active engine its own bit. -/
def Sys2Proof.Claims.GangQueries : Prop :=
  ∀ (s : State) (g : Gang), Here s g →
    (∀ i d v, gqryRow s g i = some (d, v) → Becomes i s (sLand g s.ctx.spare s.cycle 1 d.toNat (BitVec.ofNat 64 v))) ∧
    ∀ d a : BitVec 6, Becomes (.gqryMaskE d a) s (g.mapAct s.ctx.act (fun k en => eLand en s.cycle 1 d.toNat
      (if (readG s g (g.seq s.ctx.spare) a.toNat).getLsbD k then 1 else 0)))

end

namespace Sys2Proof.Claims
open Sys2Proof.Machine

/-- The issuing bundle raises a fault of the gang, and its slot does nothing else. -/
def Raises (i : Instr) (s : State) (g : Gang) (code : GFault) (engmask : Mask) (detail : Nat) (vaddr : Word) : Prop :=
  Becomes i s (g.raise s code engmask detail vaddr)

/-- Code words of the bundle at an address: 25 for a literal, else 1. -/
def bundleWords (g : Gang) (a : Nat) : Nat := if g.code.getD a 0xFFFF#16 = escapeWord then 25 else 1

/-- The words that start a bundle (R78): the first, and the one after each bundle. -/
inductive StartsBundle (g : Gang) : Nat → Prop
  | first : 0 < g.code.length → StartsBundle g 0
  | next (a : Nat) : StartsBundle g a → a + bundleWords g a < g.code.length → StartsBundle g (a + bundleWords g a)

/-- The code address n bundles on. -/
def ahead (g : Gang) : Nat → Nat → Nat
  | 0, a => a
  | n + 1, a => ahead g n (a + bundleWords g a)

/-- The sequencer that issues. -/
def seqOf (s : State) (g : Gang) : Seq := if s.ctx.spare then g.spare else g.prim

/-- The sequencer as it stands, with the next bundle in program order to come. -/
def onward (s : State) (g : Gang) : SeqCtl :=
  { pc := (seqOf s g).pc + bundleWords g (seqOf s g).pc, taken := false, active := s.ctx.act, stack := (seqOf s g).stack,
    resident := (seqOf s g).resident, spilled := (seqOf s g).spilled, callDepth := (seqOf s g).callDepth, loop := (seqOf s g).loop }

/-- exec leaves c as what the bundle makes of its sequencer when it commits, and nothing else has changed. -/
def Steers (i : Instr) (s : State) (g : Gang) (c : SeqCtl) : Prop :=
  Becomes i s (if s.ctx.spare then { g with spare := { g.spare with ctl := some c } } else { g with prim := { g.prim with ctl := some c } })

/-- The next bundle is the one at code address a, c holding the rest: taken unless a is the next in program order, and then only
to a word that starts a bundle (R78, R141). -/
def Reaches (i : Instr) (s : State) (g : Gang) (c : SeqCtl) (a : Int) : Prop :=
  (a = (onward s g).pc → Steers i s g c) ∧
  (a ≠ (onward s g).pc → (0 ≤ a ∧ StartsBundle g a.toNat) → Steers i s g { c with pc := a.toNat, taken := true }) ∧
  (a ≠ (onward s g).pc → ¬ (0 ≤ a ∧ StartsBundle g a.toNat) → Raises i s g .illegalTarget 0 0 0)

/-- The next bundle is the one at code address a, a taken branch wherever it lies, and only to a word that starts a bundle (R142; that a
CALL of the next bundle is taken too is the model's reading, log entry 69). -/
def Jumps (i : Instr) (s : State) (g : Gang) (c : SeqCtl) (a : Int) : Prop :=
  ((0 ≤ a ∧ StartsBundle g a.toNat) → Steers i s g { c with pc := a.toNat, taken := true }) ∧
  (¬ (0 ≤ a ∧ StartsBundle g a.toNat) → Raises i s g .illegalTarget 0 0 0)

/-- What the mask m of a stack entry gives back as an active mask: its live engines; an entry that software has made without one gives back
some of the live engines (R130; the model's choice, log entry 68). -/
def GivesBack (g : Gang) (m m' : Mask) : Prop :=
  (m &&& g.live ≠ 0 → m' = m &&& g.live) ∧ (g.live ≠ 0 → m' ≠ 0) ∧ m' &&& g.live = m'

/-- Engine j stands in the limb chain across engines that engine k is bound in. -/
def inChain (g : Gang) (k j : Nat) : Prop :=
  (g.eng k).bind.code ≠ 0 ∧ 1 < (g.eng k).bind.engs ∧ (g.eng k).bind.base ≤ j ∧ j < (g.eng k).bind.base + (g.eng k).bind.engs

/-- Engine j belongs to a bound group that a mask would leave partly active (R147). -/
def Parted (g : Gang) (m : Mask) (j : Nat) : Prop :=
  ∃ k, k < 16 ∧ g.live.getLsbD k = true ∧ inChain g k j ∧
    (∃ a, a < 16 ∧ inChain g k a ∧ m.getLsbD a = true) ∧ ∃ b, b < 16 ∧ inChain g k b ∧ m.getLsbD b = false

/-- BIND_DIVERGE for the groups that a mask parts (R147). -/
def Diverges (i : Instr) (s : State) (g : Gang) (m : Mask) : Prop :=
  ∃ b : Mask, Raises i s g .bindDiverge b 0x35 0 ∧ ∀ j, j < 16 → (b.getLsbD j = true ↔ Parted g m j)

/-- The active mask becomes m and the next bundle is the one at a, unless m parts a limb chain. -/
def Switches (i : Instr) (s : State) (g : Gang) (c : SeqCtl) (m : Mask) (a : Int) : Prop :=
  ((∃ j, j < 16 ∧ Parted g m j) → Diverges i s g m) ∧
  ((∀ j, j < 16 → ¬ Parted g m j) → Reaches i s g { c with active := m } a)

/-- A stack entry by its fields (R144). -/
def entry (full alt : Mask) (resume : Int) (kind depth : Nat) : Word :=
  BitVec.ofNat 64 (full.toNat + 2 ^ 16 * alt.toNat + 2 ^ 32 * (resume % 2 ^ 15).toNat + 2 ^ 47 * kind + 2 ^ 50 * depth)

/-- The top entry and its fields. -/
def topOf (c : SeqCtl) : Word := sget 0 c.stack (c.resident - 1)
def topFull (c : SeqCtl) : Mask := BitVec.ofNat 16 ((topOf c).toNat)
def topAlt (c : SeqCtl) : Mask := BitVec.ofNat 16 ((topOf c).toNat / 2 ^ 16)
def topResume (c : SeqCtl) : Nat := (topOf c).toNat / 2 ^ 32 % 2 ^ 15
def topKind (c : SeqCtl) : Nat := (topOf c).toNat / 2 ^ 47 % 2 ^ 3
def topDepth (c : SeqCtl) : Nat := (topOf c).toNat / 2 ^ 50 % 2 ^ 6

/-- An entry pushed, the top entry replaced, the top entry removed. -/
def pushed (c : SeqCtl) (w : Word) : SeqCtl := { c with stack := sput 0 c.stack c.resident w, resident := c.resident + 1 }
def retop (c : SeqCtl) (w : Word) : SeqCtl := { c with stack := sput 0 c.stack (c.resident - 1) w }
def popped (c : SeqCtl) : SeqCtl := { c with resident := c.resident - 1 }

/-- The conditions of R141's branches, with their offsets. -/
def branchRow (s : State) (g : Gang) (i : Instr) : Option (BitVec 20 × Prop) :=
  match i with
  | .jmp o => some (o, True)
  | .bz a o => some (o, (readS s (seqOf s g) a.toNat).toNat = 0)
  | .bnz a o => some (o, (readS s (seqOf s g) a.toNat).toNat ≠ 0)
  | .bltz a o => some (o, (readS s (seqOf s g) a.toNat).toInt < 0)
  | .bmz a o => some (o, ∀ k, k < 16 → s.ctx.act.getLsbD k = true → (readE s k (g.eng k) a.toNat).toNat % 2 ^ 32 = 0)
  | _ => none

/-- Both paths of a predicate over the active engines (R146, R149). -/
def Divides (i : Instr) (s : State) (g : Gang) (a : BitVec 6) (o : BitVec 20) (kind : Nat) : Prop :=
  let c := onward s g
  let t := s.ctx.act &&& readG s g (seqOf s g) a.toNat
  let f := s.ctx.act &&& ~~~ readG s g (seqOf s g) a.toNat
  let tgt : Int := (seqOf s g).pc + o.toInt
  (c.resident = 32 → Raises i s g .stack 0 0 0) ∧
  (c.resident ≠ 32 → t ≠ 0 → Switches i s g (pushed c (entry s.ctx.act f tgt kind c.callDepth)) t c.pc) ∧
  (c.resident ≠ 32 → t = 0 → Switches i s g (pushed c (entry s.ctx.act 0 tgt kind c.callDepth)) f tgt)

/-- The active mask becomes what a stack entry's mask gives back, and the next bundle is the one at a. -/
def Restores (i : Instr) (s : State) (g : Gang) (c : SeqCtl) (m : Mask) (a : Int) : Prop :=
  ∃ m', GivesBack g m m' ∧ Switches i s g c m' a

/-- The same for a bundle that goes on to the next in program order, with what else it does. -/
def RestoresWith (i : Instr) (s : State) (g : Gang) (c : SeqCtl) (m : Mask) : Prop :=
  ∃ m', GivesBack g m m' ∧ ((∃ j, j < 16 ∧ Parted g m' j) → Diverges i s g m') ∧
    ((∀ j, j < 16 → ¬ Parted g m' j) → Steers i s g { c with active := m' })

/-- A wait of the bundle at PC begins, or the one in progress goes on. -/
def KeepsWaiting (i : Instr) (s : State) (g : Gang) (k : WaitKind) : Prop :=
  Becomes i s (g.modSeq s.ctx.spare (fun q => { q with wait := some (q.wait.getD (k, s.cycle)) }))

/-- The gangs resident for g's squad. -/
def Mate (s : State) (g h : Gang) : Prop :=
  ∃ c, c < 72 ∧ s.gang c = some h ∧ h.info.handle = g.info.handle ∧ h.info.squad = g.info.squad

/-- Every member that g waits for at a package-level barrier has arrived (R160): its own die's gangs at the die phase, which a gang at a die-level
BAR has met too, the gangs of the other dies at the package level. -/
def PackArrived (s : State) (g : Gang) : Prop :=
  (∀ j, j < g.info.ngang → ∃ h, Mate s g h ∧ h.info.pos = j ∧
    if g.info.sameDie.getLsbD j = true then g.arrivals.getD 1 0 ≤ h.arrivals.getD 1 0 else g.arrivals.getD 2 0 ≤ h.arrivals.getD 2 0)

/-- At die level, which is also the package level of a squad on one die, a barrier is open when every gang of CR_SQDIEMASK has arrived as
often. -/
def DieOpen (s : State) (g : Gang) : Prop :=
  ∀ j, j < 32 → g.info.sameDie.getLsbD j = true → ∃ h, Mate s g h ∧ g.info.sameDie.getLsbD h.info.pos = true ∧
    h.info.pos = j ∧ g.arrivals.getD 1 0 ≤ h.arrivals.getD 1 0

/-- At package level, in a squad on several dies, a barrier is open when every member has arrived and a package-barrier latency of 140 cycles,
and what contention adds, has passed since the last arrival, or a member has been let go by it already (R111, R160). -/
def PackOpen (s : State) (g : Gang) : Prop :=
  PackArrived s g ∧ ((∃ h, Mate s g h ∧ g.arrivals.getD 2 0 < h.arrivals.getD 2 0) ∨
    ∃ last, (∃ h, Mate s g h ∧ h.arriveAt = last) ∧ (∀ h, Mate s g h → h.arriveAt ≤ last) ∧
      last + 140 + Config.contention last (freeTag 40 g.info.handle 0 g.info.squad) ≤ s.cycle)

end Sys2Proof.Claims

section
open Sys2Proof Sys2Proof.Machine Sys2Proof.Claims

/-- The branches complete (R141): where the condition holds the next bundle is the one at PC + sext(OFF20), which must start a bundle
unless it is the next in program order; else the next in program order. The active mask and the stack stay. -/
def Obligations.Branches : Prop :=
  ∀ (s : State) (g : Gang) (i : Instr) (o : BitVec 20) (p : Prop), Here s g → branchRow s g i = some (o, p) →
    (p → Reaches i s g (onward s g) ((seqOf s g).pc + o.toInt)) ∧ (¬ p → Steers i s g (onward s g))

/-- CALL and RET complete as R142's text says, or raise STACK, SPLIT_MISMATCH, BIND_DIVERGE or ILLEGAL_TARGET where it says so. -/
def Obligations.CallAndReturn : Prop :=
  ∀ (s : State) (g : Gang) (o : BitVec 20), Here s g → (onward s g).callDepth < 64 →
    let c := onward s g
    (c.callDepth = 63 ∨ c.resident = 32 → Raises (.call o) s g .stack 0 0 0) ∧
    (¬ (c.callDepth = 63 ∨ c.resident = 32) → Jumps (.call o) s g
      { pushed c (entry s.ctx.act 0 c.pc 2 c.callDepth) with callDepth := c.callDepth + 1 } ((seqOf s g).pc + o.toInt)) ∧
    (s.ctx.spare = true → c.resident = 0 → Raises .ret s g .splitMismatch 0 0 0) ∧
    (s.ctx.spare = false → c.resident = 0 → Raises .ret s g .stack 0 0 0) ∧
    (c.resident ≠ 0 → topKind c = 3 ∨ topKind c = 4 → Raises .ret s g .splitMismatch 0 0 0) ∧
    (c.resident ≠ 0 → topKind c ≠ 2 ∧ topKind c ≠ 3 ∧ topKind c ≠ 4 → Raises .ret s g .stack 0 0 0) ∧
    (c.resident ≠ 0 → topKind c = 2 →
      Restores .ret s g { popped c with callDepth := c.callDepth - 1 } (topFull c) (topResume c))

/-- LOOP completes (R143): its body is the bundles after it through the one at PC + OFF20, at most 64. It jumps past the body for a
count of 0, and else leaves the count less one still to begin; another offset or a longer body is ILLEGAL_ENCODING,
and so, by the model's reading, is an offset to no start of a bundle (log 53). -/
def Obligations.Loops : Prop :=
  ∀ (s : State) (g : Gang) (a : BitVec 6) (o : BitVec 20), Here s g →
    let c := onward s g
    let n := (readS s (seqOf s g) a.toNat).toNat % 2 ^ 32
    let last := (seqOf s g).pc + o.toNat
    (¬ (0 < o.toInt ∧ ∃ k, k < 64 ∧ ahead g k c.pc = last) → Raises (.loop a o) s g .illegalEncoding 0 0 0) ∧
    (0 < o.toInt → (∃ k, k < 64 ∧ ahead g k c.pc = last) →
      (n = 0 → Reaches (.loop a o) s g c (last + bundleWords g last)) ∧
      (n ≠ 0 → Steers (.loop a o) s g { c with loop := some { first := c.pc, last, remain := n - 1, buffered := false } }))

/-- GIF, GELSE and GJOIN complete as R146's text says, or raise STACK, BIND_DIVERGE or ILLEGAL_TARGET. -/
def Obligations.Divergence : Prop :=
  ∀ (s : State) (g : Gang) (a : BitVec 6) (o : BitVec 20), Here s g → (onward s g).callDepth < 64 →
    let c := onward s g
    Divides (.gif a o) s g a o 0 ∧
    (c.resident = 0 ∨ topKind c ≠ 0 → Raises (.gelse o) s g .stack 0 0 0) ∧
    (c.resident ≠ 0 → topKind c = 0 → topAlt c ≠ 0 → Restores (.gelse o) s g
      (retop c (entry (topFull c) 0 (topResume c) 1 (topDepth c))) (topAlt c) (topResume c)) ∧
    (c.resident ≠ 0 → topKind c = 0 → topAlt c = 0 → Reaches (.gelse o) s g c ((seqOf s g).pc + o.toInt)) ∧
    (c.resident = 0 ∨ 1 < topKind c → Raises .gjoin s g .stack 0 0 0) ∧
    (c.resident ≠ 0 → topKind c ≤ 1 → Restores .gjoin s g (popped c) (topFull c) c.pc)

/-- GSPLIT completes (R149): from the primary with the spare live and idle and both paths populated it pushes a SPLIT entry and starts
the spare on the other path at its target; every other GSPLIT serialises. -/
def Sys2Proof.Claims.GangSplit : Prop :=
  ∀ (s : State) (g : Gang) (a : BitVec 6) (o : BitVec 20), Here s g → (onward s g).callDepth < 64 →
    let c := onward s g
    let t := s.ctx.act &&& readG s g (seqOf s g) a.toNat
    let f := s.ctx.act &&& ~~~ readG s g (seqOf s g) a.toNat
    let tgt : Int := (seqOf s g).pc + o.toInt
    let real := s.ctx.spare = false ∧ g.spareLive = true ∧ g.split = false ∧ t ≠ 0 ∧ f ≠ 0
    (¬ real → Divides (.gsplit a o) s g a o 3) ∧
    (real → c.resident = 32 → Raises (.gsplit a o) s g .stack 0 0 0) ∧
    (real → c.resident ≠ 32 →
      ((∃ j, j < 16 ∧ Parted g t j) → Diverges (.gsplit a o) s g t) ∧
      ((∀ j, j < 16 → ¬ Parted g t j) →
        (0 ≤ tgt ∧ StartsBundle g tgt.toNat → Steers (.gsplit a o) s g
          { pushed c (entry s.ctx.act f tgt 4 c.callDepth) with active := t, act := .split f tgt.toNat }) ∧
        (¬ (0 ≤ tgt ∧ StartsBundle g tgt.toNat) → Raises (.gsplit a o) s g .illegalTarget 0 0 0)))

/-- GMERGE completes (R151): a serialised split runs its other path or ends; in a real split the first arrival waits, and at the
second both commit, the primary with its top entry popped and its FULL mask active. What breaks R151's checks raises
SPLIT_MISMATCH, and a reserved KIND on top STACK (R144). -/
def Sys2Proof.Claims.GangMerge : Prop :=
  ∀ (s : State) (g : Gang), Here s g →
    let c := onward s g
    let reserved := c.resident ≠ 0 ∧ 5 ≤ topKind c
    let serial := c.resident ≠ 0 ∧ topKind c = 3
    let other := if s.ctx.spare then g.prim else g.spare
    let sound := (s.ctx.spare = true ∧ c.resident = 0 ∧ c.spilled = 0 ∧ c.callDepth = g.splitDepth) ∨
      (s.ctx.spare = false ∧ c.resident ≠ 0 ∧ topKind c = 4 ∧ topDepth c = c.callDepth)
    let second := ∃ t, other.wait = some (.merge, t)
    (reserved → Raises .gmerge s g .stack 0 0 0) ∧
    (serial → topDepth c ≠ c.callDepth → Raises .gmerge s g .splitMismatch 0 0 0) ∧
    (serial → topDepth c = c.callDepth → topAlt c ≠ 0 → Restores .gmerge s g
      (retop c (entry (topFull c) 0 (topResume c) 3 (topDepth c))) (topAlt c) (topResume c)) ∧
    (serial → topDepth c = c.callDepth → topAlt c = 0 → RestoresWith .gmerge s g (popped c) (topFull c)) ∧
    (¬ reserved → ¬ serial → ¬ (g.split = true ∧ sound) → Raises .gmerge s g .splitMismatch 0 0 0) ∧
    (¬ reserved → ¬ serial → g.split = true → sound →
      (¬ second → Becomes .gmerge s (g.modSeq s.ctx.spare (fun q => { q with wait := some (.merge, s.cycle) }))) ∧
      (second → other.pc ≠ (seqOf s g).pc → Raises .gmerge s g .splitMismatch 0 0 0) ∧
      (second → other.pc = (seqOf s g).pc → s.ctx.spare = true → Steers .gmerge s g { c with act := .merge }) ∧
      (second → other.pc = (seqOf s g).pc → s.ctx.spare = false →
        RestoresWith .gmerge s g { popped c with act := .merge } (topFull c)))

/-- SYS STKSPILL and SYS STKFILL complete (R148): eight entries leave the stack for s[D] to s[D + 7], landing 1 cycle on, or come back
below the resident ones; where the stack or the count forbids it they raise STACK. -/
def Sys2Proof.Claims.SpillAndFill : Prop :=
  ∀ (s : State) (g : Gang) (r : BitVec 6), Here s g → sparseWf 0 (seqOf s g).stack = true → 8 ≤ r.toNat → r.toNat ≤ 56 →
    let c := onward s g
    (c.resident < 8 ∨ 247 < c.spilled → Raises (.sysStkspill r) s g .stack 0 0 0) ∧
    (¬ (c.resident < 8 ∨ 247 < c.spilled) → ∃ st : RegFile 64,
      Becomes (.sysStkspill r) s (g.modSeq s.ctx.spare (fun q =>
        { q with lands := q.lands ++ (List.range 8).map (fun j =>
                   { issued := s.cycle, due := s.cycle + 1, pay := .s (r.toNat + j) (sget 0 c.stack j) })
                 ctl := some { c with stack := st, resident := c.resident - 8, spilled := c.spilled + 8 } })) ∧
      ∀ j, sget 0 st j = if j < c.resident - 8 then sget 0 c.stack (j + 8) else sget 0 c.stack j) ∧
    (24 < c.resident ∨ c.spilled < 8 → Raises (.sysStkfill r) s g .stack 0 0 0) ∧
    (¬ (24 < c.resident ∨ c.spilled < 8) → ∃ st : RegFile 64,
      Steers (.sysStkfill r) s g { c with stack := st, resident := c.resident + 8, spilled := c.spilled - 8 } ∧
      ∀ j, sget 0 st j =
        if j < 8 then BitVec.ofNat 64 ((readS s (seqOf s g) (r.toNat + j)).toNat % 2 ^ 56)
        else if j < c.resident + 8 then sget 0 c.stack (j - 8) else sget 0 c.stack j)

/-- SYS EXIT and SYS BRK complete: the bundle's commit ends the gang or halts it with BREAK at the next bundle. EXIT with entries
resident or spilled raises STACK, and in a sub-gang SPLIT_MISMATCH (R162, R163). -/
def Sys2Proof.Claims.ExitAndBreak : Prop :=
  ∀ (s : State) (g : Gang), Here s g →
    Steers .sysBrk s g { onward s g with act := .brk } ∧
    (g.split = true → Raises .sysExit s g .splitMismatch 0 0 0) ∧
    (g.split = false → (seqOf s g).resident ≠ 0 ∨ (seqOf s g).spilled ≠ 0 → Raises .sysExit s g .stack 0 0 0) ∧
    (g.split = false → (seqOf s g).resident = 0 → (seqOf s g).spilled = 0 →
      Steers .sysExit s g { onward s g with act := .exit })

/-- WAIT and BWAIT complete where what they wait for is there: s[D] receives what they saw, 1 cycle on, and without .keep they clear it,
but for event bits that the hardware sets in this cycle, which end set (R132).
Else the bundle waits. In the spare they raise SPLIT_MISMATCH (R150); a BWAIT that names a faulted baton halts the gang with its
record (R331). -/
def Sys2Proof.Claims.Waits : Prop :=
  ∀ (s : State) (g : Gang) (d a : BitVec 6) (x keep : BitVec 1) (m : BitVec 4), Here s g →
    let b : BitVec 32 := (readS s (seqOf s g) a.toNat).setWidth 32
    let done (g' : Gang) (v : Nat) : Gang := (sLand g' s.ctx.spare s.cycle 1 d.toNat (BitVec.ofNat 64 v)).modSeq s.ctx.spare
      (fun q => { q with wait := none })
    let seen := g.events &&& m
    let took := g.batons &&& b
    (s.ctx.spare = true → Raises (.wait d keep x m) s g .splitMismatch 0 0 0) ∧
    (s.ctx.spare = false →
      ((x = 0 ∧ seen ≠ 0) ∨ (x = 1 ∧ seen = m) → Becomes (.wait d keep x m) s (done (if keep = 1 then g else
        { g with events := (g.events &&& ~~~ seen) ||| g.freshEvents }) seen.toNat)) ∧
      (¬ ((x = 0 ∧ seen ≠ 0) ∨ (x = 1 ∧ seen = m)) → KeepsWaiting (.wait d keep x m) s g .event)) ∧
    (s.ctx.spare = true → Raises (.bwait d a keep x) s g .splitMismatch 0 0 0) ∧
    (s.ctx.spare = false → (∀ f, f ∈ g.badBatons → b.getLsbD f.baton = false) →
        ((x = 0 ∧ took = b) ∨ (x = 1 ∧ (took ≠ 0 ∨ b = 0)) → Becomes (.bwait d a keep x) s (done (if keep = 1 then g else
          { g with batons := g.batons &&& ~~~ took }) took.toNat)) ∧
        (¬ ((x = 0 ∧ took = b) ∨ (x = 1 ∧ (took ≠ 0 ∨ b = 0))) → KeepsWaiting (.bwait d a keep x) s g .baton)) ∧
    (s.ctx.spare = false → (∃ f, f ∈ g.badBatons ∧ b.getLsbD f.baton = true) →
      ∃ f, f ∈ g.badBatons ∧ b.getLsbD f.baton = true ∧ Becomes (.bwait d a keep x) s { g with
        raised := g.raised ++ [{ code := f.code, rank := faultRank f.code .s0 0xFF, slot := 0, queue := 0xFF, engmask := 0, detail := f.detail
                                 vaddr := f.vaddr, lanes := 0, reason := f.reason, level := f.level }] })

/-- BAR completes where its barrier is open: a gang-level one at once, a die-level one when every gang of CR_SQDIEMASK has arrived as
often, a package-level one when every member has arrived and its latency has passed. The gang is counted as arrived once, at package level also at its die's barrier, and a FENCE.ar of the level is marked in
every live engine. Else the bundle waits; while a split is outstanding BAR raises SPLIT_MISMATCH. -/
def Sys2Proof.Claims.Barriers : Prop :=
  ∀ (s : State) (g : Gang) (l : BitVec 6), Here s g → l.toNat ≤ 2 → g.arrivals.length = 3 →
    let here := if (seqOf s g).arrived then g else
      { g with arrivals := (List.range 3).map (fun n => g.arrivals.getD n 0 + if n = l.toNat ∨ (n = 0) ∨ (n = 1 ∧ l.toNat = 2) then 1 else 0)
               arriveAt := if l.toNat = 2 then s.cycle else g.arriveAt }.modSeq s.ctx.spare (fun q => { q with arrived := true })
    let t := s.putGang s.ctx.core here
    let open_ := l.toNat = 0 ∨ ((l.toNat = 1 ∨ g.info.ndie = 1) ∧ DieOpen t here) ∨ (l.toNat = 2 ∧ g.info.ndie ≠ 1 ∧ PackOpen t here)
    (g.split = true → Raises (.bar l) s g .splitMismatch 0 0 0) ∧
    (g.split = false → open_ → Becomes (.bar l) s
      ((here.mapAct g.live (fun _ en =>
        { en with fences := en.fences ++ [{ serial := en.serial, kind := 2, scope := l.toNat, from_ := en.regionFrom
                                            inst := here.arrivals.getD l.toNat 0 }]
                  serial := en.serial + 1 })).modSeq s.ctx.spare (fun q => { q with wait := none }))) ∧
    (g.split = false → (l.toNat = 1 ∨ g.info.ndie = 1 ∨ s.ctx.core < 72) → ¬ open_ → Becomes (.bar l) s
      (here.modSeq s.ctx.spare (fun q => { q with wait := some (q.wait.getD (.barrier, s.cycle)) }))) ∧
    (g.split = false → l.toNat = 2 → ¬ PackArrived t here → g.info.ndie ≠ 1 → Becomes (.bar l) s
      (here.modSeq s.ctx.spare (fun q => { q with wait := some (q.wait.getD (.barrier, s.cycle)) })))

end

namespace Sys2Proof.Claims
open Sys2Proof.Machine

/-- The region holds an immediate operation (R40). -/
def urgent (s : State) (g : Gang) : Gang := g.modSeq s.ctx.spare (fun q => { q with immediate := true })

/-- The engines of a set with their next places in program order (R65). -/
def placesOfSet (g : Gang) (m : Mask) : List (Nat × Nat) :=
  ((List.range 16).filter m.getLsbD).map (fun k => (k, (g.eng k).serial))

/-- Bits hi:lo of register d of a shadow set, and the size and kind of an element type code. -/
def bits (r : RegFile 64) (d hi lo : Nat) : Nat := (sget 0 r d).toNat / 2 ^ lo % 2 ^ (hi + 1 - lo)
def sizeOfType (t : Nat) : Nat := if t = 0 ∨ t = 5 then 4 else if t = 1 ∨ t = 2 ∨ t = 6 then 2 else 1
def isIntType (t : Nat) : Prop := 5 ≤ t

/-- Register d of a copy engine's shadow set fails R317. -/
def copyFails (r : RegFile 64) (d : Nat) : Prop :=
  let st := bits r 5 2 0
  let dt := bits r 5 5 3
  let rm := bits r 5 8 6
  (d = 2 ∧ (bits r 2 63 48 ≠ 0 ∨ bits r 2 15 0 = 0 ∨ bits r 2 31 16 = 0 ∨ bits r 2 47 32 = 0)) ∨
  (d = 3 ∧ (bits r 3 31 0 % sizeOfType st ≠ 0 ∨ bits r 3 63 32 % sizeOfType st ≠ 0)) ∨
  (d = 4 ∧ (bits r 4 31 0 % sizeOfType dt ≠ 0 ∨ bits r 4 63 32 % sizeOfType dt ≠ 0)) ∨
  (d = 5 ∧ (bits r 5 63 32 ≠ 0 ∨ bits r 5 15 11 ≠ 0 ∨ 5 ≤ rm ∨ (rm ≠ 0 ∧ ((isIntType st ∧ isIntType dt) ∨ st = dt)) ∨
    (bits r 5 9 9 = 1 ∧ ¬ (isIntType st ∧ isIntType dt ∧ sizeOfType dt < sizeOfType st)) ∨
    (bits r 5 31 16 ≠ 0 ∧ bits r 1 63 60 ≠ 2 ∧ bits r 1 63 60 ≠ 4)))

/-- Register d of a walker's shadow set fails R317. -/
def walkFails (r : RegFile 64) (d : Nat) : Prop :=
  let tx := bits r 4 15 0
  let ty := bits r 4 31 16
  (d = 3 ∧ bits r 3 63 32 = 0) ∨
  (d = 4 ∧ (bits r 4 63 33 ≠ 0 ∨ tx = 0 ∨ (bits r 4 32 32 = 0 ∧ (ty ≠ 0 ∨ 1023 < tx)) ∨
    (bits r 4 32 32 = 1 ∧ (ty = 0 ∨ 127 < tx ∨ 127 < ty)))) ∨
  (d = 5 ∧ (bits r 5 63 16 ≠ 0 ∨ bits r 5 7 2 ≠ 0 ∨ bits r 5 15 8 = 0))

/-- Register d of a collective shadow set fails R336 in a gang. -/
def collFails (g : Gang) (r : RegFile 64) (d : Nat) : Prop :=
  let mask := bits r 3 31 0
  let op := bits r 4 2 0
  (d = 2 ∧ (bits r 2 63 24 ≠ 0 ∨ (op = 4 ∧ bits r 2 23 0 ≠ 0) ∨ (op ≠ 4 ∧ bits r 2 23 0 = 0))) ∨
  (d = 3 ∧ (bits r 3 63 51 ≠ 0 ∨ bits r 3 38 38 ≠ 0 ∨ mask.testBit g.info.pos = false ∨ 2 ^ g.info.ngang ≤ mask ∨
    (bits r 3 39 39 = 0 ∧ bits r 3 37 32 ≠ 0) ∨ (bits r 3 50 40 ≠ 0 ∧ op ≠ 3) ∨
    (bits r 3 39 39 = 0 ∧ (List.range 32).countP mask.testBit ≤ bits r 3 50 40))) ∨
  (d = 4 ∧ (bits r 4 63 32 < 1024 ∨ bits r 4 31 15 ≠ 0 ∨ (op = 4 ∧ (bits r 4 14 8 = 0 ∨ 64 < bits r 4 14 8)) ∨
    (op ≠ 4 ∧ bits r 4 14 8 ≠ 0) ∨ (bits r 4 7 5 ≠ 0 ∧ bits r 4 7 5 ≠ 1 ∧ bits r 4 7 5 ≠ 2 ∧ bits r 4 7 5 ≠ 5) ∨
    (bits r 4 4 3 ≠ 0 ∧ 2 ≤ op) ∨ 4 < op))

/-- The lowest register that fails. -/
def Lowest (fails : Nat → Prop) (d : Nat) : Prop := fails d ∧ ∀ e, e < d → ¬ fails e

/-- A unit of the gang, and the gang with it replaced. -/
def unitOf (g : Gang) (u : Nat) : UnitState := if u = 0 then g.cp0 else if u = 1 then g.cp1 else g.cl
def withUnit (g : Gang) (u : Nat) (x : UnitState) : Gang :=
  if u = 0 then { g with cp0 := x } else if u = 1 then { g with cp1 := x } else { g with cl := x }

/-- The ENGGOs of the core's units: unit number and checks. -/
def enggoRow (g : Gang) (p x y z : BitVec 6) : List (Instr × Nat × (Nat → Prop)) :=
  [(.enggoCp0 p x y z, 0, copyFails g.cp0.shadow), (.enggoCp1 p x y z, 1, copyFails g.cp1.shadow),
   (.enggoCl p x y z, 3, collFails g g.cl.shadow)]

/-- The batons that an ENGGO names: a consumed field equal to the produced one names none (R153). -/
def namesBatons (p x y z : BitVec 6) (l : List Nat) : Prop :=
  ∀ b, b ∈ l ↔ ∃ f : BitVec 6, (f = x ∨ f = y ∨ f = z) ∧ f ≠ p ∧ b = f.toNat

/-- The squad positions that a SIGNAL names (R158). -/
def signalRow (s : State) (g : Gang) (i : Instr) : Option (Nat → Bool) :=
  match i with
  | .signalSr a => some (readS s (seqOf s g) a.toNat).getLsbD
  | .signalSi p => some (fun j => j == p.toNat)
  | .signalOthers => some (fun j => j != g.info.pos)
  | _ => none

end Sys2Proof.Claims

section
open Sys2Proof Sys2Proof.Machine Sys2Proof.Claims

/-- ENGW completes (R152): reg(A) + reg(B), or reg(A) plus the signed immediate, lands 1 cycle on in the shadow register of the core's
unit, or in that of every active engine's walker, each with its own value under E = 1. -/
def Obligations.ShadowWrites : Prop :=
  ∀ (s : State) (g : Gang) (e : BitVec 1) (d a b u : BitVec 6) (v : BitVec 2) (i : BitVec 10), Here s g →
    let unit (n d : Nat) (x : Word) : Gang := g.modSeq s.ctx.spare (fun q =>
      { q with lands := q.lands ++ [{ issued := s.cycle, due := s.cycle + 1, pay := .shadow n d x }] })
    let walkers (x : Nat → Engine → Word) : Gang := g.mapAct s.ctx.act (fun k en => withLand en s.cycle 1 (.iw d.toNat (x k en)))
    (u.toNat = 2 → Becomes (.engwSr e d a b u) s (walkers (fun k en => source s g e k en a + source s g e k en b))) ∧
    (u.toNat ≠ 2 → Becomes (.engwSr 0 d a b u) s
      (unit u.toNat d.toNat (readS s (seqOf s g) a.toNat + readS s (seqOf s g) b.toNat))) ∧
    (v = 2 → Becomes (.engwSi e d a v i) s (walkers (fun k en => wrap ((source s g e k en a).toInt + i.toInt)))) ∧
    (v ≠ 2 → Becomes (.engwSi 0 d a v i) s (unit v.toNat d.toNat (wrap ((readS s (seqOf s g) a.toNat).toInt + i.toInt))))

/-- ENGGO of a copy engine or of the collective port completes (R153): the shadow set goes to the end of the command queue with its
produced and consumed batons, as an immediate operation of every active engine. A shadow set that fails its check raises
ILLEGAL_ENCODING with DETAIL 0x400 + 16·unit + its lowest failing register (R317, R336), and then a full queue QUEUE_OVERFLOW with
DETAIL 0x100 + unit. -/
def Sys2Proof.Claims.EngineOperations : Prop :=
  ∀ (s : State) (g : Gang) (p x y z : BitVec 6), Here s g → ∀ i u fails, (i, u, fails) ∈ enggoRow g p x y z →
    (∀ d, Lowest fails d → Raises i s g .illegalEncoding 0 (0x400 + 16 * u + d) 0) ∧
    ((∀ d, ¬ fails d) → 2 ≤ (unitOf g u).queue.length → Raises i s g .queueOverflow 0 (0x100 + u) 0) ∧
    ((∀ d, ¬ fails d) → (unitOf g u).queue.length < 2 → ∃ op : UnitOp,
      Becomes i s (urgent s (withUnit g u { unitOf g u with queue := (unitOf g u).queue ++ [op] })) ∧
      op.regs = (unitOf g u).shadow ∧ op.baton = p.toNat ∧ namesBatons p x y z op.consumes ∧ op.issued = s.cycle ∧
      op.marks = placesOfSet g s.ctx.act ∧ op.started = none ∧ op.fault = none)

/-- ENGGO.IW completes (R153, R315): every active engine's walker queue takes its own shadow set. It raises ILLEGAL_ENCODING for the
engines whose shadow set fails R317, with the lowest such engine's lowest register in DETAIL, and then QUEUE_OVERFLOW for those
whose queue is full. -/
def Sys2Proof.Claims.WalkerOperations : Prop :=
  ∀ (s : State) (g : Gang) (p x y z : BitVec 6), Here s g →
    let on (k : Nat) : Prop := k < 16 ∧ s.ctx.act.getLsbD k = true
    let bad (k : Nat) : Prop := on k ∧ ∃ d, walkFails (g.eng k).iwShadow d
    let full (k : Nat) : Prop := on k ∧ 2 ≤ (g.eng k).walks.length
    (∀ k d, Lowest bad k → Lowest (walkFails (g.eng k).iwShadow) d → ∃ m : Mask,
      Raises (.enggoIw p x y z) s g .illegalEncoding m (0x420 + d) 0 ∧ ∀ j, j < 16 → (m.getLsbD j = true ↔ bad j)) ∧
    ((∀ k, ¬ bad k) → (∃ k, full k) → ∃ m : Mask,
      Raises (.enggoIw p x y z) s g .queueOverflow m 0x102 0 ∧ ∀ j, j < 16 → (m.getLsbD j = true ↔ full j)) ∧
    ((∀ k, ¬ bad k) → (∀ k, ¬ full k) → ∃ op : IwOp,
      Becomes (.enggoIw p x y z) s (urgent s (({ g with iwOps := g.iwOps ++ [op], iwNext := g.iwNext + 1 } : Gang).mapAct s.ctx.act
        (fun _ en => { en with walks := en.walks ++ [{ id := op.id, regs := en.iwShadow }] }))) ∧
      op.id = g.iwNext ∧ op.baton = p.toNat ∧ namesBatons p x y z op.consumes ∧ op.issued = s.cycle ∧ op.engines = s.ctx.act ∧
      op.marks = placesOfSet g s.ctx.act ∧ op.started = none ∧ op.fault = none)

/-- SIGNAL and LAPSET complete (R158, R159): a signal is on its way to each named position below NGANG, for 24 cycles to the issuer
itself, 60 on its die and 140 elsewhere; LAPSET writes the gate and clears the LAP bit that is not set in this cycle. SIGNAL_DELIVERY
sets the SIGNAL bit of the gang that a due signal names, TIMER_EXPIRY the TIMER bit. -/
def Obligations.Signals : Prop :=
  ∀ (s : State) (g : Gang), Here s g →
    (∀ i named, signalRow s g i = some named → exec i s = .next
      { s.putGang s.ctx.core (urgent s g) with
        signals := s.signals ++ ((List.range 32).filter (fun j => named j && decide (j < g.info.ngang))).map (fun j =>
          { due := s.cycle + if j = g.info.pos then 24 else if g.info.sameDie.getLsbD j then 60 else 140
            who := (g.info.handle, g.info.squad, j), from_ := s.ctx.core, marks := placesOfSet g s.ctx.act }) }) ∧
    (∀ a : BitVec 6, Becomes (.lapsetSr a) s
      { g with events := (g.events &&& ~~~ 1#4) ||| g.freshEvents, lapGate := (readS s (seqOf s g) a.toNat).setWidth 16 }) ∧
    (∀ h l : BitVec 4, ∃ m : Mask, Becomes (.lapsetSi h l) s
        { g with events := (g.events &&& ~~~ 1#4) ||| g.freshEvents, lapGate := m } ∧
      ∀ k, k < 16 → (m.getLsbD k = true ↔ l.toNat ≤ k ∧ k ≤ h.toNat)) ∧
    (g.timerDue = true → Becomes .timerExpiry s
      { g with events := g.events ||| 8#4, freshEvents := g.freshEvents ||| 8#4, timerDue := false }) ∧
    (∀ p rest c h, s.signals = p :: rest → p.due ≤ s.cycle → gateOpen s p.from_ p.marks = true → c < 72 → s.gang c = some h →
      (h.info.handle, h.info.squad, h.info.pos) = p.who → (∀ b h', b < c → s.gang b = some h' →
        (h'.info.handle, h'.info.squad, h'.info.pos) ≠ p.who) →
      exec .signalDelivery s = .next ({ s with signals := rest }.putGang c
        { h with events := h.events ||| 4#4, freshEvents := h.freshEvents ||| 4#4 }))

/-- SYS LAUNCH and SYS CANCEL complete (R164): the submission or cancel is on its way to the scheduler for 60 cycles (R376), behind the
places of the active engines in program order. A launch queue outside 32 to 63 is ILLEGAL_ENCODING with DETAIL 0x500, then a tagged
or long address PAGE with DETAIL 1, then one that is not a multiple of 256 ALIGNMENT. A gang that cancels its own task issues no
later bundle (R382). -/
def Obligations.Submissions : Prop :=
  ∀ (s : State) (g : Gang) (a b : BitVec 6), Here s g →
    let x := readS s (seqOf s g) a.toNat
    let q := (readS s (seqOf s g) b.toNat).toNat
    let queueOk := 32 ≤ q ∧ q ≤ 63
    (¬ queueOk → Raises (.sysLaunch a b) s g .illegalEncoding 0 0x500 0) ∧
    (queueOk → x.toNat / 2 ^ 48 ≠ 0 → Raises (.sysLaunch a b) s g .page 0 1 x) ∧
    (queueOk → x.toNat / 2 ^ 48 = 0 → x.toNat % 256 ≠ 0 → Raises (.sysLaunch a b) s g .alignment 0 0 x) ∧
    (queueOk → x.toNat / 2 ^ 48 = 0 → x.toNat % 256 = 0 → exec (.sysLaunch a b) s = .next
      { s.putGang s.ctx.core (urgent s g) with
        sched := { s.sched with coming := s.sched.coming ++
          [{ due := s.cycle + 60, marks := placesOfSet g s.ctx.act
             sub := { queue := q, addr := x, asid := g.info.asid, core := s.ctx.core, spare := s.ctx.spare } }] } }) ∧
    exec (.sysCancel a) s = .next
      { s.putGang s.ctx.core { urgent s g with selfCancelled := g.selfCancelled || x.toNat % 2 ^ 32 == g.info.handle } with
        sched := { s.sched with cancels := s.sched.cancels ++
          [{ due := s.cycle + 60, handle := x.toNat % 2 ^ 32, asid := g.info.asid, core := s.ctx.core
             marks := placesOfSet g s.ctx.act }] } }

end

namespace Sys2Proof.Claims
open Sys2Proof.Machine

/-- The queue that a source code names (R88): its number, and whether the code pops it. -/
def queueCode (c : Nat) : Option (Nat × Bool) :=
  if c = 384 then some (0, true) else if c = 385 then some (1, true) else if c = 386 then some (0, false)
  else if c = 387 then some (1, false) else if c = 388 then some (3, true) else none

/-- Queue q of an engine, and the entry that a bundle of this cycle finds at its head: the first that no earlier bundle popped. -/
def queueOf (en : Engine) (q : Nat) : List QEntry := if q = 0 then en.q0 else if q = 1 then en.q1 else en.iq
def headOf (s : State) (en : Engine) (q : Nat) : Option QEntry :=
  (queueOf en q).find? (fun e => e.popped.isNone || e.popped == some s.cycle)

/-- Lane l of engine k is enabled under mask field m (R197). -/
def enabled (s : State) (k : Nat) (en : Engine) (m : BitVec 3) (l : Nat) : Prop :=
  m = 0 ∨ (readE s k en m.toNat).getLsbD l = true

/-- Every queue that the source codes name has an entry at its head in every active engine, and none whose fault the bundle would meet
(R172, R192, R198). -/
def Poppable (s : State) (g : Gang) (f : VFields) (codes : List Nat) : Prop :=
  ∀ k, k < 16 → s.ctx.act.getLsbD k = true → ∀ c q p, c ∈ codes → queueCode c = some (q, p) →
    ∃ e, headOf s (g.eng k) q = some e ∧
      ((∀ x, e.result ≠ some (.fault x)) ∨ ∀ l, l < wBits f.w.toNat / 32 → ¬ enabled s k (g.eng k) f.m l)

/-- The same of a limb-chain instruction, which no lane mask spares a fault (R289): every queue has an entry, and none with a fault. -/
def Faultless (s : State) (g : Gang) (codes : List Nat) : Prop :=
  ∀ k, k < 16 → s.ctx.act.getLsbD k = true → ∀ c q p, c ∈ codes → queueCode c = some (q, p) →
    ∃ e, headOf s (g.eng k) q = some e ∧ ∀ x, e.result ≠ some (.fault x)

/-- A V result in one engine: the elements of w bits that on names land in register d, lat cycles on, with the values given, and with
them the union of their flags; where there is none nothing lands. -/
def Writes (s : State) (w lat d : Nat) (on : Nat → Prop) (elem : Nat → Nat × Nat) (L : List ELand) : Prop :=
  ∃ (mask v : Vec) (fl : Nat),
    ((∃ e, on e) → L = [{ issued := s.cycle, due := s.cycle + lat, pay := EPay.v d mask v }] ++
      if fl = 0 then [] else [{ issued := s.cycle, due := s.cycle + lat, pay := EPay.flags fl }]) ∧
    ((¬ ∃ e, on e) → L = []) ∧
    (∀ b, b < 1024 → (mask.getLsbD b = true ↔ on (b / w))) ∧
    (∀ e, on e → v.toNat / 2 ^ (w * e) % 2 ^ w = (elem e).1 % 2 ^ w) ∧
    ∀ j, (fl.testBit j = true ↔ ∃ e, on e ∧ (elem e).2.testBit j = true)

/-- The elements of w bits below W whose lane is enabled (R196, R197). -/
def onLanes (s : State) (k : Nat) (en : Engine) (f : VFields) (w e : Nat) : Prop :=
  e < wBits f.w.toNat / w ∧ enabled s k en f.m (e * w / 32)

/-- The V result of an elementwise instruction. -/
def VLands (s : State) (k : Nat) (en : Engine) (f : VFields) (w lat d : Nat) (elem : Nat → Nat × Nat) (L : List ELand) : Prop :=
  Writes s w lat d (onLanes s k en f w) elem L

/-- exec lands L in every active engine, performs the pops of the source codes there, and changes nothing else. -/
def LandsV (i : Instr) (s : State) (g : Gang) (codes : List Nat) (L : Nat → Engine → List ELand) : Prop :=
  Becomes i s (g.mapAct s.ctx.act (fun k en => ({ en with lands := en.lands ++ L k en }).pops s.cycle codes))

/-- An elementwise instruction: its elements' width, latency, source codes, and in engine k the value and flags of each element. -/
structure VRow where
  w : Nat
  lat : Nat
  codes : List Nat
  elem : Nat → Engine → Nat → Nat × Nat

/-- A row by its parts. -/
def vrow (w lat : Nat) (codes : List Nat) (elem : Nat → Engine → Nat → Nat × Nat) : VRow := ⟨w, lat, codes, elem⟩

/-- The statement of an elementwise instruction. -/
def Elementwise (i : Instr) (s : State) (g : Gang) (f : VFields) (r : VRow) : Prop :=
  Poppable s g f r.codes → ∃ L : Nat → Engine → List ELand, LandsV i s g r.codes L ∧
    ∀ k en, VLands s k en f r.w r.lat f.d.toNat (r.elem k en) (L k en)

/-- The type that T names: its width, and whether it is an integer type. -/
def widthT (t : BitVec 3) : Nat := if t.toNat = 0 ∨ t.toNat = 5 then 32 else if t.toNat = 1 ∨ t.toNat = 2 ∨ t.toNat = 6 then 16 else 8
def intT (t : BitVec 3) : Prop := 5 ≤ t.toNat

/-- Element e of w bits of a source, and of the register after A. -/
def srcElem (s : State) (k : Nat) (en : Engine) (t : BitVec 3) (w : Nat) (code : BitVec 9) (e : Nat) : Nat :=
  (vSource s k en (etype t) code.toNat).toNat / 2 ^ (w * e) % 2 ^ w
def nextElem (s : State) (k : Nat) (en : Engine) (w : Nat) (code : BitVec 9) (e : Nat) : Nat :=
  (readV s k en (code.toNat + 1)).toNat / 2 ^ (w * e) % 2 ^ w

/-- A number as the low w bits of its two's complement, and clamped. -/
def toBits (z : Int) (w : Nat) : Nat := (z % 2 ^ w).toNat
def clamp (lo hi z : Int) : Int := if z < lo then lo else if hi < z then hi else z

/-- The integer forms of the V slot in whole-number arithmetic (R202-R213, R216): x, y and z are the elements of A, B and the register
after A, e the index. -/
def vIntRow (s : State) (i : Instr) : Option (VFields × VRow) :=
  let two (f : VFields) (v : Nat → Nat → Nat → Nat) : Option (VFields × VRow) :=
    some (f, vrow (widthT f.t) 2 [f.a.toNat, f.b.toNat] (fun k en e =>
      (v (srcElem s k en f.t (widthT f.t) f.a e) (srcElem s k en f.t (widthT f.t) f.b e) e, 0)))
  let acc (f : VFields) (v : Int → Int → Int → Int) : Option (VFields × VRow) :=
    some (f, vrow (widthT f.t) 2 [f.a.toNat, f.b.toNat] (fun k en e =>
      (toBits (v (signedField (srcElem s k en f.t (widthT f.t) f.a e) (widthT f.t)) (signedField (srcElem s k en f.t (widthT f.t) f.b e) (widthT f.t))
        (signedField (nextElem s k en (widthT f.t) f.a e) (widthT f.t))) (widthT f.t), 0)))
  let one (f : VFields) (v : Nat → Nat) : Option (VFields × VRow) :=
    some (f, vrow (widthT f.t) 2 [f.a.toNat] (fun k en e => (v (srcElem s k en f.t (widthT f.t) f.a e), 0)))
  match i with
  | .vadd f => acc f (fun x y _ => x + y)
  | .vsub f => acc f (fun x y _ => x - y)
  | .vmul f => acc f (fun x y _ => x * y)
  | .vfma f => acc f (fun x y z => x * y + z)
  | .vfnma f => acc f (fun x y z => -(x * y) + z)
  | .vmulh f => two f (fun x y _ => if f.c = 1 then x * y / 2 ^ widthT f.t
      else toBits (signedField x (widthT f.t) * signedField y (widthT f.t) / 2 ^ widthT f.t) (widthT f.t))
  | .vadds f => two f (fun x y _ =>
      let w := widthT f.t
      let sx := signedField x w
      let sy := signedField y w
      let signed (z : Int) : Nat := toBits (clamp (-2 ^ (w - 1)) (2 ^ (w - 1) - 1) z) w
      let unsigned (z : Int) : Nat := toBits (clamp 0 (2 ^ w - 1) z) w
      if f.c = 0 then signed (sx + sy) else if f.c = 1 then signed (sx - sy) else if f.c = 2 then unsigned (x + y) else unsigned (x - y))
  | .vmin f => two f (fun x y _ => if f.c = 1 then min x y else toBits (min (signedField x (widthT f.t)) (signedField y (widthT f.t))) (widthT f.t))
  | .vmax f => two f (fun x y _ => if f.c = 1 then max x y else toBits (max (signedField x (widthT f.t)) (signedField y (widthT f.t))) (widthT f.t))
  | .vabs f => one f (fun x => toBits (signedField x (widthT f.t)).natAbs (widthT f.t))
  | .vneg f => one f (fun x => toBits (-signedField x (widthT f.t)) (widthT f.t))
  | .vshl f => two f (fun x y _ => toBits (x * 2 ^ y) (widthT f.t))
  | .vshr f => two f (fun x y _ => x / 2 ^ y)
  | .vsra f => two f (fun x y _ => toBits (signedField x (widthT f.t) / 2 ^ y) (widthT f.t))
  | .viota f => two f (fun x y e => toBits (signedField x (widthT f.t) + e * signedField y (widthT f.t)) (widthT f.t))
  | .vpopc f => one f (fun x => (List.range (widthT f.t)).countP x.testBit)
  | .vclz f => one f (fun x => ((List.range (widthT f.t)).takeWhile (fun j => !x.testBit (widthT f.t - 1 - j))).length)
  | .vand f => two f (fun x y _ => x &&& y)
  | .vor f => two f (fun x y _ => x ||| y)
  | .vxor f => two f (fun x y _ => x ^^^ y)
  | .vmov f => one f (fun x => x)
  | .vdot4 f => some (f, vrow 32 4 [f.a.toNat, f.b.toNat] (fun k en e =>
      let byte (x j : Nat) : Int := if f.c = 1 then (x / 2 ^ (8 * j) % 2 ^ 8 : Nat) else signedField (x / 2 ^ (8 * j) % 2 ^ 8) 8
      let p (j : Nat) : Int := byte (srcElem s k en f.t 32 f.a e) j * byte (srcElem s k en f.t 32 f.b e) j
      (toBits (p 0 + p 1 + p 2 + p 3 + signedField (nextElem s k en 32 f.a e) 32) 32, 0)))
  | _ => none

/-- The instructions whose bits do not depend on a type (R210, R214). -/
def typeless (i : Instr) : Prop :=
  match i with
  | .vand _ => True
  | .vor _ => True
  | .vxor _ => True
  | .vmov _ => True
  | _ => False

/-- The floating forms by exact values, each rounded once (R202, R204, R205, R206, R208). -/
def vFloatRow (s : State) (i : Instr) : Option (VFields × VRow) :=
  let fmt (f : VFields) : FFmt := match f.t.toNat with
    | 1 => .bf16
    | 2 => .fp16
    | 3 => .e4m3
    | 4 => .e5m2
    | _ => .fp32
  let mode (f : VFields) : RMode := match f.rm.toNat with
    | 1 => .rtz
    | 2 => .rup
    | 3 => .rdn
    | 4 => .rod
    | _ => .rne
  let x (f : VFields) (k : Nat) (en : Engine) (e : Nat) : Nat := srcElem s k en f.t (widthT f.t) f.a e
  let y (f : VFields) (k : Nat) (en : Engine) (e : Nat) : Nat := srcElem s k en f.t (widthT f.t) f.b e
  let z (f : VFields) (k : Nat) (en : Engine) (e : Nat) : Nat := nextElem s k en (widthT f.t) f.a e
  let sum (f : VFields) (terms : FVal → FVal → FVal → List (Option FVal)) (three : Bool) : Option (VFields × VRow) :=
    some (f, vrow (widthT f.t) 4 [f.a.toNat, f.b.toNat] (fun k en e =>
      let u := fval (fmt f) (x f k en e)
      let v := fval (fmt f) (y f k en e)
      let t := fval (fmt f) (z f k en e)
      sumRound (fmt f) (mode f) (terms u v t) (u.isSnan || v.isSnan || (three && t.isSnan))))
  let pick (f : VFields) (most : Bool) : Option (VFields × VRow) :=
    some (f, vrow (widthT f.t) 4 [f.a.toNat, f.b.toNat] (fun k en e =>
      let u := fval (fmt f) (x f k en e)
      let v := fval (fmt f) (y f k en e)
      let first := if u.isZero ∧ v.isZero then (u.sign && !v.sign) else u.lt v
      (if u.isNan ∧ v.isNan then (fmt f).dnan else if u.isNan then y f k en e else if v.isNan then x f k en e
       else if first = most then y f k en e else x f k en e, 0)))
  match i with
  | .vadd f => sum f (fun u v _ => [some u, some v]) false
  | .vsub f => sum f (fun u v _ => [some u, some v.neg]) false
  | .vmul f => sum f (fun u v _ => [mulVal u v]) false
  | .vfma f => sum f (fun u v t => [mulVal u v, some t]) true
  | .vfnma f => sum f (fun u v t => [(mulVal u v).map FVal.neg, some t]) true
  | .vmin f => pick f false
  | .vmax f => pick f true
  | .vabs f => some (f, vrow (widthT f.t) 2 [f.a.toNat] (fun k en e => (x f k en e % 2 ^ (widthT f.t - 1), 0)))
  | .vneg f => some (f, vrow (widthT f.t) 2 [f.a.toNat] (fun k en e =>
      ((x f k en e + 2 ^ (widthT f.t - 1)) % 2 ^ widthT f.t, 0)))
  | .vclass f => some (f, vrow (widthT f.t) 2 [f.a.toNat] (fun k en e =>
      let neg := 2 ^ (widthT f.t - 1) ≤ x f k en e
      let normal := x f k en e / 2 ^ (fmt f).mbits % 2 ^ (fmt f).ebits ≠ 0
      (match fval (fmt f) (x f k en e) with
       | .nan signalling => if signalling then 8 else 9
       | .inf _ => if neg then 0 else 7
       | .fin _ m _ => if m = 0 then (if neg then 3 else 4) else if normal then (if neg then 1 else 6) else (if neg then 2 else 5), 0)))
  | .vdot4 f => some (f, vrow 32 4 [f.a.toNat, f.b.toNat] (fun k en e =>
      let a (j : Nat) : FVal := fval (fmt f) (srcElem s k en f.t 32 f.a e / 2 ^ (8 * j) % 2 ^ 8)
      let b (j : Nat) : FVal := fval (fmt f) (srcElem s k en f.t 32 f.b e / 2 ^ (8 * j) % 2 ^ 8)
      let t := fval .fp32 (nextElem s k en 32 f.a e)
      sumRound .fp32 (mode f) [mulVal (a 0) (b 0), mulVal (a 1) (b 1), mulVal (a 2) (b 2), mulVal (a 3) (b 3), some t]
        ((a 0).isSnan || (a 1).isSnan || (a 2).isSnan || (a 3).isSnan || (b 0).isSnan || (b 1).isSnan || (b 2).isSnan || (b 3).isSnan ||
          t.isSnan)))
  | _ => none

/-- The conditions of VCMP on integers (R207). -/
def intCond (c x y w : Nat) : Bool :=
  match c with
  | 0 => decide (x = y)
  | 1 => decide (x ≠ y)
  | 2 => decide (signedField x w < signedField y w)
  | 3 => decide (signedField x w ≤ signedField y w)
  | 4 => decide (signedField y w < signedField x w)
  | 5 => decide (signedField y w ≤ signedField x w)
  | 6 => decide (x < y)
  | _ => decide (y ≤ x)

/-- The conditions of VCMP on floating values; 6 is unordered and 7 ordered (R207). -/
def floatCond (c : Nat) (u v : FVal) : Bool :=
  let nan := u.isNan || v.isNan
  match c with
  | 0 => !nan && u.eqv v
  | 1 => nan || !u.eqv v
  | 2 => !nan && u.lt v
  | 3 => !nan && (u.lt v || u.eqv v)
  | 4 => !nan && v.lt u
  | 5 => !nan && (v.lt u || v.eqv u)
  | 6 => nan
  | _ => !nan

/-- Bits of e[d] that land 2 cycles on: those that on names, with the values of val; where there is none nothing lands. -/
def EBitsLand (s : State) (d : Nat) (on : Nat → Prop) (val : Nat → Bool) (L : List ELand) : Prop :=
  ∃ mask v : Word,
    ((∃ b, on b) → L = [{ issued := s.cycle, due := s.cycle + 2, pay := .e d mask v }]) ∧ ((¬ ∃ b, on b) → L = []) ∧
    (∀ b, b < 64 → (mask.getLsbD b = true ↔ on b)) ∧ ∀ b, b < 64 → on b → v.getLsbD b = val b

end Sys2Proof.Claims

section
open Sys2Proof Sys2Proof.Machine Sys2Proof.Claims

/-- The sources of the V slot (R88-R90, R196): a register, the data at the head of a queue, an e-register in every element, or a small
integer encoded in the type; an index names an e-register of the range e0-e15, e0 reading as the engine's number. -/
def Sys2Proof.Claims.VectorSources : Prop :=
  ∀ (s : State) (k : Nat) (en : Engine) (t : BitVec 3) (c e : Nat), e < 1024 / widthT t →
    let w := widthT t
    let elem : Nat := (vSource s k en (etype t) c).toNat / 2 ^ (w * e) % 2 ^ w
    (c < 320 → vSource s k en (etype t) c = readV s k en c) ∧
    (∀ q p h v, queueCode c = some (q, p) → headOf s en q = some h → h.result = some (.data v) → h.mixed = false → vSource s k en (etype t) c = v) ∧
    (416 ≤ c → c < 432 → elem = (readE s k en (c - 416)).toNat % 2 ^ w) ∧
    (480 ≤ c → c < 512 → intT t → elem = toBits ((c : Int) - 496) w) ∧
    (480 ≤ c → c < 512 → t = 0 → (fval .fp32 elem).dy.eqv (Dy.ofInt ((c : Int) - 496)) = true ∧ (fval .fp32 elem).isNan = false)

/-- A pop, and what it raises (R89, R173, R192), shown on VMOV: the head entry is marked popped in this cycle and its data move; an empty
q0 or q1 raises QUEUE_UNDERFLOW with the queue in DETAIL, and an entry with a fault raises it under its queue. -/
def Sys2Proof.Claims.QueuePops : Prop :=
  ∀ (s : State) (g : Gang) (f : VFields) (q : Nat) (p : Bool), Here s g → queueCode f.a.toNat = some (q, p) → q ≠ 3 →
    (∀ k, k < 16 → s.ctx.act.getLsbD k = true → ∃ l, l < wBits f.w.toNat / 32 ∧ enabled s k (g.eng k) f.m l) →
    (∀ k, k < 16 → s.ctx.act.getLsbD k = true → (∀ j, j < k → s.ctx.act.getLsbD j = false) →
      (∀ j, k < j → j < 16 → s.ctx.act.getLsbD j = true → ∃ e v, headOf s (g.eng j) q = some e ∧ e.result = some (.data v)) →
      (headOf s (g.eng k) q = none → Raises (.vmov f) s g .queueUnderflow (BitVec.ofNat 16 (2 ^ k)) q 0) ∧
      (∀ e x, headOf s (g.eng k) q = some e → e.result = some (.fault x) → Becomes (.vmov f) s { g with raised := g.raised ++
        [{ code := x.code, rank := faultRank x.code s.ctx.slot q, slot := slotNum s.ctx.slot, queue := q
           engmask := BitVec.ofNat 16 (2 ^ k), detail := x.detail, vaddr := x.vaddr, lanes := x.lanes, reason := x.reason
           level := x.level }] })) ∧
    ∀ (en : Engine) (old : List QEntry) (h : QEntry) (rest : List QEntry),
      queueOf en q = old ++ h :: rest → (∀ e, e ∈ old → ∃ c, e.popped = some c ∧ c ≠ s.cycle) →
      (h.popped = none ∨ h.popped = some s.cycle) →
      queueOf (en.pops s.cycle [f.a.toNat]) q = (if p then old ++ { h with popped := some s.cycle } :: rest else old ++ h :: rest) ∧
      (en.pops s.cycle [f.a.toNat]).lands = en.lands ∧ (en.pops s.cycle [f.a.toNat]).sq = en.sq ∧
      queueOf (en.pops s.cycle [f.a.toNat]) (1 - q) = queueOf en (1 - q) ∧ (en.pops s.cycle [f.a.toNat]).iq = en.iq

/-- The integer and bitwise instructions of the V slot complete: every enabled element below W lands with its value in whole-number
arithmetic at the published latency, no other bit is written, and no flag is set (R196-R198, R202-R206, R210-R214). -/
def Obligations.VectorIntegers : Prop :=
  ∀ (s : State) (g : Gang) (i : Instr) (f : VFields) (r : VRow), Here s g → vIntRow s i = some (f, r) → intT f.t ∨ typeless i →
    Elementwise i s g f r

/-- The floating instructions of the V slot complete: each element is the exact result rounded once, with R202's flags, and lands with
them at the published latency (R202, R204-R206, R208). -/
def Obligations.VectorFloats : Prop :=
  ∀ (s : State) (g : Gang) (i : Instr) (f : VFields) (r : VRow), Here s g → vFloatRow s i = some (f, r) → ¬ intT f.t →
    Elementwise i s g f r

/-- VCMP, VSEL, VEXT, VINS and VXFER complete (R207, R209, R215, R216): conditions by element or by lane into e[D]; a choice by the bits
of e[C]; one element out and in; a register named directly or through e[C], which past the allocation raises REG_RANGE in the
engines with an enabled lane. -/
def Obligations.VectorSelections : Prop :=
  ∀ (s : State) (g : Gang) (f : VFields), Here s g →
    let w := widthT f.t
    let n := wBits f.w.toNat
    let x (k : Nat) (en : Engine) (e : Nat) : Nat := srcElem s k en f.t w f.a e
    let y (k : Nat) (en : Engine) (e : Nat) : Nat := srcElem s k en f.t w f.b e
    let both := [f.a.toNat, f.b.toNat]
    let cond (k : Nat) (en : Engine) (e : Nat) : Bool :=
      if 5 ≤ f.t.toNat then intCond (f.c.toNat % 8) (x k en e) (y k en e) w
      else floatCond (f.c.toNat % 8) (fval (etype f.t).fmt (x k en e)) (fval (etype f.t).fmt (y k en e))
    let index (k : Nat) (en : Engine) : Nat := srcElem s k en 5 32 f.b 0
    (Poppable s g f both → ∃ L, LandsV (.vcmp f) s g both L ∧ ∀ k en,
      (f.c.toNat < 8 → EBitsLand s f.d.toNat (fun b => b < n / w ∧ enabled s k en f.m (b * w / 32)) (cond k en) (L k en)) ∧
      (8 ≤ f.c.toNat → EBitsLand s f.d.toNat (fun b => b < n / 32 ∧ enabled s k en f.m b)
        (fun b => (List.range (32 / w)).any (fun j => cond k en (b * (32 / w) + j))) (L k en))) ∧
    Elementwise (.vsel f) s g f (vrow w 2 both (fun k en e =>
      (if (readE s k en f.c.toNat).getLsbD e then x k en e else y k en e, 0))) ∧
    (let out (k : Nat) (en : Engine) : Word := if n / w ≤ index k en then 0
       else if f.c = 1 then wrap (signedField (x k en (index k en)) w) else BitVec.ofNat 64 (x k en (index k en))
     Poppable s g f both → LandsV (.vext f) s g both (fun k en =>
       [{ issued := s.cycle, due := s.cycle + 2, pay := .e f.d.toNat (BitVec.allOnes 64) (out k en) }])) ∧
    Elementwise (.vins f) s g f (vrow w 2 both (fun k en e =>
      (if e = index k en then (readE s k en f.c.toNat).toNat % 2 ^ w else x k en e, 0))) ∧
    (let reg (k : Nat) (en : Engine) : Nat := f.a.toNat + if f.c = 0 then 0 else (readE s k en f.c.toNat).toNat % 2 ^ 9
     let bad (k : Nat) : Prop := k < 16 ∧ s.ctx.act.getLsbD k = true ∧ f.c ≠ 0 ∧ (∃ l, l < n / 32 ∧ enabled s k (g.eng k) f.m l) ∧
       inAlloc g.info.regsA g.info.regsB g.info.regsC g.info.regsS (reg k (g.eng k)) = false
     ((∀ k, ¬ bad k) → Elementwise (.vxfer f) s g f (vrow w 2 [] (fun k en e =>
       ((readV s k en (reg k en)).toNat / 2 ^ (w * e) % 2 ^ w, 0)))) ∧
     ∀ k, Lowest bad k → ∃ m : Mask, Raises (.vxfer f) s g .regRange m (reg k (g.eng k)) 0 ∧
       ∀ j, j < 16 → (m.getLsbD j = true ↔ bad j))

end

namespace Sys2Proof.Claims
open Sys2Proof.Machine

/-- Entry j of a codebook as a value (R218, R219). -/
def bookAt (cb : BitVec 256) (j : Nat) : Nat := cb.toNat / 2 ^ (16 * j) % 2 ^ 16
def bookVal (cb : BitVec 256) (j : Nat) : FVal := fval .bf16 (bookAt cb j)

/-- A number of the book's entries that is the best by an order, the lowest-indexed of several. -/
def BestOf (can : Nat → Prop) (better : Nat → Nat → Bool) (c : Nat) : Prop :=
  can c ∧ (∀ j, can j → better j c = false) ∧ ∀ j, j < c → can j → better c j = true

/-- R219's choice of a code for a value, and its flags. -/
def Encodes (x : FVal) (cb : BitVec 256) (r : Nat × Nat) : Prop :=
  let fin (j : Nat) : Prop := j < 16 ∧ ∃ n m e, bookVal cb j = .fin n m e
  let inf (n : Bool) (j : Nat) : Prop := j < 16 ∧ bookVal cb j = .inf n
  let nan (j : Nat) : Prop := j < 16 ∧ (bookVal cb j).isNan = true
  let gap (j : Nat) : Dy := ((x.dy).add (bookVal cb j).dy.neg).abs
  let found : Prop := match x with
    | .fin n _ _ => (∃ j, fin j) ∨ ∃ j, inf n j
    | .inf n => (∃ j, inf n j) ∨ ∃ j, fin j
    | .nan _ => ∃ j, nan j
  let same : Prop := (x.isNan = true ∧ (bookVal cb r.1).isNan = true) ∨ (x.isNan = false ∧ x.eqv (bookVal cb r.1) = true)
  (match x with
   | .fin n _ _ => ((∃ j, fin j) → BestOf fin (fun a b => (gap a).lt (gap b)) r.1) ∧ ((¬ ∃ j, fin j) → (∃ j, inf n j) → Lowest (inf n) r.1)
   | .inf n => ((∃ j, inf n j) → Lowest (inf n) r.1) ∧
       ((¬ ∃ j, inf n j) → (∃ j, fin j) → BestOf fin (fun a b =>
         if n then (bookVal cb a).lt (bookVal cb b) else (bookVal cb b).lt (bookVal cb a)) r.1)
   | .nan _ => (∃ j, nan j) → Lowest nan r.1) ∧
  (¬ found → r.1 = 0) ∧
  (r.2.testBit 0 = true ↔ ¬ found ∨ x.isSnan = true) ∧ (r.2.testBit 4 = true ↔ ¬ same) ∧ r.2 &&& 0x11 = r.2

/-- The candidate comes before the entry, by value then index (R221). -/
def Before (t : EType) (smallest : Bool) (c e : Nat × Nat) : Prop :=
  match t with
  | .int w =>
    let x := signedField c.1 w
    let y := signedField e.1 w
    if x = y then c.2 < e.2 else if smallest then x < y else y < x
  | .flt f =>
    let x := fval f c.1
    let y := fval f e.1
    if x.isNan = true ∧ y.isNan = true then c.2 < e.2
    else if x.isNan = true then False
    else if y.isNan = true then True
    else if x.eqv y = true then c.2 < e.2
    else if smallest then x.lt y = true else y.lt x = true

/-- R288's checks of engine k, by reason. -/
def limbFails (s : State) (g : Gang) (f : VFields) (k : Nat) : Option Nat :=
  let b := (g.eng k).bind
  if b.code = 0 then some 2
  else if f.m ≠ 0 ∧ (readE s k (g.eng k) f.m.toNat).toNat % 2 ^ 32 ≠ 2 ^ 32 - 1 then some 3
  else if (List.range 16).any (fun j => decide (b.base ≤ j) && decide (j < b.base + b.engs) && !s.ctx.act.getLsbD j) then some 4
  else none

/-- The value of a register over the engines of a group, the base engine's bits lowest (R284). -/
def joined (rd : Nat → Vec) (base n : Nat) : Nat := ((List.range n).map (fun j => (rd (base + j)).toNat * 2 ^ (1024 * j))).sum

/-- R290 and R291 for one chain of n bits: X(A), X(B) and the scalar w give the result, the high word, and the bits of e[C]. -/
structure Chain where
  r : Nat
  h : Nat := 0
  low : Bool := false
  mid : Bool := false
  top : Bool := false

def chainRow (i : Instr) : Option (VFields × List Nat × (Bool × Bool × Bool) × (Nat → Nat → Nat → Nat → Chain)) :=
  let out (z : Int) (n : Nat) : Bool := decide (z < -2 ^ (n - 1) ∨ 2 ^ (n - 1) - 1 < z)
  match i with
  | .vladd f => some (f, [], (true, false, true), fun n x y _ =>
      { r := (x + y) % 2 ^ n, low := decide (2 ^ n ≤ x + y), mid := out (signedField x n + signedField y n) n })
  | .vlsub f => some (f, [], (true, false, true), fun n x y _ =>
      { r := toBits ((x : Int) - y) n, low := decide (x < y), mid := out (signedField x n - signedField y n) n })
  | .vlshl f => some (f, [f.b.toNat], (true, false, false), fun n x _ w => { r := x * 2 ^ w % 2 ^ n })
  | .vlshr f => some (f, [f.b.toNat], (true, false, false), fun n x _ w =>
      { r := if f.c = 1 then toBits (signedField x n / 2 ^ w) n else x / 2 ^ w })
  | .vlcmp f => some (f, [], (false, false, true), fun n x y _ =>
      { r := 0, low := decide (x < y), mid := decide (x = y), top := decide (signedField x n < signedField y n) })
  | .vlmul f => some (f, [f.b.toNat], (true, true, false), fun n x _ w => { r := x * w % 2 ^ n, h := x * w / 2 ^ n })
  | _ => none

/-- The nine functions with their opcodes and latencies (R225, R230). -/
def sfRow (i : Instr) : Option (Nat × Nat × BitVec 2 × BitVec 2 × BitVec 5 × BitVec 5 × BitVec 3) :=
  match i with
  | .rcp w t d a m => some (1, 8, w, t, d, a, m)
  | .rsq w t d a m => some (2, 8, w, t, d, a, m)
  | .sqrt w t d a m => some (3, 8, w, t, d, a, m)
  | .exp2 w t d a m => some (4, 10, w, t, d, a, m)
  | .log2 w t d a m => some (5, 10, w, t, d, a, m)
  | .tanh w t d a m => some (6, 12, w, t, d, a, m)
  | .sint w t d a m => some (7, 12, w, t, d, a, m)
  | .cost w t d a m => some (8, 12, w, t, d, a, m)
  | .erf w t d a m => some (9, 12, w, t, d, a, m)
  | _ => none

/-- Zero, one and infinity of a format with a sign. -/
def zeroPat (f : FFmt) (n : Bool) : Nat := if n then 2 ^ (f.size - 1) else 0
def onePat (f : FFmt) (n : Bool) : Nat := zeroPat f n + f.bias * 2 ^ f.mbits
def infPat (f : FFmt) (n : Bool) : Nat := zeroPat f n + (2 ^ f.ebits - 1) * 2 ^ f.mbits

/-- R229's table: the results and flags for −∞, −0, +0 and +∞. -/
def specials (op : Nat) (f : FFmt) : List (Nat × Nat) :=
  let bad := (f.dnan, 1)
  match op with
  | 1 => [(zeroPat f true, 0), (infPat f true, 2), (infPat f false, 2), (zeroPat f false, 0)]
  | 2 => [bad, (infPat f true, 2), (infPat f false, 2), (zeroPat f false, 0)]
  | 3 => [bad, (zeroPat f true, 0), (zeroPat f false, 0), (infPat f false, 0)]
  | 4 => [(zeroPat f false, 0), (onePat f false, 0), (onePat f false, 0), (infPat f false, 0)]
  | 5 => [bad, (infPat f true, 2), (infPat f true, 2), (infPat f false, 0)]
  | 7 => [bad, (zeroPat f true, 0), (zeroPat f false, 0), bad]
  | 8 => [bad, (onePat f false, 0), (onePat f false, 0), bad]
  | _ => [(onePat f true, 0), (zeroPat f true, 0), (zeroPat f false, 0), (onePat f false, 0)]

/-- The format that the F slot's T names. -/
def formatF (t : BitVec 2) : FFmt := if t = 0 then .fp32 else if t = 1 then .bf16 else .fp16

/-- The type that a ranking instruction's T names. -/
def typeF (t : BitVec 2) : EType := if t = 3 then .int 32 else .flt (formatF t)
def widthF (t : BitVec 2) : Nat := if t = 0 ∨ t = 3 then 32 else 16

/-- The threshold excludes an element (R268). -/
def Excluded (t : EType) (rthr : Word) (x : Nat) : Prop :=
  rthr.getLsbD 32 = true ∧ match t with
    | .int w => signedField x w ≤ signedField (rthr.toNat % 2 ^ 32) 32
    | .flt f =>
      let h := fval .fp32 (rthr.toNat % 2 ^ 32)
      (fval f x).isNan = true ∨ (h.isNan = false ∧ ((fval f x).lt h = true ∨ (fval f x).eqv h = true))

/-- The first cut of the elements (bits, index) that are not excluded, in R267's order. -/
def Ranks (t : EType) (rthr : Word) (cut : Nat) (xs l : List (Nat × Nat)) : Prop :=
  ∃ keep rest : List (Nat × Nat), (∀ x, x ∈ keep → ¬ Excluded t rthr x.1) ∧
    (∃ drop : List (Nat × Nat), (keep ++ drop).Perm xs ∧ ∀ x, x ∈ drop → Excluded t rthr x.1) ∧
    (l ++ rest).Perm keep ∧ (l ++ rest).Pairwise (fun x y => ¬ Before t false y x) ∧ l.length = min cut keep.length

/-- Registers v288 + d on of every active engine receive vs whole, lat cycles on, where no ranking instruction issues inside the
interval of the last (R279); the next may issue gap cycles on. -/
def RankLands (i : Instr) (s : State) (g : Gang) (lat gap : Nat) (d : BitVec 5) (vs : Nat → Engine → List Vec) : Prop :=
  (∀ k, k < 16 → s.ctx.act.getLsbD k = true → (g.eng k).rankFree ≤ s.cycle) →
  Becomes i s (g.mapAct s.ctx.act (fun k en =>
    { en with
      lands := en.lands ++ (vs k en).mapIdx (fun j v =>
        { issued := s.cycle, due := s.cycle + lat, pay := EPay.v (288 + d.toNat + j) (BitVec.allOnes 1024) v })
      rankFree := s.cycle + gap
      rankDst := (List.range (vs k en).length).map (288 + d.toNat + ·) }))

/-- Element e of w bits of the group of registers from v288 + a on. -/
def groupElem (s : State) (k : Nat) (en : Engine) (a : BitVec 5) (w e : Nat) : Nat :=
  (readV s k en (288 + a.toNat + e / (1024 / w))).toNat / 2 ^ (w * (e % (1024 / w))) % 2 ^ w

/-- The list layout of R269 for entries (bits, index): the code, and with values two registers of 32-bit types or one of 16-bit. -/
def ListLayout (w : Nat) (values : Bool) (entry : Nat → Option (Nat × Nat)) (vs : List Vec) : Prop :=
  let slot (r sz e : Nat) : Nat := (vs.getD r 0).toNat / 2 ^ (sz * e) % 2 ^ sz
  vs.length = (if !values then 1 else if w = 32 then 3 else 2) ∧
  ∀ q, q < 64 → slot 0 16 q = (match entry q with
      | some e => e.2 % 2 ^ 16
      | none => 0xFFFF) ∧
    (values = true → (if w = 32 then slot (1 + q / 32) 32 (q % 32) else slot 1 16 q) = (match entry q with
      | some e => e.1 % 2 ^ w
      | none => 0))

/-- The present entries of a list in registers from v288 + a on (R270, R276). -/
def presentList (s : State) (k : Nat) (en : Engine) (a w : Nat) : List (Nat × Nat) :=
  let slot (r sz e : Nat) : Nat := (readV s k en (288 + a + r)).toNat / 2 ^ (sz * e) % 2 ^ sz
  ((List.range 64).map (fun q => (if w = 32 then slot (1 + q / 32) 32 (q % 32) else slot 1 16 q, slot 0 16 q))).takeWhile
    (fun e => decide (e.2 ≠ 0xFFFF))

/-- The cut that AUX[3:2] names. -/
def cutRow (en : Engine) (c : BitVec 2) : Nat := if c = 0 then en.rcut else 2 ^ (c.toNat + 2)

end Sys2Proof.Claims

section
open Sys2Proof Sys2Proof.Machine Sys2Proof.Claims

/-- VCVT, VDECB and VENCB complete (R217-R219): n elements convert from or into part p, one that the
encoding admits; codes are looked up in a codebook, or the nearest
entry is found with R219's ties and flags; which entries are candidates where infinities and NaNs stand among them is the model's reading
(log 54). -/
def Obligations.VectorConversions : Prop :=
  ∀ (s : State) (g : Gang) (f : VFields), Here s g →
    let w := widthT f.t
    let part := f.b.toNat - 496
    let from_ := BitVec.ofNat 3 f.c.toNat
    let ws := widthT from_
    let n := wBits f.w.toNat / max ws w
    let x (k : Nat) (en : Engine) (e : Nat) : Nat := (vSource s k en (etype from_) f.a.toNat).toNat / 2 ^ (ws * e) % 2 ^ ws
    let book (k : Nat) (en : Engine) : BitVec 256 := readCb s k en (f.c.toNat % 4)
    (part < max ws w / min ws w → Poppable s g f [f.a.toNat] → ∃ L, LandsV (.vcvt f) s g [f.a.toNat] L ∧ ∀ k en,
      Writes s w 3 f.d.toNat
        (fun e => (∃ i, i < n ∧ e = if w ≤ ws then part * n + i else i) ∧ enabled s k en f.m (e * w / 32))
        (fun e =>
          let v := x k en (if w ≤ ws then e - part * n else part * n + e)
          if 5 ≤ from_.toNat ∧ 5 ≤ f.t.toNat then
            (toBits (if 8 ≤ f.c.toNat then clamp (-2 ^ (w - 1)) (2 ^ (w - 1) - 1) (signedField v ws) else signedField v ws) w, 0)
          else cvt v (etype from_) (etype f.t) (rmode f.rm) false) (L k en)) ∧
    (f.t.toNat ≤ 1 → Elementwise (.vdecb f) s g f (vrow w 3 [f.a.toNat] (fun k en e =>
      let code := (vSource s k en (etype f.t) f.a.toNat).toNat / 2 ^ (4 * (part * (wBits f.w.toNat / w) + e)) % 2 ^ 4
      let b := bookAt (book k en) code
      (if f.t = 1 then b else if (fval .bf16 b).isNan then 0x7FC00000 else b * 2 ^ 16, 0)))) ∧
    (¬ intT f.t → part < w / 4 → Poppable s g f [f.a.toNat] → ∃ L, LandsV (.vencb f) s g [f.a.toNat] L ∧ ∀ k en, ∃ code : Nat → Nat × Nat,
      (∀ e, Encodes (fval (etype f.t).fmt (srcElem s k en f.t w f.a e)) (book k en) (code e)) ∧
      Writes s 4 3 f.d.toNat
        (fun e => (∃ i, i < wBits f.w.toNat / w ∧ e = part * (wBits f.w.toNat / w) + i) ∧ enabled s k en f.m (e / 8))
        (fun e => code (e - part * (wBits f.w.toNat / w))) (L k en))

/-- VRNG and VTOPKI complete (R220-R222): a Philox word, or its unit value in FP32, in each enabled lane; a candidate takes its place in
each lane's list of k pairs, and its index goes up by one. -/
def Obligations.VectorDraws : Prop :=
  ∀ (s : State) (g : Gang) (f : VFields), Here s g →
    Elementwise (.vrng f) s g f (vrow 32 8 [f.a.toNat] (fun k en l =>
      let key (j : Nat) : Lane := (readS s (seqOf s g) (f.b.toNat + j)).setWidth 32
      let r := philox (BitVec.ofNat 32 (srcElem s k en 5 32 f.a l)) (BitVec.ofNat 32 (nextElem s k en 32 f.a l))
        (BitVec.ofNat 32 (f.c.toNat % 4)) 0 (key 0) (key 1)
      let u := if f.c.toNat / 4 = 0 then r.1 else if f.c.toNat / 4 = 1 then r.2.1 else if f.c.toNat / 4 = 2 then r.2.2.1 else r.2.2.2
      ((if f.t = 0 then unitf u else u).toNat, 0))) ∧
    let n := f.c.toNat % 8 + 1
    let codes := [f.a.toNat, f.b.toNat]
    f.t = 0 ∨ f.t = 5 → Poppable s g f codes → ∃ L, LandsV (.vtopki f) s g codes L ∧ ∀ k en,
      let in_ (j l : Nat) : Nat := (readV s k en (f.a.toNat + j)).toNat / 2 ^ (32 * l) % 2 ^ 32
      let cand (l : Nat) : Nat × Nat := (srcElem s k en f.t 32 f.b l, in_ (2 * n) l)
      let ent (j l : Nat) : Nat × Nat := (in_ (2 * j) l, in_ (2 * j + 1) l)
      let first (l j : Nat) : Prop := Before (etype f.t) (decide (8 ≤ f.c.toNat)) (cand l) (ent j l)
      ∃ (p : Nat → Nat) (M : Nat → List ELand),
        (∀ l, p l ≤ n ∧ (∀ j, j < p l → ¬ first l j) ∧ (p l < n → first l (p l))) ∧
        L k en = (List.range (2 * n + 1)).flatMap M ∧
        ∀ j, j ≤ 2 * n → Writes s 32 (2 + n) (f.d.toNat + j) (onLanes s k en f 32)
          (fun l =>
            let o := if j / 2 < p l then ent (j / 2) l else if j / 2 = p l then cand l else ent (j / 2 - 1) l
            (if j = 2 * n then (cand l).2 + 1 else if j % 2 = 0 then o.1 else o.2, 0)) (M j)

/-- BIND completes (R285) where the group of every active engine is live and active, and else raises BIND_DIVERGE for reason 1 with the
active engines of the groups that fail. -/
def Sys2Proof.Claims.Binding : Prop :=
  ∀ (s : State) (g : Gang) (f : VFields), Here s g → f.c.toNat ≤ 9 →
    let n := if f.c.toNat ≤ 5 then 1 else 2 ^ (f.c.toNat - 5)
    let bad (k : Nat) : Prop := k < 16 ∧ s.ctx.act.getLsbD k = true ∧ 1 < n ∧
      ∃ j, k / n * n ≤ j ∧ j < k / n * n + n ∧ ¬ (s.ctx.act.getLsbD j = true ∧ g.live.getLsbD j = true)
    ((∀ k, ¬ bad k) → Becomes (.bind f) s (g.mapAct s.ctx.act (fun k en => withLand en s.cycle 1 (.bind (k / n * n) n f.c.toNat)))) ∧
    ((∃ k, bad k) → ∃ m : Mask, Raises (.bind f) s g .bindDiverge m 0x11 0 ∧ ∀ k, k < 16 → (m.getLsbD k = true ↔ bad k))

/-- The six chain instructions complete (R289-R292) where every active engine is bound, fully enabled and in a group that is wholly
active: each chain's result, and for VLMUL the high word, land 8 + 3·(E − 1) cycles on, and on the group's top engine the condition
bits land in e[C]. Where a check fails, BIND_DIVERGE names every engine that fails one, with the lowest engine's reason. -/
def Sys2Proof.Claims.LimbChains : Prop :=
  ∀ (s : State) (g : Gang) (i : Instr) (f : VFields) codes wide high cond op, Here s g →
    chainRow i = some (f, codes, (wide, high, cond), op) → Faultless s g codes →
    (∀ k, k < 16 → (g.eng k).bind.code ≤ 9 ∧ (g.eng k).bind.engs = (if (g.eng k).bind.code ≤ 5 then 1 else 2 ^ ((g.eng k).bind.code - 5)) ∧
      (g.eng k).bind.base = k / (g.eng k).bind.engs * (g.eng k).bind.engs) →
    let bad (k : Nat) : Prop := k < 16 ∧ s.ctx.act.getLsbD k = true ∧ limbFails s g f k ≠ none
    (∀ k r, Lowest bad k → limbFails s g f k = some r → ∃ m : Mask, Raises i s g .bindDiverge m (0x20 + r) 0 ∧
      ∀ j, j < 16 → (m.getLsbD j = true ↔ bad j)) ∧
    ((∀ k, ¬ bad k) → ∃ (whole highs : Nat → Nat) (conds : Nat → Word),
      Becomes i s (g.mapAct s.ctx.act (fun k en =>
        let lat := 8 + 3 * (en.bind.engs - 1)
        let own (v : Nat) : Vec := BitVec.ofNat 1024 (v / 2 ^ (1024 * (k - en.bind.base)))
        ({ en with lands := en.lands ++
          (if wide then [{ issued := s.cycle, due := s.cycle + lat, pay := EPay.v f.d.toNat (BitVec.allOnes 1024) (own (whole k)) }] else []) ++
          (if high then [{ issued := s.cycle, due := s.cycle + lat, pay := EPay.v (f.d.toNat + 1) (BitVec.allOnes 1024) (own (highs k)) }] else []) ++
          (if cond = true ∧ f.c ≠ 0 ∧ k = en.bind.base + en.bind.engs - 1 then
            [{ issued := s.cycle, due := s.cycle + lat, pay := EPay.e f.c.toNat (BitVec.allOnes 64) (conds k) }] else []) } : Engine).pops s.cycle codes)) ∧
      ∀ k, k < 16 → s.ctx.act.getLsbD k = true →
        let b := (g.eng k).bind
        let bits := 32 * 2 ^ b.code
        let chains := if b.engs = 1 then 1024 / bits else 1
        let part (v j : Nat) : Nat := v / 2 ^ (bits * j) % 2 ^ bits
        let x := joined (fun j => vSource s j (g.eng j) (.int 32) f.a.toNat) b.base b.engs
        let y := joined (fun j => vSource s j (g.eng j) (.int 32) f.b.toNat) b.base b.engs
        whole k < 2 ^ (bits * chains) ∧ highs k < 2 ^ (bits * chains) ∧
        ∀ j, j < chains →
          let c := op bits (part x j) (part y j) (part y j % 2 ^ 32)
          part (whole k) j = c.r % 2 ^ bits ∧ part (highs k) j = c.h % 2 ^ 32 ∧
          (conds k).getLsbD j = c.low ∧ (conds k).getLsbD (16 + j) = c.mid ∧ (conds k).getLsbD (32 + j) = c.top)

/-- The special functions complete (R226-R230): one fixed function of opcode, type and input bits, the same in every engine, package state
and run, gives each enabled element its value and flags, landing 8, 10 or 12 cycles on; on the special inputs it has R229's values and
flags. -/
def Obligations.SpecialFunctions : Prop :=
  ∃ F : Nat → BitVec 2 → Nat → Nat × Nat,
    (∀ (s : State) (g : Gang) (i : Instr) op lat w t d a m, Here s g → sfRow i = some (op, lat, w, t, d, a, m) →
      ∃ L : Nat → Engine → List ELand, Becomes i s (g.mapAct s.ctx.act (fun k en => { en with lands := en.lands ++ L k en })) ∧
        ∀ k en, Writes s (formatF t).size lat (288 + d.toNat)
          (fun e => e < wBits w.toNat / (formatF t).size ∧ enabled s k en m (e * (formatF t).size / 32))
          (fun e => F op t ((readV s k en (288 + a.toNat)).toNat / 2 ^ ((formatF t).size * e) % 2 ^ (formatF t).size)) (L k en)) ∧
    ∀ op t, 1 ≤ op → op ≤ 9 →
      let f := formatF t
      [infPat f true, zeroPat f true, zeroPat f false, infPat f false].map (F op t) = specials op f ∧
      (∀ x sg, fval f x = .nan sg → F op t x = (f.dnan, if sg then 1 else 0)) ∧
      (∀ x m e, fval f x = .fin true m e → m ≠ 0 → op = 2 ∨ op = 3 ∨ op = 5 → F op t x = (f.dnan, 1)) ∧
      F 5 t (onePat f false) = (0, 0)

/-- RANK, RANKV, RANKC and RMERGE complete (R267-R276, R279): the entries that are not excluded stand in R267's order up to the cut, in the
layout of R269, landing at the published latency. -/
def Sys2Proof.Claims.Ranking : Prop :=
  ∀ (s : State) (g : Gang) (t c e : BitVec 2) (d a : BitVec 5) (n : BitVec 2), Here s g →
    let w := widthF t
    let size := 2 ^ n.toNat * (1024 / w)
    let step := n.toNat + if w = 32 then 0 else 1
    let lat := [42, 54, 68, 84, 102].getD step 0
    let elems (k : Nat) (en : Engine) : List (Nat × Nat) := (List.range size).map (fun i => (groupElem s k en a w i, i))
    let plain (values : Bool) (i : Instr) : Prop := ∃ vs, RankLands i s g lat (2 ^ step) d vs ∧ ∀ k en, ∃ l,
      Ranks (typeF t) en.rthr (cutRow en c) (elems k en) l ∧ ListLayout w values (fun q => l[q]?) (vs k en)
    plain false (.rank t d a c n) ∧ plain true (.rankv t d a c n) ∧
    (e ≠ 0 → ∃ vs, RankLands (.rankc t d a e n) s g lat (2 ^ step) d vs ∧ ∀ k en,
      let cols := 2 ^ e.toNat
      let m := min en.rcut (64 / cols)
      ∃ l : Nat → List (Nat × Nat),
        (∀ j, j < cols → Ranks (typeF t) en.rthr m
          ((List.range (size / cols)).map (fun i => (groupElem s k en a w (i * cols + j), i))) (l j)) ∧
        ListLayout w true (fun q => if q < cols * m then (l (q / m))[q % m]? else none) (vs k en)) ∧
    ∃ vs, RankLands (.rmerge t d a c) s g 20 1 d vs ∧ ∀ k en, ∃ l,
      Ranks (typeF t) en.rthr (cutRow en c)
        (presentList s k en a.toNat w ++ presentList s k en (a.toNat + if w = 32 then 3 else 2) w) l ∧
      ListLayout w true (fun q => l[q]?) (vs k en)

/-- UNRANK completes (R277): element i of the output is the attenuation of the first rank that names i before the code ends, converted to
the type, and the fill pattern where there is none. -/
def Sys2Proof.Claims.Unranking : Prop :=
  ∀ (s : State) (g : Gang) (t : BitVec 2) (d a : BitVec 5) (cut sel : BitVec 1) (n : BitVec 2), Here s g → t ≠ 3 →
    let w := widthF t
    let per := 1024 / w
    ∃ vs, RankLands (.unrank t d a cut sel n) s g 10 1 d vs ∧ ∀ k en, (vs k en).length = 2 ^ n.toNat ∧
      ∀ i, i < 2 ^ n.toNat * per →
        let code (q : Nat) : Nat := (readV s k en (288 + a.toNat)).toNat / 2 ^ (16 * q) % 2 ^ 16
        let att (q : Nat) : Nat := (readAtt s k en sel.toNat).toNat / 2 ^ (16 * q) % 2 ^ 16
        let names (q : Nat) : Prop := q < (if cut = 1 then 64 else en.rcut) ∧ (∀ p, p ≤ q → code p ≠ 0xFFFF) ∧ code q = i
        let out := ((vs k en).getD (i / per) 0).toNat / 2 ^ (w * (i % per)) % 2 ^ w
        (∀ q, Lowest names q → out = (if t = 1 then att q
          else if t = 0 then (if (fval .bf16 (att q)).isNan then 0x7FC00000 else att q * 2 ^ 16)
          else (cvt (att q) (.flt .bf16) (.flt .fp16) .rne false).1)) ∧
        ((∀ q, ¬ names q) → out = en.rfill.toNat % 2 ^ w)

end

namespace Sys2Proof.Claims
open Sys2Proof.Machine

/-- addr_add of R168: the space tag is kept, the other 60 bits wrap. -/
def plus (a : Word) (off : Int) : Word := BitVec.ofNat 64 (a.toNat / 2 ^ 60 * 2 ^ 60 + (((a.toNat : Int) + off) % 2 ^ 60).toNat)

/-- Bits of an address. -/
def addrBits (a : Word) (hi lo : Nat) : Nat := a.toNat / 2 ^ lo % 2 ^ (hi + 1 - lo)

/-- The enabled lanes of an engine, ascending. -/
def lanes (s : State) (k : Nat) (en : Engine) (m : BitVec 3) : List Nat :=
  (List.range 32).filter (fun l => m == 0 || (readE s k en m.toNat).getLsbD l)

/-- Lane l of a register. -/
def laneAt (v : Vec) (l : Nat) : Nat := v.toNat / 2 ^ (32 * l) % 2 ^ 32

/-- Bytes of a size code: a block of 32, 64 or 128, or 1, 2 or 4 for each lane. -/
def bytesOfSize (z : BitVec 3) : Nat := if z.toNat ≤ 2 then 32 * 2 ^ z.toNat else if z.toNat = 3 then 1 else if z.toNat = 4 then 2 else 4

/-- The pieces of a load or store (R180): one block at the address, or a part per enabled lane, contiguous or at the lanes' offsets. -/
def memPieces (s : State) (k : Nat) (en : Engine) (a : Word) (m z : BitVec 3) (off : Option Vec) (data : Vec) : List Piece :=
  let n := bytesOfSize z
  if z.toNat ≤ 2 then [{ lane := 0, addr := a, bytes := n, data := data.toNat % 2 ^ (8 * n) }]
  else (lanes s k en m).map (fun (l : Nat) =>
    let o : Int := match off with
      | none => (l * n : Nat)
      | some v => signedField (laneAt v l) 32
    { lane := l, addr := plus a o, bytes := n, data := laneAt data l % 2 ^ (8 * n) })

/-- The pieces of LDL and STL: each thread's own word of the lane-private space (R55); under another space tag than 5 they keep the register's
address, which their fault shows (R193). -/
def threadPieces (s : State) (g : Gang) (k : Nat) (en : Engine) (a : Word) (m : BitVec 3) (data : Vec) : List Piece :=
  (lanes s k en m).map (fun l =>
    { lane := l, bytes := 4, data := laneAt data l
      addr := if addrBits a 63 60 = 5 then BitVec.ofNat 64 (g.info.lpBase + addrBits a 47 0 / 4 * 2048 + 4 * (32 * k + l)) else a })

/-- The first check of R181 and R193 that a lane-private address fails. -/
def threadFault (g : Gang) (a : Word) : Option (GFault × Nat) :=
  let tag := addrBits a 63 60
  let p := addrBits a 47 0
  if 6 ≤ tag ∨ ((tag = 0 ∨ tag = 5) ∧ addrBits a 59 48 ≠ 0) then some (.page, 1)
  else if tag = 4 then some (.scratchRange, 0)
  else if tag ≠ 5 then some (.page, 2)
  else if g.info.lpSize ≤ p then some (.scratchRange, 0)
  else if p % 4 ≠ 0 then some (.alignment, 0)
  else none

/-- Entries occupied in queue q0, q1 or the store queue. -/
def filled (en : Engine) (q : Nat) : Nat := if q = 0 then en.q0.length else if q = 1 then en.q1.length else en.sq.length

/-- The active engines in which n more entries do not fit (R172). -/
def Crowded (s : State) (g : Gang) (q n k : Nat) : Prop := k < 16 ∧ s.ctx.act.getLsbD k = true ∧ 64 < filled (g.eng k) q + n

/-- Where some active engine has no room, the bundle raises QUEUE_OVERFLOW naming the queue and those engines, and pushes nothing. -/
def Overflows (i : Instr) (s : State) (g : Gang) (q n : Nat) : Prop :=
  (∃ k, Crowded s g q n k) → ∃ m : Mask, Raises i s g .queueOverflow m q 0 ∧ ∀ k, k < 16 → (m.getLsbD k = true ↔ Crowded s g q n k)

/-- A walker operation with ESIZE other than 0 runs or waits in the engine (R329). -/
def Gathering (en : Engine) : Prop := ∃ w, w ∈ en.walks ∧ addrBits (sget 0 w.regs 5) 1 0 ≠ 0

/-- The entries of a queue of which no one knows which a pop returns (R329): from an entry that an instruction pushes into q1 beside a
gathering walker until all that stood with it are popped. -/
def unpoppedMixed (l : List QEntry) : Prop := ∃ e, e ∈ l ∧ e.popped = none ∧ e.mixed = true
def mixAll (l : List QEntry) : List QEntry := l.map (fun e => { e with mixed := e.mixed || e.popped.isNone })

open Classical in
/-- An entry at the end of q0 or q1, and a place at the end of the store queue, with the next place in program order; a queue entry and an
immediate operation know where their region began. -/
noncomputable def queued (s : State) (en : Engine) (q : Nat) (acc : Access) (ready : Nat) : Engine :=
  let mix : Prop := q = 1 ∧ Gathering en
  let old := if mix then mixAll (queueOf en q) else queueOf en q
  let e : QEntry := { serial := en.serial, acc := { acc with from_ := en.regionFrom }, issued := s.cycle, readyAt := ready, result := none
                      popped := none, mixed := decide (mix ∨ unpoppedMixed old) }
  if q = 0 then { en with q0 := old ++ [e], serial := en.serial + 1 } else { en with q1 := old ++ [e], serial := en.serial + 1 }
def placed (s : State) (en : Engine) (acc : Access) (marker : Option (Option MemFault)) (ready : Nat) : Engine :=
  { en with sq := en.sq ++ [{ serial := en.serial, acc := if marker = none then acc else { acc with from_ := en.regionFrom }, marker
                              completeAt := ready, issued := s.cycle }]
            serial := en.serial + 1 }

/-- The post-increment of R168: the address register lands plus its stride 1 cycle on. -/
def bumped (s : State) (k : Nat) (r : BitVec 5) (i : BitVec 1) (en : Engine) : Engine :=
  if i = 0 then en else withLand en s.cycle 1 (.a r.toNat true (plus (readA s k en r.toNat) (readSt s k en r.toNat).toInt))

/-! ### The engine's own scratchpad banks (R176, R177) -/

/-- The 32-byte units of the pieces that reach the engine's own scratchpad under tag 1 (R53, R181). -/
def ownUnder (g : Gang) (ps : List Piece) : List Nat :=
  ps.flatMap (fun p =>
    let off := addrBits p.addr 21 0
    if addrBits p.addr 63 60 = 1 ∧ addrBits p.addr 59 22 = 0 ∧ off + p.bytes ≤ g.info.spSize ∧ p.addr.toNat % p.bytes = 0 then
      (List.range ((off + p.bytes - 1) / 32 + 1 - off / 32)).map (fun j => off / 32 + j)
    else [])

/-- The passes over some units: the most different ones that lie in one of the 31 banks. -/
def passCount (us : List Nat) : Nat :=
  ((List.range 31).map (fun b => (us.eraseDups.filter (fun u => u % 31 == b)).length)).foldl max 1

/-- An access of the engine itself takes the banks of its units from the first cycle in which none of them is held, for as many cycles as
it makes passes; its data are there no sooner than 13 cycles and its passes later, 2 more for an atomic. (log 78) -/
def BanksTaken (s : State) (en : Engine) (us : List Nat) (atomic : Bool) (bk : List (Nat × Bank)) (ready : Nat) : Prop :=
  (us = [] → bk = en.banks) ∧
  (us ≠ [] → ∃ t, Lowest (fun t => s.cycle ≤ t ∧ ∀ u, u ∈ us → (sget {} en.banks (u % 31)).own ≤ t ∧ (sget {} en.banks (u % 31)).until_ ≤ t) t ∧
    t + 13 + passCount us + (if atomic then 2 else 0) ≤ ready ∧
    (sparseWf {} en.banks = true → ∀ b, sget {} bk b =
      if ∃ u ∈ us, u % 31 = b then { sget {} en.banks b with own := t + passCount us } else sget {} en.banks b))

/-! ### The transaction unit at issue (R297-R303) -/

/-- A part takes part in the open transaction: it is global, and its lane is a member (R297). -/
def Inside (t : TxState) (p : Piece) : Prop := t.opened = true ∧ addrBits p.addr 63 60 = 0 ∧ t.cur.members.getLsbD p.lane = true

/-- A part's alignment: to its own bytes, or for a part of a block where its block's address has the block's. -/
def Lined (p : Piece) : Prop :=
  match p.block with
  | some (n, o) => p.addr.toNat % n = o
  | none => p.addr.toNat % max 1 p.bytes = 0

/-- A live lane becomes doomed (R303): its bit is set with its cause, and the first cause 3 since TXBEGIN fills CR_TXFAULT. -/
def Struck (t t' : TxState) (lane cause code va : Nat) : Prop :=
  t'.cur = { t.cur with doomed := t.cur.doomed ||| BitVec.ofNat 32 (2 ^ lane), causes := t.cur.causes ++ [(lane, cause)] } ∧
  (cause = 3 ∧ t.fcode = 0 → t'.fcode = code ∧ t'.flane = lane ∧ t'.fva = va % 2 ^ 48) ∧
  (¬ (cause = 3 ∧ t.fcode = 0) → t'.fcode = t.fcode ∧ t'.flane = t.flane ∧ t'.fva = t.fva) ∧
  ((∀ c, c ∈ t.closing → c.id ≠ t.cur.id) → t'.closing = t.closing) ∧
  t'.opened = t.opened ∧ t'.count = t.count ∧ t'.limit = t.limit ∧ t'.nextId = t.nextId

/-- What a live member's part meets before its log does: its address breaks R53, or its alignment R181; it dooms its lane with cause 3 (R303). -/
def Refused (t t' : TxState) (p : Piece) : Prop :=
  (addrBits p.addr 59 48 ≠ 0 ∧ Struck t t' p.lane 3 0x10 p.addr.toNat) ∨
  (addrBits p.addr 59 48 = 0 ∧ ¬ Lined p ∧ Struck t t' p.lane 3 0x13 p.addr.toNat)

/-- A lane's entries for the sector of an address. -/
def writeOf (t : TxState) (p : Piece) : Option TxWrite :=
  t.cur.writes.find? (fun w => w.lane == p.lane && w.va == p.addr.toNat / 32 * 32)
def readOf (t : TxState) (p : Piece) : Option TxRead :=
  t.cur.reads.find? (fun r => r.lane == p.lane && r.va == p.addr.toNat / 32 * 32)

/-- Read and write entries of the engine's logs, the closed transactions' that are still to be performed among them (R298). -/
def readsHeld (t : TxState) : Nat := t.cur.reads.length + (t.closing.map (fun c => c.reads.length)).sum
def writesHeld (t : TxState) : Nat := t.cur.writes.length + (t.closing.map (fun c => c.writes.length)).sum

/-- A load part p at issue, the part q its entry keeps, and the unit after it (R300, R301): a serial member's is marked; a doomed one's
reads 0; a live one's takes the bytes that its lane's write entry holds and, unless that gives all of them, needs a read entry, a new one
where there is room for it; 256 dooms it with cause 2. -/
def LoadPart (t : TxState) (p q : Piece) (t' : TxState) : Prop :=
  let live := t.cur.serial = false ∧ t.cur.doomed.getLsbD p.lane = false
  let right := addrBits p.addr 59 48 = 0 ∧ Lined p
  let full := { p with tx := PieceTx.dead }
  (¬ Inside t p → q = p ∧ t' = t) ∧
  (Inside t p → t.cur.serial = true → q = { p with tx := .serial } ∧ t' = t) ∧
  (Inside t p → t.cur.serial = false → t.cur.doomed.getLsbD p.lane = true → q = full ∧ t' = t) ∧
  (Inside t p → live → ¬ right → q = full ∧ Refused t t' p) ∧
  (Inside t p → live → right → ∃ mask d : Nat,
    (∀ j, mask.testBit j = true ↔ j < p.bytes ∧ ∃ w, writeOf t p = some w ∧ w.mask.getLsbD (p.addr.toNat % 32 + j) = true) ∧
    (∀ j w, writeOf t p = some w → mask.testBit j = true → d / 2 ^ (8 * j) % 256 = w.data.toNat / 2 ^ (8 * (p.addr.toNat % 32 + j)) % 256) ∧
    let noted := mask = 2 ^ p.bytes - 1 ∨ (readOf t p).isSome = true
    (noted → t' = t) ∧
    (¬ noted → readsHeld t < 256 → t' = { t with cur := { t.cur with reads := t.cur.reads ++ [{ lane := p.lane, va := p.addr.toNat / 32 * 32 }] } }) ∧
    (noted ∨ readsHeld t < 256 → q = { p with tx := .logged t.cur.id mask, data := d }) ∧
    (¬ noted → 256 ≤ readsHeld t → q = full ∧ Struck t t' p.lane 2 0 0))

/-- The bytes of a store part stand in its write entry, and the others as they stood (R302). -/
def Merged (w w' : TxWrite) (p : Piece) : Prop :=
  w'.lane = w.lane ∧ w'.va = w.va ∧ w'.part = w.part ∧ ∀ j, j < 32 →
    let o := p.addr.toNat % 32
    if o ≤ j ∧ j < o + p.bytes then
      w'.mask.getLsbD j = true ∧ w'.data.toNat / 2 ^ (8 * j) % 256 = p.data / 2 ^ (8 * (j - o)) % 256
    else w'.mask.getLsbD j = w.mask.getLsbD j ∧ w'.data.toNat / 2 ^ (8 * j) % 256 = w.data.toNat / 2 ^ (8 * j) % 256

/-- A store part p at issue, what the store-queue entry keeps of it, and the unit after it (R302, R303): a live member's bytes go to its
lane's write entry for the sector, or to a new one; 128 entries doom it with cause 2. -/
def StorePart (t : TxState) (p : Piece) (kept : List Piece) (t' : TxState) : Prop :=
  let live := t.cur.serial = false ∧ t.cur.doomed.getLsbD p.lane = false
  let right := addrBits p.addr 59 48 = 0 ∧ Lined p
  (¬ Inside t p → kept = [p] ∧ t' = t) ∧
  (Inside t p → t.cur.serial = true → kept = [{ p with tx := .serial }] ∧ t' = t) ∧
  (Inside t p → t.cur.serial = false → kept = []) ∧
  (Inside t p → t.cur.serial = false → t.cur.doomed.getLsbD p.lane = true → t' = t) ∧
  (Inside t p → live → ¬ right → Refused t t' p) ∧
  (Inside t p → live → right → (∃ w, writeOf t p = some w) → ∃ ws : List TxWrite, t' = { t with cur := { t.cur with writes := ws } } ∧
    ws.length = t.cur.writes.length ∧ ∀ (n : Nat) w, t.cur.writes[n]? = some w → ∃ w', ws[n]? = some w' ∧
      (w.lane = p.lane ∧ w.va = p.addr.toNat / 32 * 32 → Merged w w' p) ∧
      (¬ (w.lane = p.lane ∧ w.va = p.addr.toNat / 32 * 32) → w' = w)) ∧
  (Inside t p → live → right → writeOf t p = none → writesHeld t < 128 → ∃ w,
    t' = { t with cur := { t.cur with writes := t.cur.writes ++ [w] } } ∧
    Merged { lane := p.lane, va := p.addr.toNat / 32 * 32, part := p.addr.toNat } w p) ∧
  (Inside t p → live → right → writeOf t p = none → 128 ≤ writesHeld t → Struck t t' p.lane 2 0 0)

/-- The parts of a load, and of a store, one after the other. -/
def LoadParts (t : TxState) : List Piece → List Piece → TxState → Prop
  | [], qs, t' => qs = [] ∧ t' = t
  | p :: r, qs, t' => ∃ q u rest, LoadPart t p q u ∧ LoadParts u r rest t' ∧ qs = q :: rest
def StoreParts (t : TxState) : List Piece → List Piece → TxState → Prop
  | [], qs, t' => qs = [] ∧ t' = t
  | p :: r, qs, t' => ∃ kept u rest, StorePart t p kept u ∧ StoreParts u r rest t' ∧ qs = kept ++ rest

/-- The parts of an access: while a transaction is open a block that reaches memory has one for each 4 bytes (R297). -/
def txParts (t : TxState) (block : Bool) (ps : List Piece) : List Piece :=
  if t.opened = true ∧ block = true ∧ ∃ p ∈ ps, addrBits p.addr 63 60 = 0 then
    ps.flatMap (fun p => (List.range (p.bytes / 4)).map (fun l =>
      { lane := l, addr := plus p.addr (4 * l : Nat), bytes := 4, data := p.data / 2 ^ (32 * l) % 2 ^ 32, block := some (p.bytes, 4 * l) }))
  else ps

/-- The load queue of the slot in hand: M1 is 1. -/
def queueOfSlot (s : State) : Nat := if s.ctx.slot = .m1 then 1 else 0

/-- An access of a load or store. -/
def plainAccess (s : State) (kind : AccKind) (opcode size : Nat) (write block : Bool) (ps : List Piece) (pre : Option (GFault × Nat)) : Access :=
  { kind, opcode, sizeCode := size, write, scope := 0, block, pieces := ps, data := 0, cmp := 0, lq := queueOfSlot s, pre }

/-- A load or store: address register, post-increment, opcode, size code, block, and its pieces and first fault in each engine. -/
structure MemRow where
  r : BitVec 5
  inc : BitVec 1
  opcode : Nat
  size : Nat
  block : Bool
  pieces : Nat → Engine → List Piece
  pre : Nat → Engine → Option (GFault × Nat)

def loadRow (s : State) (g : Gang) (i : Instr) : Option (Nat × MemRow) :=
  match i with
  | .ld r m z q i => some (q.toNat, ⟨r, i, 0x01, z.toNat, decide (z.toNat ≤ 2),
      fun k en => memPieces s k en (readA s k en r.toNat) m z none 0, fun _ _ => none⟩)
  | .ldg r v m z q i => some (q.toNat, ⟨r, i, 0x02, z.toNat, decide (z.toNat ≤ 2),
      fun k en => memPieces s k en (readA s k en r.toNat) m z (some (readV s k en v.toNat)) 0, fun _ _ => none⟩)
  | .ldl r m q i => some (q.toNat, ⟨r, i, 0x05, 5, false,
      fun k en => threadPieces s g k en (readA s k en r.toNat) m 0, fun k en => threadFault g (readA s k en r.toNat)⟩)
  | _ => none

def storeRow (s : State) (g : Gang) (i : Instr) : Option MemRow :=
  match i with
  | .st r v m z i => some ⟨r, i, 0x03, z.toNat, decide (z.toNat ≤ 2),
      fun k en => memPieces s k en (readA s k en r.toNat) m z none (readV s k en v.toNat), fun _ _ => none⟩
  | .sts r v m z i => some ⟨r, i, 0x04, z.toNat, decide (z.toNat ≤ 2),
      fun k en => memPieces s k en (readA s k en r.toNat) m z (some (readV s k en v.toNat)) (readV s k en (v.toNat + 1)), fun _ _ => none⟩
  | .stl r v m i => some ⟨r, i, 0x06, 5, false,
      fun k en => threadPieces s g k en (readA s k en r.toNat) m (readV s k en v.toNat), fun k en => threadFault g (readA s k en r.toNat)⟩
  | _ => none

/-- The operations of ATOM and ATOMG: one at the address, or one for each lane, or pair of lanes, whose offset is not 0x8000_0000. -/
def atomPieces (a : Word) (wide : BitVec 1) (off : Option Vec) : List Piece :=
  let n := if wide = 1 then 8 else 4
  match off with
  | none => [{ lane := 0, addr := a, bytes := n, data := 0 }]
  | some v => ((List.range 32).filter (fun l => (wide == 0 || l % 2 == 0) && laneAt v l != 0x80000000)).map (fun l =>
      { lane := l, addr := plus a (signedField (laneAt v l) 32), bytes := n, data := 0 })

/-- An immediate operation: its queue (2: a place of the store queue), its access in each engine, a post-increment, and what is said of
the cycle in which it can be performed. -/
structure ImmRow where
  q : Nat
  acc : Nat → Engine → Access
  inc : Option (BitVec 5 × BitVec 1)
  due : Nat → Engine → Nat → Prop

def immRow (s : State) (g : Gang) (i : Instr) : Option ImmRow :=
  let one (a : Word) (n : Nat) (d : Nat) : List Piece := [{ lane := 0, addr := a, bytes := n, data := d }]
  let lq := queueOfSlot s
  let any (_ : Nat) (_ : Engine) (t : Nat) : Prop := s.cycle ≤ t
  let tick (r : BitVec 5) (k : Nat) (en : Engine) (t : Nat) : Prop :=
    let a := readA s k en r.toNat
    let lookup := if addrBits a 63 60 = 0 ∧ addrBits a 59 48 = 0 then s.missCost s.ctx.core g.info.asid (addrBits a 47 0) else 0
    Lowest (fun t => s.cycle + 120 + lookup ≤ t ∧ t % 144 = 2 * s.ctx.core) t
  let after (n : Nat) (_ : Nat) (_ : Engine) (t : Nat) : Prop := t = s.cycle + n
  let atom (op : Nat) (r : BitVec 5) (v : BitVec 9) (o : BitVec 4) (w : BitVec 1) (sc q : BitVec 3) (lanes_ : Bool) : ImmRow :=
    ⟨q.toNat, fun k en =>
      { kind := .atom o.toNat (w == 1), opcode := op, sizeCode := o.toNat, write := true, scope := sc.toNat, block := !lanes_
        pieces := atomPieces (readA s k en r.toNat) w (if lanes_ then some (readV s k en v.toNat) else none)
        data := readV s k en (v.toNat + 1), cmp := if o.toNat = 9 then readV s k en (v.toNat + 2) else 0, lq }, none, any⟩
  let scop (n : Nat) (r : BitVec 5) (v : Option (BitVec 9)) (q : Nat) (i : BitVec 1) : ImmRow :=
    ⟨q, fun k en =>
      { kind := .scop n, opcode := 0x0D, sizeCode := 0, write := decide (n ≠ 0), scope := 3, block := true
        pieces := one (readA s k en r.toNat) 8 0, data := (v.map (fun v => readV s k en v.toNat)).getD 0, cmp := 0, lq }, some (r, i), tick r⟩
  let ring (kind : AccKind) (op : Nat) (write : Bool) (z : Nat) (r : BitVec 5) (v : Option (BitVec 9)) (q : Nat) : ImmRow :=
    ⟨q, fun k en =>
      { kind, opcode := op, sizeCode := z, write, scope := 2, block := true, pieces := one (readA s k en r.toNat) 1 0
        data := (v.map (fun v => readV s k en v.toNat)).getD 0, cmp := 0, lq }, none, after 200⟩
  let walker (kind : AccKind) (op : Nat) (a : Nat → Engine → Word) (n : Nat → Engine → Nat) (q : BitVec 2) (t : Nat) : ImmRow :=
    ⟨q.toNat, fun k en =>
      { kind, opcode := op, sizeCode := 0, write := decide (q = 2), scope := 2, block := true, pieces := one (a k en) 1 (n k en)
        data := 0, cmp := 0, lq }, none, after t⟩
  match i with
  | .atom r v o w sc q => some (atom 0x07 r v o w sc q false)
  | .atomg r v o w sc q => some (atom 0x08 r v o w sc q true)
  | .scopLd r q i => some (scop 0 r none q.toNat i)
  | .scopSt r v i => some (scop 1 r (some v) 2 i)
  | .scopExch r v q i => some (scop 2 r (some v) q.toNat i)
  | .scopCas r v q i => some (scop 3 r (some v) q.toNat i)
  | .lapadd r n => some ⟨2, fun k en =>
      { kind := .lapadd n.toNat, opcode := 0x0E, sizeCode := 0, write := true, scope := 0, block := true
        pieces := one (readA s k en r.toNat) 16 0, data := 0, cmp := 0, lq }, none, any⟩
  | .rpass r v z q => some (ring .rpass 0x0F true z.toNat r (some v) q.toNat)
  | .rtakeArm r => some (ring .rtakeArm 0x10 true 0 r none 2)
  | .rtakeStat r q => if q.toNat < 2 then some (ring .rtakeCount 0x10 false 0 r none q.toNat) else none
  | .pcommit r z q => some (walker (.pcommit (z == 1)) 0x14 (fun k en => readA s k en r.toNat) (fun _ _ => 0) q 200)
  | .prelease r z q => some (walker (.prelease (z == 1)) 0x15 (fun k en => readA s k en r.toNat) (fun _ _ => 0) q 200)
  | .tlbinv r v z q => some (walker (.tlbinv z.toNat false) 0x16 (fun k en => readA s k en r.toNat) (fun k en => laneAt (readV s k en v.toNat) 0) q 14)
  | .tlbinvAll q => some (walker (.tlbinv 3 true) 0x16 (fun _ _ => 0) (fun _ _ => 1) q 14)
  | _ => none

end Sys2Proof.Claims

section
open Sys2Proof Sys2Proof.Machine Sys2Proof.Claims

/-- LD, LDG and LDL complete (R171, R172, R180): in every active engine an entry for the enabled parts goes to the end of its queue, and
a post-increment is on its way. An LD or LDG takes the passes of its own scratchpad banks (R177), and while a transaction is open its parts
and the unit's read log are what Claims.LoadPart says (R300, R301, R303); an LDL takes no part in it. Without room the bundle raises
QUEUE_OVERFLOW. The banks' order is the model's reading (log 78). -/
def Obligations.Loads : Prop :=
  ∀ (s : State) (g : Gang) (i : Instr) (q : Nat) (x : MemRow), Here s g → loadRow s g i = some (q, x) → q < 2 →
    Overflows i s g q 1 ∧
    ((∀ k, ¬ Crowded s g q 1 k) → ∃ (ps : Nat → Engine → List Piece) (tx : Nat → Engine → TxState) (ready : Nat → Engine → Nat)
        (bk : Nat → Engine → List (Nat × Bank)),
      Becomes i s (g.mapAct s.ctx.act (fun k en => bumped s k x.r x.inc (queued s { en with tx := tx k en, banks := bk k en } q
        (plainAccess s .load x.opcode x.size false x.block (ps k en) (x.pre k en)) (ready k en)))) ∧
      ∀ k en, s.cycle ≤ ready k en ∧ (en.tx.opened = false → ps k en = x.pieces k en ∧ tx k en = en.tx) ∧
        (x.opcode = 5 → ps k en = x.pieces k en ∧ tx k en = en.tx ∧ bk k en = en.banks) ∧
        (x.opcode ≠ 5 → BanksTaken s en (ownUnder g (x.pieces k en)) false (bk k en) (ready k en) ∧
          LoadParts en.tx (txParts en.tx x.block (x.pieces k en)) (ps k en) (tx k en)))

/-- ST, STS and STL complete (R171, R180, R182): in every active engine the store is held at the end of its store queue, and a
post-increment is on its way. While a transaction is open the parts of an ST or STS and the unit's write log are what Claims.StorePart says
(R302, R303); an STL takes no part in it. Without room the bundle raises QUEUE_OVERFLOW. -/
def Obligations.Stores : Prop :=
  ∀ (s : State) (g : Gang) (i : Instr) (x : MemRow), Here s g → storeRow s g i = some x →
    Overflows i s g 2 1 ∧
    ((∀ k, ¬ Crowded s g 2 1 k) → ∃ (ps : Nat → Engine → List Piece) (tx : Nat → Engine → TxState),
      Becomes i s (g.mapAct s.ctx.act (fun k en => bumped s k x.r x.inc (placed s { en with tx := tx k en }
        (plainAccess s .store x.opcode x.size true x.block (ps k en) (x.pre k en)) none s.cycle))) ∧
      ∀ k en, (en.tx.opened = false → ps k en = x.pieces k en ∧ tx k en = en.tx) ∧
        (x.opcode = 6 → ps k en = x.pieces k en ∧ tx k en = en.tx) ∧
        (x.opcode ≠ 6 → StoreParts en.tx (txParts en.tx x.block (x.pieces k en)) (ps k en) (tx k en)))

/-- The immediate operations complete: ATOM, ATOMG, the SCOPs, LAPADD, RPASS, RTAKE in its three forms, PCOMMIT, PRELEASE, TLBINV and
TXEND take their entries or their place of the store queue in every active engine, with the operands read at issue, and mark the region
(R40, R172, R185, R189, R191, R348, R365); an atomic takes passes of its own scratchpad's banks (R177). A SCOP waits for a tick of its core
at least 120 cycles on, later by what its lookup costs (R362); a TXEND closes the transaction. Without room the bundle raises QUEUE_OVERFLOW.
That RTAKE.ARM takes a place of the store queue is the model's choice (log 24), as is the load queue whose order an operation without a
result takes (log 89), and the banks' order its reading (log 78). -/
def Obligations.ImmediateOperations : Prop :=
  ∀ (s : State) (g : Gang), Here s g → s.ctx.core < 72 →
    (∀ i x, immRow s g i = some x → x.q ≤ 2 → Overflows i s g x.q 1 ∧
      ((∀ k, ¬ Crowded s g x.q 1 k) → ∃ (ready : Nat → Engine → Nat) (bk : Nat → Engine → List (Nat × Bank)),
        Becomes i s (urgent s (g.mapAct s.ctx.act (fun k en =>
          let en' := { en with banks := bk k en }
          let e := if x.q = 2 then placed s en' (x.acc k en) (some none) (ready k en) else queued s en' x.q (x.acc k en) (ready k en)
          match x.inc with
          | some (r, i) => bumped s k r i e
          | none => e))) ∧
        ∀ k en, x.due k en (ready k en) ∧ ((∀ o w, (x.acc k en).kind ≠ .atom o w) → bk k en = en.banks) ∧
          ((∃ o w, (x.acc k en).kind = .atom o w) → BanksTaken s en (ownUnder g (x.acc k en).pieces) true (bk k en) (ready k en)))) ∧
    (∀ (r : BitVec 5) (z : BitVec 3) (q : BitVec 2), q.toNat < 2 → Overflows (.rtake r z q) s g q.toNat 2 ∧
      ((∀ k, ¬ Crowded s g q.toNat 2 k) →
        Becomes (.rtake r z q) s (urgent s (g.mapAct s.ctx.act (fun k en =>
          let acc (kind : AccKind) : Access := { kind, opcode := 0x10, sizeCode := z.toNat, write := false, scope := 2, block := true
                                                 pieces := [{ lane := 0, addr := readA s k en r.toNat, bytes := 1, data := 0 }]
                                                 data := 0, cmp := 0, lq := queueOfSlot s }
          queued s (queued s en q.toNat (acc .rtakeStatus) (s.cycle + 200)) q.toNat (acc .rtakeRecord) (s.cycle + 200)))))) ∧
    ∀ q : BitVec 2, q.toNat < 2 → Overflows (.txend q) s g q.toNat 1 ∧
      ((∀ k, ¬ Crowded s g q.toNat 1 k) →
        Becomes (.txend q) s (urgent s (g.mapAct s.ctx.act (fun _ en =>
          queued s { en with tx := if en.tx.opened = true then
              { en.tx with opened := false, closing := en.tx.closing ++ [en.tx.cur], cur := { en.tx.cur with reads := [], writes := [] } }
            else en.tx } q.toNat
            { kind := .txend, opcode := 0x12, sizeCode := 0, write := false, scope := 2, block := true, pieces := [], data := 0, cmp := 0
              txid := if en.tx.opened = true then en.tx.cur.id else 0, lq := queueOfSlot s } s.cycle))))

/-- FENCE and QSYNC complete: a mark of kind and scope stands in the program order of every active engine (R64, R65). PREF completes: it
changes nothing of a core but its translation cache and count of misses, and no register but by its post-increment; and where the die cache
has room for a line from each engine it changes no byte that any die or home slice holds (R12, R61, R190, R361). -/
def Obligations.OrderAndPrefetch : Prop :=
  ∀ (s : State) (g : Gang) (kd sc z h : BitVec 3) (r : BitVec 5) (i : BitVec 1), Here s g →
    let marked (kind scope : Nat) : Gang := g.mapAct s.ctx.act (fun _ en =>
      { en with fences := en.fences ++ [{ serial := en.serial, kind, scope, from_ := en.regionFrom, inst := 0 }], serial := en.serial + 1 })
    Becomes (.fence kd sc) s (marked kd.toNat sc.toNat) ∧ Becomes .qsync s (marked 3 0) ∧
    (s.ctx.core < 72 → ∃ t, exec (.pref r z h i) s = .next t ∧
      (∀ c, c ≠ s.ctx.core → t.core c = s.core c) ∧
      (∃ tc n, t.core s.ctx.core =
        { (s.putGang s.ctx.core (g.mapAct s.ctx.act (fun k en => bumped s k r i en))).core s.ctx.core with tc := tc, tcMiss := n }) ∧
      ((s.dieCaches.getD (s.ctx.core / 9) []).length + 16 ≤ 393216 → t.mem = s.mem ∧
        (s.dieCaches.length = 8 → ∀ die pa, die < 8 → t.dieByte die pa = s.dieByte die pa)) ∧
      t.transit = s.transit ∧ t.poison = s.poison ∧ t.contexts = s.contexts ∧ t.cycle = s.cycle)

/-- TXBEGIN, TXBEGIN.serial and TXABORT complete (R299, R304, R309): where no transaction is open one opens with a new identity, empty logs
and the enabled lanes as members, or for .serial at most one lane of the gang, and asks for the lock unless the gang has or awaits it;
TXABORT dooms the enabled members of an optimistic transaction that still live, with cause 4. -/
def Obligations.Transactions : Prop :=
  ∀ (s : State) (g : Gang) (m : BitVec 3), Here s g →
    (∀ k, k < 16 → s.ctx.act.getLsbD k = true → (g.eng k).tx.opened = false) →
    let opened (en : Engine) (serial : Bool) (members : BitVec 32) : Engine :=
      { en with tx := { en.tx with opened := true, cur := { id := en.tx.nextId, serial, members }, fcode := 0, flane := 0, fva := 0
                                   nextId := en.tx.nextId + 1 }
                fences := en.fences ++ [{ serial := en.serial, kind := if serial then 5 else 4, scope := 0, from_ := en.regionFrom, inst := 0 }]
                serial := en.serial + 1 }
    (∃ set : Nat → Engine → BitVec 32, Becomes (.txbegin m) s (g.mapAct s.ctx.act (fun k en => opened en false (set k en))) ∧
      ∀ k en l, l < 32 → ((set k en).getLsbD l = true ↔ enabled s k en m l)) ∧
    (∃ (set : Nat → BitVec 32) (t : State), exec (.txbeginSerial m) s = .next t ∧
      t.cores = (s.putGang s.ctx.core { g.mapAct s.ctx.act (fun k en => opened en true (set k)) with lockKept := false }).cores ∧
      (s.ctx.act.toNat ≠ 0 → s.lock.holder ≠ some s.ctx.core → s.ctx.core ∉ s.lock.requests →
        t.lock = { s.lock with requests := s.lock.requests ++ [s.ctx.core] }) ∧
      (s.lock.holder = some s.ctx.core ∨ s.ctx.core ∈ s.lock.requests → t.lock = s.lock) ∧ t.mem = s.mem ∧
      ∀ k l, k < 16 → s.ctx.act.getLsbD k = true → l < 32 → ((set k).getLsbD l = true ↔
        enabled s k (g.eng k) m l ∧ (∀ j, j < l → ¬ enabled s k (g.eng k) m j) ∧
        ∀ e, e < k → s.ctx.act.getLsbD e = true → ∀ j, j < 32 → ¬ enabled s e (g.eng e) m j)) ∧
    ∀ (s' : State) (g' : Gang), Here s' g' → ∃ f : Nat → Engine → TxState,
      Becomes (.txabort m) s' (urgent s' (g'.mapAct s'.ctx.act (fun k en => { en with tx := f k en }))) ∧
      ∀ k en, (en.tx.opened = false ∨ en.tx.cur.serial = true → f k en = en.tx) ∧
        (en.tx.opened = true → en.tx.cur.serial = false → ∀ l, l < 32 →
          ((f k en).cur.doomed.getLsbD l = true ↔ en.tx.cur.doomed.getLsbD l = true ∨
            (en.tx.cur.members.getLsbD l = true ∧ enabled s' k en m l)) ∧ (f k en).cur.members = en.tx.cur.members) ∧
        (en.tx.opened = true → en.tx.cur.serial = false → (f k en).opened = true ∧ (f k en).cur.reads = en.tx.cur.reads ∧
          (f k en).cur.writes = en.tx.cur.writes ∧ (f k en).cur.id = en.tx.cur.id ∧ (f k en).cur.causes = en.tx.cur.causes ++
            ((lanes s' k en m).filter (fun l => en.tx.cur.members.getLsbD l && !en.tx.cur.doomed.getLsbD l)).map (fun l => (l, 4)))

end

namespace Sys2Proof.Claims
open Sys2Proof.Machine

/-- A pattern register (R233): the NUM and SKIP of entry l, and its MODE. -/
def numOf (x : Vec) (l : Nat) : Nat := x.toNat / 2 ^ (8 * l) % 2 ^ 5
def skipOf (x : Vec) (l : Nat) : Bool := x.toNat.testBit (8 * l + 5)
def modeOf (x : Vec) : Nat := x.toNat / 2 ^ 256 % 2 ^ 16

/-- What R234 accepts in the source of XPLD. -/
def PatternOk (x : Vec) : Prop :=
  (∀ l, l < 32 → x.toNat / 2 ^ (8 * l + 6) % 2 ^ 2 = 0) ∧ modeOf x / 2 ^ 6 = 0 ∧ modeOf x % 2 ^ 3 ≠ 3 ∧ modeOf x % 2 ^ 3 ≠ 4 ∧
    (modeOf x / 2 ^ 5 % 2 = 1 → 5 ≤ modeOf x % 2 ^ 3 ∧ (modeOf x / 2 ^ 3 % 4 = 1 ∨ modeOf x / 2 ^ 3 % 4 = 2))

/-- The operation of a MODE on two elements (R237): a wrapping or rounded sum, a minimum, a maximum, or bitwise OR. -/
def combine (m x y : Nat) : Nat :=
  let t := etype (BitVec.ofNat 3 m)
  if m / 8 % 4 = 0 then (match t with
    | .int w => toBits (signedField x w + signedField y w) w
    | .flt f => (sumRound f .rne [some (fval f x), some (fval f y)] false).1)
  else if m / 8 % 4 = 3 then x ||| y
  else minMaxOf t (m.testBit 5) (m / 8 % 4 == 2) x y

/-- Whole elements of w bits, n of them, land in register d of an engine lat cycles on. -/
def WholeLands (s : State) (w n lat d : Nat) (elem : Nat → Nat) (L : List ELand) : Prop :=
  Writes s w lat d (fun e => e < n) (fun e => (elem e, 0)) L

/-- exec lands L in every active engine, and changes nothing else. -/
def LandsE (i : Instr) (s : State) (g : Gang) (L : Nat → Engine → List ELand) : Prop :=
  Becomes i s (g.mapAct s.ctx.act (fun k en => { en with lands := en.lands ++ L k en }))

/-- Element j of row m of a tile. -/
def tileElem (rows : List (BitVec 2048)) (m j : Nat) : Nat := (rows.getD m 0).toNat / 2 ^ (32 * j) % 2 ^ 32

/-- A tile form into engines that on names: tile d lands whole lat cycles on with the rows given, and is busy until then (R242). -/
def TileLands (i : Instr) (s : State) (g : Gang) (d lat : Nat) (on : Nat → Bool) (rows : Nat → List (BitVec 2048)) : Prop :=
  Becomes i s (g.mapAct (BitVec.ofNat 16 (((List.range 16).filter on).map (2 ^ ·)).sum) (fun k en =>
    { en with lands := en.lands ++ [{ issued := s.cycle, due := s.cycle + lat, pay := .tile d (rows k) }]
              busy := kput en.busy d (max (sget 0 en.busy d) (s.cycle + lat)) }))

/-- No source or destination tile of an engine is busy. -/
def idle (s : State) (en : Engine) (i : Nat) : Prop := sget 0 en.busy i ≤ s.cycle

/-- A shape word's fields (R138, R248). -/
def shM (h : Word) : Nat := h.toNat % 2 ^ 7
def shN (h : Word) : Nat := h.toNat / 2 ^ 8 % 2 ^ 7
def shK (h : Word) : Nat := h.toNat / 2 ^ 16 % 2 ^ 11
def shPack (h : Word) : Bool := h.getLsbD 32

/-- n in whole units of u. -/
def ceilTo (u n : Nat) : Nat := (n + (u - 1)) / u

/-- MMA, MMAS and MMAR by their fields: opcode, tile, latch, shape and address registers, A's code and element size, B's code, INC, CINC,
and the codebook or table number. -/
structure ArrRow where
  op : Nat
  c : BitVec 3
  l : BitVec 2
  h : BitVec 3
  r : BitVec 5
  ta : Nat
  sA : Nat
  tb : Nat
  inc : Bool
  cinc : Bool
  sel : Nat

def arrRow (i : Instr) : Option ArrRow :=
  match i with
  | .mma c l h r a b i t k => some ⟨1, c, l, h, r, a.toNat, if a = 1 then 2 else 1, b.toNat, i == 1, t == 1, k.toNat⟩
  | .mmas c l h r a b i t => some ⟨2, c, l, h, r, a.toNat, 1, b.toNat, i == 1, t == 1, 0⟩
  | .mmar c l h r b i t n => some ⟨3, c, l, h, r, 0, 1, b.toNat, i == 1, t == 1, n.toNat⟩
  | _ => none

namespace ArrRow

/-- Bytes of n elements of B, its row pitch, the rows of B a repetition reads, and the latches that A takes (R249, R251). -/
def bytes (x : ArrRow) (n : Nat) : Nat := if x.tb = 6 then ceilTo 2 n else if x.tb = 1 then 2 * n else n
def pitch (x : ArrRow) (w : Word) : Nat := if shPack w then 32 * ceilTo 32 (x.bytes (shN w)) else x.bytes 64
def rows (x : ArrRow) (w : Word) : Nat := if x.op = 2 then shK w / 2 else shK w
def latches (x : ArrRow) (w : Word) : Nat := ceilTo 256 (shK w * x.sA)

/-- The address of B in repetition j. -/
def addr (x : ArrRow) (s : State) (k : Nat) (en : Engine) (j : Nat) : Word :=
  if x.inc then plus (readA s k en x.r.toNat) (j * (readSt s k en x.r.toNat).toInt) else readA s k en x.r.toNat

/-- R248 and R249 for engine k and n repetitions. -/
def Sound (x : ArrRow) (s : State) (g : Gang) (n k : Nat) : Prop :=
  let en := g.eng k
  let w := readH s k en x.h.toNat
  let sb := (readSb s k en).toNat
  let st := (readSt s k en x.r.toNat).toNat
  shM w ≤ en.capRows ∧ x.l.toNat + x.latches w ≤ 4 ∧ n ≤ 4096 ∧ (x.cinc = true → n ≤ 8) ∧
  (x.op = 2 → shK w % 4 = 0 ∧ sb % 4 = 0 ∧ sb + shK w ≤ 4 * g.stencil.length) ∧
  addrBits (readA s k en x.r.toNat) 63 60 = 4 ∧ addrBits (readA s k en x.r.toNat) 4 0 = 0 ∧ (x.inc = true → st % 32 = 0) ∧
  1 ≤ shK w ∧ 1 ≤ shN w ∧
  ∀ j, j < n → let b := x.addr s k en j
    addrBits b 59 28 = 0 ∧ addrBits b 23 22 = 0 ∧
    ∀ i, i < x.rows w → addrBits b 21 0 + i * x.pitch w + x.bytes (shN w) ≤ g.info.ceilSize

/-- The value of a code of an array operand. -/
def value (t b : Nat) : FVal :=
  match etype (BitVec.ofNat 3 t) with
  | .int w => .fin (decide (signedField b w < 0)) (signedField b w).natAbs 0
  | .flt f => fval f b

/-- Byte o of row m of the latches from l on, and A[m][k]. -/
def latch (en : Engine) (l m o : Nat) : Nat := (sget 0 en.l (64 * (l + o / 256) + m)).toNat / 2 ^ (8 * (o % 256)) % 2 ^ 8
def a (x : ArrRow) (en : Engine) (m k : Nat) : FVal :=
  value x.ta (if x.sA = 2 then latch en x.l.toNat m (2 * k) + 2 ^ 8 * latch en x.l.toNat m (2 * k + 1) else latch en x.l.toNat m k)

/-- B[i][n] of the rows from ceiling offset b on. -/
def b (x : ArrRow) (s : State) (k : Nat) (en : Engine) (w : Word) (base i n : Nat) : FVal :=
  let byte (o : Nat) : Nat := (sget (0 : Byte) en.ceil (base + i * x.pitch w + o)).toNat
  if x.tb = 6 then fval .bf16 ((readCb s k en x.sel).toNat / 2 ^ (16 * (byte (n / 2) / 16 ^ (n % 2) % 16)) % 2 ^ 16)
  else if x.tb = 1 then value 1 (byte (2 * n) + 2 ^ 8 * byte (2 * n + 1))
  else value x.tb (byte n)

/-- The products of each step for element (m, n) (R256, R258, R259). -/
def steps (x : ArrRow) (s : State) (g : Gang) (k : Nat) (en : Engine) (base m n : Nat) : List (List (Option FVal)) :=
  let w := readH s k en x.h.toNat
  let kk := shK w
  let bv (i : Nat) : FVal := x.b s k en w base i n
  if x.op = 1 then
    (if x.tb = 6 then (List.range (ceilTo 2 kk)).map (fun q => ([2 * q, 2 * q + 1].filter (fun i => decide (i < kk))).map (fun i => mulVal (x.a en m i) (bv i)))
     else (List.range kk).map (fun i => [mulVal (x.a en m i) (bv i)]))
  else if x.op = 2 then
    (List.range (kk / 4)).map (fun j =>
      let nibble := (g.stencil.getD ((readSb s k en).toNat / 4 + j) 0).toNat / 16 ^ (n / 8) % 16
      let kept := ((List.range 4).filter nibble.testBit).take 2
      kept.mapIdx (fun q o => mulVal (x.a en m (4 * j + o)) (bv (2 * j + q))))
  else
    ((List.range kk).filter (fun i => (latch en x.l.toNat m i).testBit 7 && decide (m < shM w))).map (fun i =>
      [mulVal (fval .bf16 ((readAtt s k en x.sel).toNat / 2 ^ (16 * (latch en x.l.toNat m i % 64)) % 2 ^ 16)) (bv i)])

/-- Cycles that a repetition streams (R254). -/
def stream (x : ArrRow) (s : State) (k : Nat) (en : Engine) : Nat :=
  let w := readH s k en x.h.toNat
  if x.op = 1 then (if x.tb = 6 then ceilTo 2 (shK w) else if x.ta = 1 then 2 * shK w else shK w)
  else if x.op = 2 then shK w / 2
  else (List.range (shK w)).countP (fun i => (List.range (shM w)).any (fun m => (latch en x.l.toNat m i).testBit 7))

/-- Element (m, n) of a tile after the repetitions js in turn, each summed and rounded step by step (R123). -/
def after (x : ArrRow) (s : State) (g : Gang) (k : Nat) (en : Engine) (js : List Nat) (m n old : Nat) : Nat :=
  if m < shM (readH s k en x.h.toNat) ∧ n < shN (readH s k en x.h.toNat) then
    js.foldl (fun acc j => (x.steps s g k en (addrBits (x.addr s k en j) 21 0) m n).foldl
      (fun acc ps => (sumRound .fp32 .rne (some (fval .fp32 acc) :: ps) false).1) acc) old
  else old

end ArrRow

/-- The rows of tile or latch c that an X operation lands: 64 rows of which element j of row m is val m j. -/
def TileRows (c : Nat) (val : Nat → Nat → Nat) (rows : List (Nat × BitVec 2048)) : Prop :=
  rows.length = 64 ∧ ∀ m, m < 64 → ∃ r, rows[m]? = some (64 * c + m, r) ∧ ∀ j, j < 64 → r.toNat / 2 ^ (32 * j) % 2 ^ 32 = val m j

/-- Element (m, n) of tile c as an engine holds it. -/
def held (en : Engine) (c m n : Nat) : Nat := (sget 0 en.c (64 * c + m)).toNat / 2 ^ (32 * n) % 2 ^ 32

/-- Busy bits after an X instruction: the ids named are busy at least until their cycle, and no other changes. -/
def Busy (en : Engine) (ids : List (Nat × Nat)) (busy : List (Nat × Nat)) : Prop :=
  (∀ p, p ∈ ids → p.2 ≤ sget 0 busy p.1) ∧ ∀ i, (∀ p, p ∈ ids → p.1 ≠ i) → sget 0 busy i = sget 0 en.busy i

/-- No sector of an engine's scratchpad and ceiling store is poisoned (R405). -/
def CleanSram (en : Engine) : Prop := ∀ j, sget 0 en.poison j = 0
/-- Repetitions of the X instruction (R262). -/
def reps (s : State) : Nat := if s.ctx.unit = 1 then s.ctx.value.toNat else 1

/-- An access of the tile port that R252 lets pass: tag 1, offset and stride in units of 32, every row of len bytes in the scratchpad. -/
def PortOk (g : Gang) (a : Word) (stride : Int) (rows len : Nat) : Prop :=
  addrBits a 63 60 = 1 ∧ addrBits a 4 0 = 0 ∧ stride % 32 = 0 ∧
  ∀ m, m < rows → 0 ≤ (addrBits a 59 0 : Int) + m * stride ∧ (addrBits a 59 0 : Int) + m * stride + len ≤ g.info.spSize ∧
    (addrBits a 59 0 : Int) + m * stride < 2 ^ 60

/-- The state of engine k after a tile-port operation that takes t cycles: it stands in xops, and the port is busy. -/
def Port (en en' : Engine) (x : XOp) (ids : List (Nat × Nat)) (lands : List ELand) : Prop :=
  ∃ busy, en' = { en with xops := en.xops ++ [x], portFree := x.due, serial := en.serial + 1, busy, lands := en.lands ++ lands } ∧ Busy en ids busy

/-- The post-increment of an X instruction. -/
def xBump (s : State) (k : Nat) (en : Engine) (r : BitVec 5) (i : BitVec 1) : List ELand :=
  if i = 0 then [] else
    [{ issued := s.cycle, due := s.cycle + 1, pay := EPay.a r.toNat false (plus (readA s k en r.toNat) (readSt s k en r.toNat).toInt) }]

/-- Byte o of row m of the latches from l on, among rows on their way: as given, or as the latch holds it. -/
def LatchRows (en : Engine) (l m0 bytes : Nat) (val : Nat → Nat → Nat) (rows : List (Nat × BitVec 2048)) : Prop :=
  ∀ m o, o < ceilTo 256 bytes * 256 → m < m0 → ∃ r, (512 + 64 * (l + o / 256) + m, r) ∈ rows ∧
    r.toNat / 2 ^ (8 * (o % 256)) % 2 ^ 8 = if o < bytes then val m o else ArrRow.latch en l m o

/-- The rank map of a code (R252): 0x80 plus the first rank that names x before the code ends, else 0. -/
def RankByte (code : Nat → Nat) (ncut x v : Nat) : Prop :=
  let names (q : Nat) : Prop := q < ncut ∧ (∀ p, p ≤ q → code p ≠ 0xFFFF) ∧ code q = x
  (∀ q, Lowest names q → v = 0x80 + q) ∧ ((∀ q, ¬ names q) → v = 0)

end Sys2Proof.Claims

section
open Sys2Proof Sys2Proof.Machine Sys2Proof.Claims

/-- XRED, XSCAN, XPERM, XSHFL, GVSH and GVRED complete (R236-R240): elements combine in R125's tree over the present ones, lanes move by
the pattern, registers and elements move over the gang, each landing at its latency; two sources of one lane raise XBAR_COLLISION. -/
def Sys2Proof.Claims.CrossbarVectors : Prop :=
  ∀ (s : State) (g : Gang) (d a : BitVec 5) (p : BitVec 2), Here s g →
    let src (k : Nat) (en : Engine) : Vec := readV s k en (288 + a.toNat)
    let pat (k : Nat) (en : Engine) : Vec := readX s k en p.toNat
    let dst := 288 + d.toNat
    let act (k : Nat) : Bool := s.ctx.act.getLsbD k
    let reduce (i : Instr) (takes : Nat → Nat → Bool) : Prop := ∃ L, LandsE i s g L ∧ ∀ k en,
      let m := modeOf (pat k en)
      let w := widthT (BitVec.ofNat 3 m)
      WholeLands s w (1024 / w) 6 dst (fun e => (tree (combine m) ((List.range (1024 / w)).map (fun j =>
        if skipOf (pat k en) (j * w / 32) = false ∧ takes j e then some ((src k en).toNat / 2 ^ (w * j) % 2 ^ w) else none))).getD 0) (L k en)
    reduce (.xred d a p) (fun _ _ => true) ∧ reduce (.xscan d a p) (fun j e => decide (j ≤ e)) ∧
    (∃ L, LandsE (.xshfl d a p) s g L ∧ ∀ k en, Writes s 32 3 dst (fun l => l < 32 ∧ skipOf (pat k en) l = false)
      (fun l => (laneAt (src k en) (numOf (pat k en) l), 0)) (L k en)) ∧
    (let meets (k t l : Nat) : Prop := l < 32 ∧ skipOf (pat k (g.eng k)) l = false ∧ numOf (pat k (g.eng k)) l = t
     let twice (k t : Nat) : Prop := ∃ l l', l ≠ l' ∧ meets k t l ∧ meets k t l'
     let bad (k : Nat) : Prop := k < 16 ∧ act k = true ∧ ∃ t, t < 32 ∧ twice k t
     ((∀ k, ¬ bad k) → ∃ L, LandsE (.xperm d a p) s g L ∧ ∀ k, k < 16 → act k = true → ∃ from_ : Nat → Nat,
       (∀ t, t < 32 → (∃ l, meets k t l) → meets k t (from_ t)) ∧
       Writes s 32 3 dst (fun t => t < 32 ∧ ∃ l, meets k t l) (fun t => (laneAt (src k (g.eng k)) (from_ t), 0)) (L k (g.eng k))) ∧
     ∀ k t, Lowest bad k → Lowest (twice k) t → ∃ (m : Mask) (lanes : BitVec 32), Becomes (.xperm d a p) s { g with raised := g.raised ++
         [{ code := .xbarCollision, rank := faultRank .xbarCollision s.ctx.slot 0xFF, slot := slotNum s.ctx.slot, queue := 0xFF
            engmask := m, detail := t + 2 ^ 8 * p.toNat, vaddr := 0, lanes }] } ∧
       (∀ j, j < 16 → (m.getLsbD j = true ↔ bad j)) ∧ ∀ l, l < 32 → (lanes.getLsbD l = true ↔ meets k t l)) ∧
    LandsE (.gvsh d a p) s g (fun k en =>
      let e := numOf (pat k en) k % 16
      if skipOf (pat k en) k = false ∧ act e = true then
        [{ issued := s.cycle, due := s.cycle + 10, pay := .v dst (BitVec.allOnes 1024) (src e (g.eng e)) }] else []) ∧
    ∃ L, LandsE (.gvred d a p) s g L ∧ ∀ low, Lowest (fun k => k < 16 ∧ act k = true) low → ∀ k en,
      let m := modeOf (pat low (g.eng low))
      let w := widthT (BitVec.ofNat 3 m)
      WholeLands s w (1024 / w) 14 dst (fun e => (tree (combine m) ((List.range 16).map (fun k =>
        if act k = true ∧ skipOf (pat k (g.eng k)) k = false then some ((src k (g.eng k)).toNat / 2 ^ (w * e) % 2 ^ w) else none))).getD 0)
        (L k en)

/-- GSHUF, GBCST and GRED complete where no tile they touch is busy (R241, R242): a tile of another active engine, of one engine to all,
or the sum of all in the root, lands whole 40 or 56 cycles on. -/
def Sys2Proof.Claims.CrossbarTiles : Prop :=
  ∀ (s : State) (g : Gang) (d t : BitVec 3) (n : BitVec 4), Here s g →
    (∀ k, k < 16 → s.ctx.act.getLsbD k = true → idle s (g.eng k) d.toNat ∧ idle s (g.eng k) t.toNat) →
    let act (k : Nat) : Bool := s.ctx.act.getLsbD k
    let tile (k : Nat) : List (BitVec 2048) := (List.range 64).map (fun m => sget 0 (g.eng k).c (64 * t.toNat + m))
    TileLands (.gshuf d t n) s g d.toNat 40 (fun k => act k && act (k ^^^ n.toNat)) (fun k => tile (k ^^^ n.toNat)) ∧
    TileLands (.gbcst d t n) s g d.toNat 40 (fun k => act k && act n.toNat) (fun _ => tile n.toNat) ∧
    ∃ rows, TileLands (.gred d t n) s g d.toNat 56 (fun k => act k && decide (k = n.toNat)) (fun _ => rows) ∧
      ∀ m j, m < 64 → j < 64 → tileElem rows m j = (tree (fun x y => (sumRound .fp32 .rne [some (fval .fp32 x), some (fval .fp32 y)] false).1)
        ((List.range 16).map (fun k => if act k then some (tileElem (tile k) m j) else none))).getD 0

/-- CBLD, SCLD, ATLD, STBS and XPLD complete (R234, R263, R278): a table takes its bits of v288 + A 3 cycles on; a pattern that R234 does
not accept raises ILLEGAL_ENCODING with DETAIL 0x300 plus the target. -/
def Obligations.TableLoads : Prop :=
  ∀ (s : State) (g : Gang) (a : BitVec 5) (t : BitVec 3) (h : BitVec 1), Here s g →
    let src (k : Nat) (en : Engine) : Vec := readV s k en (288 + a.toNat)
    let lands (i : Instr) (pay : Vec → EPay) : Prop :=
      LandsE i s g (fun k en => [{ issued := s.cycle, due := s.cycle + 3, pay := pay (src k en) }])
    let bad (k : Nat) : Prop := k < 16 ∧ s.ctx.act.getLsbD k = true ∧ ¬ PatternOk (src k (g.eng k))
    lands (.cbld a t) (fun v => .cb t.toNat (v.setWidth 256)) ∧ lands (.scld a t h) (fun v => .sc t.toNat (h == 1) v) ∧
    lands (.atld a t) (fun v => .att t.toNat v) ∧ lands (.stbs a) (fun v => .sb (v.setWidth 32)) ∧
    ((∀ k, ¬ bad k) → lands (.xpld a t) (fun v => .x t.toNat (BitVec.ofNat 1024 (v.toNat % 2 ^ 272)))) ∧
    ((∃ k, bad k) → ∃ m : Mask, Raises (.xpld a t) s g .illegalEncoding m (0x300 + t.toNat) 0 ∧
      ∀ k, k < 16 → (m.getLsbD k = true ↔ bad k))

/-- MMA, MMAS and MMAR complete where every active engine passes R248 and R249 and only MMA reads B through a codebook (R254, R256, R258, R259, R262): each repetition's products
are summed into the FP32 tile step by step in ascending k, the tile lands whole 20 cycles after its stream, or each repetition's own tile
with CINC, and the array is busy for the streams, in each engine whose ceiling store holds no poisoned word. A count of 0 does nothing.
That the rows are computed at issue and land whole, and the order of the checks, are the model's reading (log 15). -/
def Obligations.ArrayOperations : Prop :=
  ∀ (s : State) (g : Gang) (i : Instr) (x : ArrRow), Here s g → arrRow i = some x → (x.tb = 6 → x.op = 1) →
    let n := reps s
    (n = 0 → Becomes i s g) ∧
    (n ≠ 0 → (∀ k, k < 16 → s.ctx.act.getLsbD k = true → x.Sound s g n k) → ∃ f : Nat → Engine → Engine,
      Becomes i s (g.mapAct s.ctx.act f) ∧ ∀ k en, CleanSram en → ∃ (ops : List XOp) (busy : List (Nat × Nat)),
        let t := x.stream s k en
        let tile (j : Nat) : Nat := if x.cinc then (x.c.toNat + j) % 8 else x.c.toNat
        f k en = { en with xops := en.xops ++ ops, arrayFree := s.cycle + n * t, serial := en.serial + 1, busy
                           lands := en.lands ++ if x.inc then [{ issued := s.cycle, due := s.cycle + 1
                                                                 pay := EPay.a x.r.toNat false (x.addr s k en n) }] else [] } ∧
        ops.length = (if x.cinc then n else 1) ∧
        (∀ j o, ops[j]? = some o → o.issued = s.cycle ∧ o.serial = en.serial ∧ o.opcode = x.op ∧ o.load = none ∧ o.bad = none ∧
          o.due = s.cycle + 20 + (if x.cinc then j + 1 else n) * t ∧
          TileRows (tile j) (fun m c => x.after s g k en (if x.cinc then [j] else List.range n) m c (held en (tile j) m c)) o.rows) ∧
        Busy en (ops.mapIdx (fun j o => (tile j, o.due)) ++
          (List.range (x.latches (readH s k en x.h.toNat))).map (fun j => (8 + x.l.toNat + j, s.cycle + n * t))) busy)

/-- TZERO, TADD, TSCL, TLD, TST and the two modes of LATLD complete where every active engine passes the checks of R248 and R252 (R251,
R252, R254, R260): the tile or latches land whole at the published cycle with their port busy until then; a TST holds one store of the
tile's elements. A read of the scratchpad that no fence delays and that meets no poisoned word takes the bytes as they stand. -/
def Obligations.TilePort : Prop :=
  ∀ (s : State) (g : Gang) (c h t : BitVec 3) (l sc : BitVec 2) (r : BitVec 5) (fa : BitVec 3) (i : BitVec 1) (cut : BitVec 6), Here s g →
    let w (k : Nat) (en : Engine) : Word := readH s k en h.toNat
    let inside (k : Nat) (en : Engine) (m n : Nat) : Prop := m < shM (w k en) ∧ n < shN (w k en)
    let a (k : Nat) (en : Engine) : Word := readA s k en r.toNat
    let st (k : Nat) (en : Engine) : Int := (readSt s k en r.toNat).toInt
    let every (p : Nat → Engine → Prop) : Prop := ∀ k, k < 16 → s.ctx.act.getLsbD k = true → p k (g.eng k)
    let byte (en : Engine) (o : Int) : Nat := (sget (0 : Byte) en.scratch o.toNat).toNat
    let free (k : Nat) (en : Engine) : Prop := mayPerform s s.ctx.core g k en.serial 7 .load = true ∧ CleanSram en
    let result (i : Instr) (op : Nat) (lat : Nat → Engine → Nat) (ids : List Nat) (val : Nat → Engine → Nat → Nat → Nat) : Prop :=
      ∃ f : Nat → Engine → Engine, Becomes i s (g.mapAct s.ctx.act f) ∧ ∀ k en, ∃ rows,
        Port en (f k en) { issued := s.cycle, due := s.cycle + lat k en, serial := en.serial, opcode := op, rows, load := none }
          (ids.map (fun id => (id, s.cycle + lat k en))) [] ∧ TileRows c.toNat (val k en) rows
    let sum (x y : Nat) : Nat := (sumRound .fp32 .rne [some (fval .fp32 x), some (fval .fp32 y)] false).1
    let scale (x y : Nat) : Nat := (sumRound .fp32 .rne [mulVal (fval .fp32 x) (fval .fp32 y)] false).1
    result (.tzero c) 5 (fun _ _ => 4) [c.toNat] (fun _ _ _ _ => 0) ∧
    (∃ val, result (.tadd c h t) 8 (fun k en => 8 + shM (w k en)) [c.toNat, t.toNat] val ∧ ∀ k en m n,
      (inside k en m n → val k en m n = sum (held en c.toNat m n) (held en t.toNat m n)) ∧ (¬ inside k en m n → val k en m n = held en c.toNat m n)) ∧
    (∃ val, result (.tscl c h sc) 9 (fun k en => 8 + shM (w k en)) [c.toNat] val ∧ ∀ k en m n,
      (inside k en m n → val k en m n = scale (held en c.toNat m n) ((readSc s k en sc.toNat).toNat / 2 ^ (32 * n) % 2 ^ 32)) ∧
      (¬ inside k en m n → val k en m n = held en c.toNat m n)) ∧
    (every (fun k en => PortOk g (a k en) (st k en) (shM (w k en)) (4 * shN (w k en))) → every free →
      ∃ f : Nat → Engine → Engine, Becomes (.tld c h r) s (g.mapAct s.ctx.act f) ∧ every (fun k en => ∃ rows,
        Port en (f k en) { issued := s.cycle, due := s.cycle + 16 + shM (w k en), serial := en.serial, opcode := 6, rows, load := none }
          [(c.toNat, s.cycle + 16 + shM (w k en))] [] ∧ ∃ val : Nat → Nat → Nat, TileRows c.toNat val rows ∧ ∀ m n : Nat,
          (inside k en m n → val m n = ((List.range 4).map (fun (b : Nat) =>
            2 ^ (8 * b) * byte en (addrBits (a k en) 59 0 + m * st k en + 4 * n + b))).sum) ∧
          (¬ inside k en m n → val m n = held en c.toNat m n))) ∧
    (every (fun k en => PortOk g (a k en) (st k en) (shM (w k en)) (4 * shN (w k en)) ∧ en.sq.length < 64) →
      ∃ busy : Nat → Engine → List (Nat × Nat), Becomes (.tst c h r) s (g.mapAct s.ctx.act (fun k en =>
        { en with
          sq := en.sq ++ [{
            serial := en.serial, marker := none, completeAt := s.cycle + 4 + shM (w k en), issued := s.cycle
            acc := { kind := .long, opcode := 7, sizeCode := 2, write := true, scope := 0, block := false, data := 0, cmp := 0
                     pieces := (List.range (shM (w k en))).flatMap (fun (m : Nat) => (List.range (shN (w k en))).map (fun (n : Nat) =>
                       { lane := 0, addr := plus (a k en) (m * st k en + 4 * n), bytes := 4, data := held en c.toNat m n })) } }]
          portFree := s.cycle + 4 + shM (w k en), serial := en.serial + 1, busy := busy k en })) ∧
        ∀ k en, Busy en [(c.toNat, s.cycle + 4 + shM (w k en))] (busy k en)) ∧
    (let bytes (k : Nat) (en : Engine) : Nat := shK (w k en) * if fa = 1 then 2 else 1
     let pitch (k : Nat) (en : Engine) : Nat := 32 * ceilTo 32 (bytes k en)
     every (fun k en => l.toNat + ceilTo 256 (bytes k en) ≤ 4 ∧ PortOk g (a k en) (pitch k en) (shM (w k en)) (bytes k en)) → every free →
      ∃ f : Nat → Engine → Engine, Becomes (.latld l h r fa i) s (g.mapAct s.ctx.act f) ∧ every (fun k en => ∃ rows,
        Port en (f k en) { issued := s.cycle, due := s.cycle + 16 + shM (w k en), serial := en.serial, opcode := 4, rows, load := none }
          ((List.range (ceilTo 256 (bytes k en))).map (fun j => (8 + l.toNat + j, s.cycle + 16 + shM (w k en)))) (xBump s k en r i) ∧
        LatchRows en l.toNat (shM (w k en)) (bytes k en) (fun (m o : Nat) => byte en (addrBits (a k en) 59 0 + m * pitch k en + o)) rows)) ∧
    (let ncut := cut.toNat + 1
     let pitch : Nat := 32 * ceilTo 32 (2 * ncut)
     every (fun k en => l.toNat + ceilTo 256 (shK (w k en)) ≤ 4 ∧ PortOk g (a k en) pitch (shM (w k en)) (2 * ncut)) → every free →
      ∃ f : Nat → Engine → Engine, Becomes (.latldRank l h r i cut) s (g.mapAct s.ctx.act f) ∧ every (fun k en => ∃ rows,
        Port en (f k en) { issued := s.cycle, due := s.cycle + 24 + shM (w k en), serial := en.serial, opcode := 4, rows, load := none }
          ((List.range (ceilTo 256 (shK (w k en)))).map (fun j => (8 + l.toNat + j, s.cycle + 24 + shM (w k en)))) (xBump s k en r i) ∧
        ∃ val : Nat → Nat → Nat, LatchRows en l.toNat (shM (w k en)) (shK (w k en)) val rows ∧ ∀ m x : Nat, x < shK (w k en) →
          RankByte (fun (q : Nat) => byte en (addrBits (a k en) 59 0 + m * pitch + 2 * q) + 2 ^ 8 * byte en (addrBits (a k en) 59 0 + m * pitch + 2 * q + 1))
            ncut x (val m x)))

/-- Rows have taken their places in the tiles and latches of an engine, and nothing else of it has changed. -/
def Sys2Proof.Claims.RowsLand (rows : List (Nat × BitVec 2048)) (en en' : Engine) : Prop :=
  en' = { en with c := en'.c, l := en'.l } ∧ (sparseWf 0 en.c = true → sparseWf 0 en.l = true →
    (∀ key row, (key, row) ∈ rows → if key < 512 then sget 0 en'.c key = row else sget 0 en'.l (key - 512) = row) ∧
    (∀ key, key < 512 → (∀ row, (key, row) ∉ rows) → sget 0 en'.c key = sget 0 en.c key) ∧
    ∀ key, 512 ≤ key → (∀ row, (key, row) ∉ rows) → sget 0 en'.l (key - 512) = sget 0 en.l (key - 512))

/-- A checkpoint that was taken while operation x of engine k ran holds its result from its completion on, and the operation no more; another
checkpoint stays (R38, R255). -/
def Sys2Proof.Claims.CkptLands (k : Nat) (x : XOp) (c c' : Option Ckpt) : Prop :=
  match c with
  | none => c' = none
  | some c => ∃ es : List (Nat × Engine), c' = some { c with engines := es } ∧ es.length = c.engines.length ∧
    ∀ (n : Nat) j e, c.engines[n]? = some (j, e) → ∃ e', es[n]? = some (j, e') ∧
      (j = k ∧ x.issued < c.at_ →
        RowsLand x.rows { e with xops := e.xops.filter (fun y => y.serial != x.serial || (y.due != x.due && y.load.isNone)) } e') ∧
      (¬ (j = k ∧ x.issued < c.at_) → e' = e)

/-- ARRAY_OP_COMPLETE completes: the rows of the first operation of the engine that is due take their places in tiles and latches, in the gang
and in a checkpoint that was taken while it ran (R255), and the operation leaves; no other row, register or engine changes. Where it has read a
poisoned word, the gang begins to halt with POISON and SLOT 8, in the half of the sequencer that drives the engine, with the word's address
(R265); that DETAIL is 0, and that this POISON takes the place of another cause for which the gang halts or has halted, is the model's reading
(log 47). With no operation due nothing changes. -/
def Obligations.ArrayCompletion : Prop :=
  ∀ (s : State) (g : Gang), Here s g →
    ((∀ y, y ∈ (g.eng s.ctx.engine).xops → ¬ (y.load = none ∧ y.due ≤ s.cycle)) → Becomes .arrayOpComplete s g) ∧
    ∀ (x : XOp) (pre rest : List XOp), s.ctx.engine < g.engines.length →
      (g.eng s.ctx.engine).xops = pre ++ x :: rest → x.load = none → x.due ≤ s.cycle → (∀ y, y ∈ pre → ¬ (y.load = none ∧ y.due ≤ s.cycle)) →
      (∀ y, y ∈ pre ++ rest → y.serial ≠ x.serial ∨ y.due ≠ x.due) → (x.rows.map (·.1)).Nodup →
      ∃ (en : Engine) (ckptP ckptS : Option Ckpt),
        RowsLand x.rows { g.eng s.ctx.engine with xops := pre ++ rest } en ∧ CkptLands s.ctx.engine x g.ckptP ckptP ∧
        CkptLands s.ctx.engine x g.ckptS ckptS ∧
        let h : Gang := { g.modEng s.ctx.engine (fun _ => en) with ckptP, ckptS }
        let already := ∃ r, g.halt = some r ∧ r.code = .poison ∧ r.slot = 8
        let halts := g.st = .running ∨ g.st = .exiting ∨ ((g.st = .faulting ∨ g.st = .halted) ∧ ¬ already)
        (x.bad = none → Becomes .arrayOpComplete s h) ∧
        (∀ va, x.bad = some va → ¬ halts → Becomes .arrayOpComplete s h) ∧
        (∀ va, x.bad = some va → halts → Becomes .arrayOpComplete s { h with
          st := .faulting, raised := [], haltSpare := g.split && g.splitEngines.getLsbD s.ctx.engine
          halt := some { code := .poison, rank := 0, slot := 8, queue := 0xFF, engmask := 1#16 <<< s.ctx.engine, detail := 0, vaddr := va, lanes := 0 } })

end

namespace Sys2Proof.Claims
open Sys2Proof.Machine

/-- exec answers a state of which p says the rest. -/
def Answers (i : Instr) (s : State) (p : State → Prop) : Prop := ∃ t, exec i s = .next t ∧ p t

/-- The number that n bytes from an address make, the lowest least significant. -/
def leOf (byte : Nat → Byte) (a n : Nat) : Nat := ((List.range n).map (fun i => 2 ^ (8 * i) * (byte (a + i)).toNat)).sum

/-- A memory with the n low bytes of a number written from an address and every other byte as it was. -/
def Stored (old new : Nat → Byte) (a n v : Nat) : Prop :=
  ∀ x, new x = if a ≤ x ∧ x < a + n then BitVec.ofNat 8 (v / 2 ^ (8 * (x - a))) else old x

/-- A piece that passes every check of R181 in its engine's own scratchpad, and its offset there. -/
def OwnPiece (g : Gang) (p : Piece) : Prop :=
  0 < p.bytes ∧ addrBits p.addr 63 60 = 1 ∧ addrBits p.addr 59 22 = 0 ∧ addrBits p.addr 21 0 + p.bytes ≤ g.info.spSize ∧
    p.addr.toNat % max 1 p.bytes = 0 ∧ p.tx = .plain ∧ p.block = none
def offsetOf (p : Piece) : Nat := addrBits p.addr 21 0
/-- None of n bytes from an offset of an engine's scratchpad lies in a poisoned sector (R194). -/
def Clean (en : Engine) (off n : Nat) : Prop := ∀ j, j < n → sget 0 en.poison ((off + j) / 32) = 0

/-- The gang after an entry of a load queue has changed: the one that the step's subject names. -/
def withEntry (s : State) (g : Gang) (en : Engine) (f : QEntry → QEntry) : Gang :=
  g.modEng s.ctx.engine (fun _ => en.modEntry s.ctx.unit s.ctx.id f)

/-- The subject of the step is an entry of a load queue that may be performed. -/
def Entry (s : State) (g : Gang) (e : QEntry) : Prop :=
  s.ctx.unit ≠ 2 ∧ s.ctx.unit ≠ 4 ∧ (g.eng s.ctx.engine).entryAt s.ctx.unit s.ctx.id = some e ∧ e.acc.pre = none

/-- AOP of R185 on w-bit values, for the old value, the operand and the comparand. -/
def aopValue (o old d c w : Nat) : Nat :=
  if o = 0 then (old + d) % 2 ^ w
  else if o = 1 then (if signedField d w < signedField old w then d else old)
  else if o = 2 then (if signedField old w < signedField d w then d else old)
  else if o = 3 then min old d
  else if o = 4 then max old d
  else if o = 5 then old &&& d
  else if o = 6 then old ||| d
  else if o = 7 then old ^^^ d
  else if o = 8 then d
  else if o = 9 then (if old = c then d else old)
  else if 0x7F800000 < old % 2 ^ 31 ∨ 0x7F800000 < d % 2 ^ 31 then 0x7FC00000
  else (sumRound .fp32 .rne [some (fval .fp32 old), some (fval .fp32 d)] false).1

/-- A virtual address that the core's own cache translates, with the rights asked. -/
def Translates (s : State) (core : Nat) (g : Gang) (va : Nat) (rd wr : Bool) (pa : Nat) : Prop :=
  core < 72 ∧ ∃ e, tcFind (s.core core).tc g.info.asid va = some e ∧ (rd = true → e.rd = true) ∧ (wr = true → e.wr = true) ∧
    pa = e.frame + va % 2 ^ pageBits e.level

/-- The same to a physical address on no fenced die or poisoned sector. -/
def Mapped (s : State) (core : Nat) (g : Gang) (va n pa : Nat) (rd wr : Bool) : Prop :=
  Translates s core g va rd wr pa ∧ s.poisoned pa n = false ∧ s.deadDie (dieOf core) = false

/-- Where a piece of engine k that passes every check leads (R52-R54, R181): the scratchpad of engine e on core c, at an offset; or memory, at
a physical address. -/
def ToScratch (s : State) (g : Gang) (k : Nat) (p : Piece) (c e off : Nat) : Prop :=
  let tag := addrBits p.addr 63 60
  let pos := addrBits p.addr 32 28
  0 < p.bytes ∧ off = addrBits p.addr 21 0 ∧ off + p.bytes ≤ g.info.spSize ∧ Lined p ∧
    (∃ h, s.gang c = some h ∧ e < h.engines.length ∧ (tag ≠ 1 → h.live.getLsbD e = true)) ∧
    ((tag = 1 ∧ addrBits p.addr 59 22 = 0 ∧ c = s.ctx.core ∧ e = k) ∨
     (tag = 2 ∧ addrBits p.addr 59 28 = 0 ∧ addrBits p.addr 23 22 = 0 ∧ c = s.ctx.core ∧ e = addrBits p.addr 27 24) ∨
     (tag = 3 ∧ addrBits p.addr 59 33 = 0 ∧ addrBits p.addr 23 22 = 0 ∧ pos < g.info.ngang ∧ c = g.info.cores.getD pos s.ctx.core ∧
      e = addrBits p.addr 27 24))
def ToMemory (s : State) (g : Gang) (p : Piece) (rd wr : Bool) (pa : Nat) : Prop :=
  0 < p.bytes ∧ addrBits p.addr 63 48 = 0 ∧ Lined p ∧ Translates s s.ctx.core g p.addr.toNat rd wr pa

/-- The bytes there may be read: of no poisoned sector and no fenced unit (R194, R407), and of no ring that the address space has (R347). -/
def Sound (s : State) (c e off n : Nat) : Prop :=
  s.deadSram c e = false ∧ ∀ h, s.gang c = some h → ∀ j, j < n → sget 0 (h.eng e).poison ((off + j) / 32) = 0
def SoundMemory (s : State) (g : Gang) (pa n : Nat) : Prop :=
  s.poisoned pa n = false ∧ s.deadDie (dieOf s.ctx.core) = false ∧ ∀ r, r ∈ s.rings → r.2.asid ≠ g.info.asid

/-- A state but for the times until which scratchpad banks are held (R177; log 78). -/
def lessBanks (s : State) : State :=
  { s with cores := s.cores.map (fun c => { c with gang := c.gang.map (fun g =>
      { g with engines := g.engines.map (fun en => { en with banks := [] }) }) }) }

/-- The byte at a physical address after the hub directory has recalled its line: the dirty one of the highest die that has it dirty, else
the home slice's (R66; that the dies write back in ascending order is the model's choice, log 76). -/
def recalled (s : State) (a : Nat) : Byte :=
  match ((List.range 8).filter (fun d => (s.line d (a / 128)).dirty.getLsbD (a % 128))).getLast? with
  | some d => BitVec.ofNat 8 ((s.line d (a / 128)).data.toNat / 2 ^ (8 * (a % 128)))
  | none => s.homeByte a

/-- The home slices and die caches after n bytes at a physical address, all of one line, have been written at package scope: the line is
recalled, no die keeps a copy, and every other byte and line is as it was (R66, R189; that a SCOP recalls its line too is the model's
choice, log 76). -/
def StoredHome (s t : State) (pa n v : Nat) : Prop :=
  Stored (fun a => if a / 128 = pa / 128 then recalled s a else s.homeByte a) t.homeByte pa n v ∧
  (∀ d, t.line d (pa / 128) = {}) ∧ ∀ d l, l ≠ pa / 128 → t.line d l = s.line d l

/-- The die caches as they stand in every run: eight, each in its canonical form. -/
def CachesWf (s : State) : Prop := s.dieCaches.length = 8 ∧ ∀ d, sparseWf {} (s.dieCaches.getD d []) = true

/-- No die cache holds a byte of a line. -/
def Uncached (s : State) (l : Nat) : Prop := ∀ d, kfind (s.dieCaches.getD d []) l = none

/-- A state whose memory and die caches have changed, with another gang on the core. -/
def MemoryGang (s t : State) (g' : Gang) : Prop :=
  t = { s.putGang s.ctx.core g' with mem := t.mem, dieCaches := t.dieCaches, homeLines := t.homeLines }

end Sys2Proof.Claims

section
open Sys2Proof Sys2Proof.Machine Sys2Proof.Claims

/-- LOAD_ENTRY_RESOLVE completes for a load (R62, R63, R180, R309): each piece reads its bytes in its own scratchpad or another engine's, or, in
memory and in the lane-private space, in the die cache, and a serial member's at the home slice; a doomed lane's reads 0. A line that it brings
into the die cache changes no byte that a die reads, and the engine notes the dirty ones for its releases (R65). -/
def Sys2Proof.Claims.LoadsAnywhere : Prop :=
  ∀ (s : State) (g : Gang) (e : QEntry) (val : Piece → Nat), Here s g → CachesWf s → Entry s g e → e.pins = [] →
    entryDue s s.ctx.core s.ctx.engine g e = true → e.held = none → e.acc.kind = .load →
    (s.dieCaches.getD (dieOf s.ctx.core) []).length + e.acc.pieces.length ≤ 393216 →
    (∀ p, p ∈ e.acc.pieces →
      (∃ c x off, p.tx = .plain ∧ ToScratch s g s.ctx.engine p c x off ∧ Sound s c x off p.bytes ∧
        val p = leOf (sget 0 (s.scratch c x)) off p.bytes) ∨
      (∃ pa, (p.tx = .plain ∨ p.tx = .serial) ∧ ToMemory s g p true false pa ∧ SoundMemory s g pa p.bytes ∧ pa / 128 = (pa + p.bytes - 1) / 128 ∧
        val p = leOf (if p.tx = .serial then s.homeByte else s.dieByte (dieOf s.ctx.core)) pa p.bytes) ∨
      (p.tx = .dead ∧ val p = 0)) →
    ∃ (v : Vec) (seen : List Nat), v.toNat = (e.acc.pieces.foldr (fun p acc => 2 ^ (32 * p.lane) * val p ||| acc) 0) % 2 ^ 1024 ∧
      (∀ l, l ∈ seen ↔ l ∈ (g.eng s.ctx.engine).seen ∨ ∃ p pa, p ∈ e.acc.pieces ∧ p.tx = .plain ∧ ToMemory s g p true false pa ∧ l = pa / 128 ∧
        (s.line (dieOf s.ctx.core) l).dirty ≠ 0) ∧
      Answers .loadEntryResolve s (fun t =>
        lessBanks t = lessBanks { s.putGang s.ctx.core (g.modEng s.ctx.engine (fun en =>
            { en.modEntry s.ctx.unit s.ctx.id (fun e => { e with result := some (.data v), readyAt := s.cycle }) with seen })) with
          dieCaches := t.dieCaches, homeLines := t.homeLines } ∧
        ∀ d a, t.dieByte d a = s.dieByte d a)

/-- LOAD_ENTRY_RESOLVE completes for an atomic operation (R66, R185, R186): at its scratchpad bank wherever that is, in the die cache below
package scope, and else at the home slice, it stores AOP's value and returns the old one in its lane; below package scope its engine notes the line for its
releases (R65). -/
def Sys2Proof.Claims.AtomicsAnywhere : Prop :=
  ∀ (s : State) (g : Gang) (e : QEntry) (o w : Nat) (p : Piece), Here s g → CachesWf s → Memory.wf s.mem = true → Entry s g e →
    entryDue s s.ctx.core s.ctx.engine g e = true → e.held = none → e.acc.kind = .atom o (w == 64) → (w = 32 ∧ o ≤ 10 ∨ w = 64 ∧ o < 10) →
    e.acc.pieces = [p] → p.bytes = w / 8 → p.block = none →
    let k := s.ctx.engine
    let die := dieOf s.ctx.core
    let after (old : Nat) : Nat := aopValue o old (e.acc.data.toNat / 2 ^ (32 * p.lane) % 2 ^ w) (e.acc.cmp.toNat / 2 ^ (32 * p.lane) % 2 ^ w) w
    let gives (old : Nat) (wrote : List Nat) (en : Engine) : Engine :=
      { en.modEntry s.ctx.unit s.ctx.id (fun e => { e with result := some (.data (BitVec.ofNat 1024 (2 ^ (32 * p.lane) * old))), readyAt := s.cycle })
        with wrote }
    (∀ c x off, ToScratch s g k p c x off → Sound s c x off p.bytes → Memory.wf (s.scratch c x) = true → ∃ (m : Bytes) (lines : List Nat),
      let old := leOf (sget 0 (s.scratch c x)) off (w / 8)
      Stored (sget 0 (s.scratch c x)) (sget 0 m) off (w / 8) (after old) ∧ (∀ l, l ∈ lines ↔ l ∈ (g.eng k).wrote) ∧
      Answers .loadEntryResolve s (fun t =>
        lessBanks t = lessBanks ((s.modScratch c x (fun _ => m)).modGang s.ctx.core (fun h => h.modEng k (gives old lines))))) ∧
    (∀ pa, e.acc.scope < 2 → ToMemory s g p true true pa → SoundMemory s g pa p.bytes → pa % (w / 8) = 0 →
      (s.dieCaches.getD die []).length < 393216 →
      let old := leOf (s.dieByte die) pa (w / 8)
      ∃ lines : List Nat, (∀ l, l ∈ lines ↔ l ∈ (g.eng k).wrote ∨ l = pa / 128) ∧ Answers .loadEntryResolve s (fun t =>
        t = { s.putGang s.ctx.core (g.modEng k (gives old lines)) with dieCaches := t.dieCaches, homeLines := t.homeLines } ∧
        Stored (s.dieByte die) (t.dieByte die) pa (w / 8) (after old) ∧ ∀ d, d ≠ die → ∀ a, t.dieByte d a = s.dieByte d a)) ∧
    (∀ pa, 2 ≤ e.acc.scope → ToMemory s g p true true pa → SoundMemory s g pa p.bytes → pa % (w / 8) = 0 →
      let old := leOf (recalled s) pa (w / 8)
      Answers .loadEntryResolve s (fun t => MemoryGang s t (g.modEng k (gives old (g.eng k).wrote)) ∧ StoredHome s t pa (w / 8) (after old)))

/-- LOAD_ENTRY_RESOLVE completes where its subject is due (R63, R70, R173, R185, R349): a load takes the bytes of its pieces in the own
scratchpad; an atomic returns the old value and stores AOP's; data that have arrived resolve their entry; a LAPADD counts its lap word
and sets LAP; RTAKE.STAT reads its ring; and what the statements Claims.LoadsAnywhere and Claims.AtomicsAnywhere say of every other place. A
SCOP at its tick does the same at the home slice, where the line is first recalled (the model's choice, log 76), and its entry is there 120 or
400 cycles on (R189). -/
def Obligations.AccessesPerformed : Prop := Claims.LoadsAnywhere ∧ Claims.AtomicsAnywhere ∧
  ∀ (s : State) (g : Gang) (e : QEntry), Here s g → Memory.wf (g.eng s.ctx.engine).scratch = true → Memory.wf s.mem = true →
    let k := s.ctx.engine
    let en := g.eng k
    let byte (a : Nat) : Byte := sget 0 en.scratch a
    (∀ v, Entry s g e → entryDue s s.ctx.core k g e = true → e.held = some v →
      Becomes .loadEntryResolve s (withEntry s g en (fun e => { e with held := none, result := some (.data v) }))) ∧
    (Entry s g e → entryDue s s.ctx.core k g e = true → e.held = none → e.acc.kind = .load →
      s.deadSram s.ctx.core k = false → (∀ p, p ∈ e.acc.pieces → OwnPiece g p ∧ Clean en (offsetOf p) p.bytes) →
      ∃ v : Vec, Becomes .loadEntryResolve s (withEntry s g en (fun e => { e with result := some (.data v), readyAt := s.cycle })) ∧
        v.toNat = (e.acc.pieces.foldr (fun p acc => 2 ^ (32 * p.lane) * leOf byte (offsetOf p) p.bytes ||| acc) 0) % 2 ^ 1024) ∧
    (∀ (p : Piece) (j : Nat), Entry s g e → entryDue s s.ctx.core k g e = true → e.held = none → e.acc.kind = .load → e.acc.pieces = [p] →
      OwnPiece g p → j < p.bytes → sget 0 en.poison ((offsetOf p + j) / 32) = 1 ∨ s.deadSram s.ctx.core k = true → k < g.engines.length →
      ∃ f : MemFault, Becomes .loadEntryResolve s (withEntry s g en (fun e => { e with result := some (.fault f), readyAt := s.cycle })) ∧
        f.code = .poison ∧ f.vaddr = p.addr) ∧
    (∀ (o w : Nat) (p : Piece), Entry s g e → entryDue s s.ctx.core k g e = true → e.held = none → e.acc.kind = .atom o (w == 64) →
      (w = 32 ∧ o ≤ 10 ∨ w = 64 ∧ o < 10) → e.acc.pieces = [p] → OwnPiece g p → Clean en (offsetOf p) p.bytes →
      s.deadSram s.ctx.core k = false → p.bytes = w / 8 → p.lane = 0 →
      ∃ en' : Engine, ∃ lines : List Nat,
        let old := leOf byte (offsetOf p) (w / 8)
        Becomes .loadEntryResolve s (withEntry s g en' (fun e => { e with result := some (.data (BitVec.ofNat 1024 old)), readyAt := s.cycle })) ∧
        en' = { en with scratch := en'.scratch, wrote := lines } ∧ (∀ l, l ∈ lines ↔ l ∈ en.wrote) ∧
        Stored byte (sget 0 en'.scratch) (offsetOf p) (w / 8)
          (aopValue o old (e.acc.data.toNat % 2 ^ w) (e.acc.cmp.toNat % 2 ^ w) w)) ∧
    (∀ (q : SQEntry) (n : Nat) (p : Piece) (c x off : Nat), s.ctx.unit = 2 → (placesOf g k).find? (fun e => e.serial == s.ctx.id) = some q →
      placeDue s s.ctx.core k g q = true → q.acc.kind = .lapadd n → q.acc.pre = none → q.acc.pieces = [p] → p.bytes = 16 → p.block = none →
      ToScratch s g k p c x off → Sound s c x off 16 → Memory.wf (s.scratch c x) = true →
      let old (a : Nat) : Byte := sget 0 (s.scratch c x) a
      let word (i : Nat) : Nat := leOf old (off + 4 * i) 4
      let count := min (word 1 + n) (2 ^ 32 - 1)
      let hits := if word 0 = 0 then 0 else count / word 0
      let left := if word 0 = 0 then count else count % word 0
      let flags := if 2 ^ 32 ≤ word 1 + n ∧ word 3 / 2 % 2 = 0 then word 3 + 2 else word 3
      let lap (h : Gang) : BitVec 4 := if hits ≠ 0 ∧ word 3 % 2 = 1 ∧ h.lapGate.getLsbD x = true then 1 else 0
      ∃ m : Bytes, Stored old (sget 0 m) (off + 4) 12 (left + 2 ^ 32 * ((word 2 + hits) % 2 ^ 32) + 2 ^ 64 * flags) ∧
        Answers .loadEntryResolve s (fun t => lessBanks t = lessBanks (((s.modScratch c x (fun _ => m)).modGang c (fun h =>
          { h with events := h.events ||| lap h, freshEvents := h.freshEvents ||| lap h })).modGang s.ctx.core (fun h =>
            h.modPlace k q.serial (fun e => { e with finished := true }))))) ∧
    (∀ (r : Ring) (p : Piece), Entry s g e → entryDue s s.ctx.core k g e = true → e.held = none → e.acc.kind = .rtakeCount →
      e.acc.pieces = [p] → p.addr.toNat < 256 → kfind s.rings p.addr.toNat = some r → r.asid = g.info.asid →
      ∃ v : Vec, Becomes .loadEntryResolve s (withEntry s g en (fun e' =>
          { e' with held := some v, readyAt := max s.cycle (e.issued + 200) })) ∧
        v.toNat = ([r.head, r.tail, r.count, r.slots, r.pages.length].mapIdx (fun i x => 2 ^ (32 * i) * (x % 2 ^ 32))).sum) ∧
    (∀ (kind pa : Nat) (p : Piece), Entry s g e → e.acc.kind = .scop kind → kind < 4 → e.result = none → e.held = none → e.acc.pieces = [p] →
      p.bytes = 8 → p.block = none → CachesWf s → ToMemory s g p true true pa → SoundMemory s g pa 8 → pa % 8 = 0 → s.cycle % 144 = 2 * s.ctx.core → e.readyAt ≤ s.cycle → mayScop s s.ctx.core g k e.serial e.acc.from_ = true →
      e.acc.free s s.ctx.core g k [] = true →
      let old := leOf (recalled s) pa 8
      let d := e.acc.data.toNat % 2 ^ 64
      let c := e.acc.data.toNat / 2 ^ 64 % 2 ^ 64
      Answers .scopPerform s (fun t =>
        MemoryGang s t (g.modEng k (fun en => { en.modEntry s.ctx.unit s.ctx.id (fun e =>
          { e with held := some (BitVec.ofNat 1024 old), readyAt := s.cycle + if sget 0 s.homeLines (pa / 128) = 1 then 120 else 400 }) with
          scopTurn := some (s.cycle / 144) })) ∧
        StoredHome s t pa 8 (if kind = 0 then old else if kind = 3 then (if old = c then d else old) else d)))

/-- Nothing else of the package is about to change by the passing of the cycle: no commit, write-back, invalidation or write of the hub is
under way. -/
def Sys2Proof.Claims.Quiet (s : State) : Prop := s.commits = [] ∧ s.writeBacks = [] ∧ s.invs = [] ∧ s.hubLater = []

/-- A memory after writes, each an address and its bytes, one after the other. -/
def Sys2Proof.Claims.written (m : Nat → Byte) : List (Nat × List Byte) → Nat → Byte
  | [] => m
  | w :: r => written (fun a => if w.1 ≤ a ∧ a < w.1 + w.2.length then w.2.getD (a - w.1) 0 else m a) r

/-- Sectors that the writes cover whole lose their poison, and no other does (R194). -/
def Sys2Proof.Claims.HealedBy (old new : Nat → BitVec 1) (ws : List (Nat × List Byte)) : Prop :=
  ∀ k, let whole := ∀ j, j < 32 → ∃ w, w ∈ ws ∧ w.1 ≤ 32 * k + j ∧ 32 * k + j < w.1 + w.2.length
    (whole → new k = 0) ∧ (¬ whole → new k = old k)

/-- The passing of a cycle performs stores and write-backs that are due (R39, R61, R62, R309): a store's bytes reach the scratchpad, its die's
cache, or the home slices, where its own die reads them too; a line's dirty bytes reach its home slice and are dirty no more; every other byte
is as it was. -/
def Sys2Proof.Claims.StoresArrive : Prop :=
  (∀ (s : State) (x : Transit), Quiet s → s.transit = [x] → x.gate = false → x.due ≤ s.cycle + 1 → CachesWf s → Memory.wf s.mem = true →
    sparseWf 0 s.poison = true → { s with cycle := s.cycle + 1 }.canLand x = true → x.core < 72 → (∀ w, w ∈ x.writes → w.2 ≠ []) →
    let t := s.tick
    t.transit = [] ∧ t.cycle = s.cycle + 1 ∧
    (∀ c e g, x.target = .scratch c e → c < 72 → s.gang c = some g → e < g.engines.length → s.deadSram c e = false →
      Memory.wf (g.eng e).scratch = true → sparseWf 0 (g.eng e).poison = true → t.mem = s.mem ∧ t.dieCaches = s.dieCaches ∧
      ∃ h, t.gang c = some h ∧ (∀ a, sget 0 (h.eng e).scratch a = written (sget 0 (g.eng e).scratch) x.writes a) ∧
        HealedBy (sget 0 (g.eng e).poison) (sget 0 (h.eng e).poison) x.writes ∧
        ∀ k, k ≠ e → (h.eng k).scratch = (g.eng k).scratch ∧ (h.eng k).poison = (g.eng k).poison) ∧
    (∀ d, x.target = .die d → d < 8 → s.deadDie d = false →
      (s.dieCaches.getD d []).length + (x.writes.map (fun w => w.2.length)).sum ≤ 393216 →
      t.mem = s.mem ∧ (∀ a, t.dieByte d a = written (s.dieByte d) x.writes a) ∧ (∀ e, e ≠ d → ∀ a, t.dieByte e a = s.dieByte e a) ∧
        HealedBy (sget 0 s.poison) (sget 0 t.poison) x.writes) ∧
    (x.target = .home → s.deadDie (dieOf x.core) = false →
      (∀ a, t.homeByte a = written s.homeByte x.writes a) ∧ HealedBy (sget 0 s.poison) (sget 0 t.poison) x.writes ∧
        ∀ a, (∃ w, w ∈ x.writes ∧ w.1 ≤ a ∧ a < w.1 + w.2.length) → t.dieByte (dieOf x.core) a = t.homeByte a)) ∧
  ∀ (s : State) (w : WriteBack), s.commits = [] → s.transit = [] → s.invs = [] → s.hubLater = [] → s.writeBacks = [w] → w.due ≤ s.cycle + 1 →
    CachesWf s → Memory.wf s.mem = true → w.die < 8 →
    let t := s.tick
    let c := s.line w.die w.line
    (t.line w.die w.line).dirty = 0 ∧ (w.event < s.wbNext → t.writtenBack w.event = true) ∧
    ∀ a, t.homeByte a = if a / 128 = w.line ∧ c.dirty.getLsbD (a % 128) = true then BitVec.ofNat 8 (c.data.toNat / 2 ^ (8 * (a % 128))) else s.homeByte a

/-- BATCH_RELEASE completes for a due batch whose stores pass their checks, wherever they lead (R39, R54, R309): the batch is gone and its stores
are on their way, one entry of each engine a cycle in store-queue order, each with one transit for each scratchpad that it reaches, for its
die's cache and for the home slices, performed as late as the furthest of its parts there: 1 cycle after the hand-off in the own scratchpad,
12 in the own gang's, 30 on the die, 70 on another, 48 in the die cache, 240 written through. -/
def Sys2Proof.Claims.StoresLeave : Prop :=
  ∀ (s : State) (g : Gang) (b : Batch) (tgt : Nat → Piece → Target) (off lag : Nat → Piece → Nat), Here s g →
    (g.seq s.ctx.spare).batch = some b → batchDue s s.ctx.core g b = true →
    (∀ x, x ∈ b.entries → ∀ e, e ∈ x.2 → (e.marker = none ∨ e.marker = some none) ∧
      (e.marker = none → e.acc.pre = none ∧ (e.acc.kind = .store ∨ e.acc.kind = .long) ∧
        (∀ f, f ∈ (g.eng x.1).fences → f.serial < e.serial → f.kind ≠ 1 ∧ f.kind ≠ 2) ∧
        ∀ p, p ∈ e.acc.pieces →
          (∃ c y o, ToScratch s g x.1 p c y o ∧ tgt x.1 p = .scratch c y ∧ off x.1 p = o ∧ lag x.1 p =
            (let pos := addrBits p.addr 32 28
             if addrBits p.addr 63 60 = 1 then 1 else if addrBits p.addr 63 60 = 2 ∨ (c = s.ctx.core ∧ pos = g.info.pos) then 12
             else if g.info.sameDie.getLsbD pos = true then 30 else 70)) ∨
          (∃ pa, ToMemory s g p false true pa ∧ off x.1 p = pa ∧ tgt x.1 p = (if p.tx = .serial then .home else .die (dieOf s.ctx.core)) ∧
            lag x.1 p = if p.tx = .serial then 240 else 48))) →
    let out (k : Nat) (es : List SQEntry) : List Transit :=
      ((es.filter (fun e => e.marker.isNone)).mapIdx (fun i e => ((e.acc.pieces.map (tgt k)).eraseDups).map (fun place =>
        let mine := e.acc.pieces.filter (fun p => tgt k p == place)
        { due := s.cycle + i + (mine.map (lag k)).foldl max 0, core := s.ctx.core, engine := k, serial := e.serial, target := place
          writes := mine.map (fun p => (off k p, (List.range p.bytes).map (fun j => BitVec.ofNat 8 (p.data / 2 ^ (8 * j))))) }))).flatten
    exec .batchRelease s = .next { s.putGang s.ctx.core (g.modSeq s.ctx.spare (fun q => { q with batch := none })) with
      transit := s.transit ++ b.entries.flatMap (fun x => out x.1 x.2) }

/-- BATCH_RELEASE completes for a due batch whose held stores lie in their engines' own scratchpads (R39), and wherever they lead as
Claims.StoresLeave says: the batch is gone and its stores are on their way, one entry of each engine a cycle in store-queue order, to be
performed 1 cycle after its hand-off; Claims.StoresArrive says what their arrival does. PAGE_WALK completes (R358, R361): a lookup that the
core's cache answers changes nothing; one that needs a walk puts its leaf in both caches and is counted, unless a MOVTC has set the count in
this cycle (R135). A lookup costs nothing where the core's cache answers, 24 cycles where the die's does, and 240 more for each table read
(R362). -/
def Obligations.BatchesAndWalks : Prop := Claims.StoresLeave ∧ Claims.StoresArrive ∧
  ∀ (s : State) (g : Gang), Here s g →
    (∀ b, (g.seq s.ctx.spare).batch = some b → batchDue s s.ctx.core g b = true →
      (∀ x, x ∈ b.entries → x.1 < 16 ∧ (g.eng x.1).fences = [] ∧ ∀ e, e ∈ x.2 → (e.marker = none ∨ e.marker = some none) ∧ e.acc.pre = none ∧
        e.acc.kind = .store ∧ ∀ p, p ∈ e.acc.pieces → OwnPiece g p) →
      let out (k : Nat) (es : List SQEntry) : List Transit :=
        ((es.filter (fun e => e.marker.isNone)).mapIdx (fun i e => if e.acc.pieces = [] then [] else
          [{ due := s.cycle + i + 1, core := s.ctx.core, engine := k, serial := e.serial, target := .scratch s.ctx.core k
             writes := e.acc.pieces.map (fun p => (offsetOf p, (List.range p.bytes).map (fun j => BitVec.ofNat 8 (p.data / 2 ^ (8 * j))))) }])).flatten
      exec .batchRelease s = .next { s.putGang s.ctx.core (g.modSeq s.ctx.spare (fun q => { q with batch := none })) with
          transit := s.transit ++ b.entries.flatMap (fun x => out x.1 x.2) }) ∧
    ∀ (core : Nat) (h : Gang) (va : Word) (write : Bool), s.gang core = some h → core < 72 →
      let v := addrBits va 47 0
      let leaf (l : List TcEntry) : Option TcEntry := l.find? (fun e => e.asid == h.info.asid && v / 2 ^ pageBits e.level == e.va / 2 ^ pageBits e.level)
      let die := s.dieTc.getD (core / 9) []
      (∀ e, leaf (s.core core).tc = some e → exec (.pageWalk core va write) s = .next s ∧ s.missCost core h.info.asid v = 0) ∧
      (∀ e, leaf (s.core core).tc = none → leaf die = some e → s.missCost core h.info.asid v = 24) ∧
      (∀ e, leaf (s.core core).tc = none → leaf die = none → s.walk h.info.asid v = .ok e → s.missCost core h.info.asid v = 24 + 240 * e.level) ∧
      (∀ e, leaf (s.core core).tc = none → leaf die = none → s.walk h.info.asid v = .ok e → (s.core core).tc.length < 512 → die.length < 8192 →
        exec (.pageWalk core va write) s = .next { s.modCore core (fun c => { c with tcMiss := if c.tcSet = s.cycle then c.tcMiss else c.tcMiss + 1, tc := e :: c.tc }) with
          dieTc := modAt s.dieTc (core / 9) (fun l => e :: l) })

/-- INVALIDATION_ACK, FRAME_RETURN, RING_WATCH_EVENT and DIE_CACHE_EVICTION complete (R61, R352, R367, R368): the first cache that may
acknowledge does, a copy engine keeping the lines that had reached it; a released frame reads 0 everywhere and joins its pool; the watcher's RING bit is set; a line's dirty bytes reach the
home slice and the die holds nothing of it, but a dirty line stays while a commit has locked one of its sectors (R308; the model's choice,
log 65). -/
def Obligations.CachesAndFrames : Prop :=
  ∀ s : State,
    (∀ (v : Invalidation) (before after : List Invalidation) (id : Nat) (wb wa : List Nat), s.invs = before ++ v :: after →
      v.waiting = wb ++ id :: wa → v ∉ before → v ∉ after → mayAck s v id = true → (∀ j, j ∈ wb → mayAck s v j = false) →
      (∀ w, w ∈ before → ∀ j, j ∈ w.waiting → mayAck s w j = false) →
      ∃ got : List (Nat × BitVec 1024), (id < 72 ∨ 216 ≤ id → got = []) ∧
        (∀ x, x ∈ got → ∀ j, j < 128 → BitVec.ofNat 8 (x.2.toNat / 2 ^ (8 * j)) = s.dieByte ((id - 72) / 2 / 9) (128 * x.1 + j)) ∧
        let keep (u : UnitState) : UnitState := { u with queue := match u.queue with
          | o :: t => { o with caught := o.caught ++ got } :: t
          | [] => [] }
        exec .invalidationAck s = .next { s.modGang ((id - 72) / 2) (fun g =>
            if id % 2 = 0 then { g with cp0 := keep g.cp0 } else { g with cp1 := keep g.cp1 }) with
          invs := before ++ { v with waiting := wb ++ wa, lastAck := s.cycle } :: after }) ∧
    (∀ (f : FrameBack) (rest : List FrameBack) (c : XContext), s.framesBack = f :: rest → f.frame % 128 = 0 → kfind s.contexts f.asid = some c →
      let size := if f.big then 2 ^ 21 else 2 ^ 16
      s.poisoned f.frame size = false → Answers .frameReturn s (fun t =>
        t = { s with mem := t.mem, dieCaches := t.dieCaches, framesBack := rest
                     contexts := kput s.contexts f.asid (if f.big then { c with pool2m := c.pool2m ++ [f.frame] }
                                                         else { c with pool64 := c.pool64 ++ [f.frame] }) } ∧
        ∀ a, let inside := f.frame ≤ a ∧ a < f.frame + size
          (inside → t.homeByte a = 0 ∧ ∀ d, t.dieByte d a = 0) ∧ (¬ inside → t.homeByte a = s.homeByte a ∧ ∀ d, t.dieByte d a = s.dieByte d a))) ∧
    (∀ (e : RingEvent) (before after : List RingEvent) (c : Nat) (g : Gang), s.ringEvents = before ++ e :: after → e.due ≤ s.cycle →
      (∀ x, x ∈ before → s.cycle < x.due) → s.gang c = some g →
      Lowest (fun c => c < 72 ∧ ∃ h, s.gang c = some h ∧ (h.info.handle, h.info.squad, h.info.pos) = e.watcher) c →
      exec .ringWatchEvent s = .next { s.putGang c { g with events := g.events ||| 2, freshEvents := g.freshEvents ||| 2 } with
        ringEvents := before ++ after }) ∧
    ∀ die line : Nat, die < 8 → s.dieCaches.length = 8 → Memory.wf s.mem = true → (∀ d, sparseWf {} (s.dieCaches.getD d []) = true) →
      let c := s.line die line
      let held := c.dirty ≠ 0 ∧ ∃ x m y, x ∈ s.commits ∧ m < x.taken ∧ x.sectors[m]? = some y ∧ y < 128 * line + 128 ∧ 128 * line < y + 32
      (held → exec (.dieCacheEviction die line) s = .next s) ∧ (¬ held → Answers (.dieCacheEviction die line) s (fun t =>
        t = { s with mem := t.mem, dieCaches := t.dieCaches, homeLines := t.homeLines } ∧ t.line die line = {} ∧
        (∀ a, t.homeByte a = if a / 128 = line ∧ c.dirty.getLsbD (a % 128) = true then BitVec.ofNat 8 (c.data.toNat / 2 ^ (8 * (a % 128)))
          else s.homeByte a) ∧
        (∀ d l, l ≠ line → t.line d l = s.line d l) ∧
        ∀ d, d ≠ die → (t.line d line).dirty = (s.line d line).dirty))

/-- A commit has locked a sector that meets these 32 bytes (R308). -/
def Sys2Proof.Claims.SectorLocked (s : State) (x : Nat) : Prop :=
  ∃ c m y, c ∈ s.commits ∧ m < c.taken ∧ c.sectors[m]? = some y ∧ x < y + 32 ∧ y < x + 32

/-- TX_COMMIT and TX_ENTRY_RESOLVE, SERIAL_LOCK_GRANT and SERIAL_LOCK_RELEASE complete (R305-R310): an optimistic commit whose written
sectors the core's cache maps locks its sectors one after the other in ascending order, up to the first that another has locked (R306, R308),
where it goes on once that is free; with the last it holds them for 240 cycles and 4 a sector, 280 more where a line is not at its home slice
(the model's reading of R307, log entry 22); its log has left the engine; a TXEND without a transaction and that of a serial one have their causes 14
cycles on; the entry gives the lanes their causes and CR_TXSTAT's COUNT follows; the lock goes to the oldest request while no commit holds a
sector, and is free again. -/
def Sys2Proof.Claims.CommitSteps : Prop :=
  ∀ (s : State) (g : Gang) (e : QEntry), Here s g →
    let k := s.ctx.engine
    let en := g.eng k
    let entry : Prop := (en.queue s.ctx.unit).find? (fun e => e.serial == s.ctx.id && e.acc.kind == .txend && !e.performed) = some e
    let closed (v : Vec) (at_ : Nat) : Gang := g.modEng k (fun en =>
      { en with tx := { en.tx with closing := en.tx.closing.filter (fun x => x.id != e.acc.txid) } }.modQueue s.ctx.unit (fun q =>
        q.map (fun (x : QEntry) => if x.serial = e.serial then { x with held := some v, readyAt := at_ } else x)))
    let causes (c : Nat → Nat) : Vec := packElems 32 ((List.range 32).map (fun j => (j, c j)))
    (entry → mayCommit s s.ctx.core g k e = true → en.tx.closing.find? (fun t => t.id == e.acc.txid) = none →
      Becomes .txCommit s (closed (causes (fun _ => 7)) (s.cycle + 14))) ∧
    (∀ t : TxLog, entry → mayCommit s s.ctx.core g k e = true → en.tx.closing.find? (fun t => t.id == e.acc.txid) = some t → t.serial = true →
      Becomes .txCommit s (closed (causes (fun l => if t.members.getLsbD l then 0 else 7)) (s.cycle + 14))) ∧
    (∀ (t : TxLog) (paOf : Nat → Nat), entry → mayCommit s s.ctx.core g k e = true →
      en.tx.closing.find? (fun t => t.id == e.acc.txid) = some t → t.serial = false → t.doomed = 0 →
      (∀ w, w ∈ t.writes → t.members.getLsbD w.lane = true ∧ Translates s s.ctx.core g w.va true true (paOf w.va)) →
      (∀ r, r ∈ t.reads → t.members.getLsbD r.lane = true) →
      ∃ sectors : List Nat, sectors.Pairwise (· < ·) ∧
        (∀ x, x ∈ sectors ↔ (∃ r, r ∈ t.reads ∧ r.pa = some x) ∨ ∃ w, w ∈ t.writes ∧ paOf w.va = x) ∧
        let ends := s.cycle + 240 + 4 * sectors.length + if ∃ x, x ∈ sectors ∧ sget 0 s.homeLines (x / 128) ≠ 1 then 280 else 0
        let begun (taken ends : Nat) : Commit :=
          { core := s.ctx.core, engine := k, q := s.ctx.unit, serial := e.serial, log := t, sectors, taken
            writes := t.writes.map (fun w => (w, paOf w.va)), ends }
        ((∀ x, x ∈ sectors → ¬ SectorLocked s x) → Answers .txCommit s (fun u => u = { s.putGang s.ctx.core (closed 0 ends) with
          homeLines := u.homeLines, commits := s.commits ++ [begun sectors.length ends] })) ∧
        ∀ (n x : Nat), sectors[n]? = some x → SectorLocked s x → (∀ m y, m < n → sectors[m]? = some y → ¬ SectorLocked s y) →
          exec .txCommit s = .next { s.putGang s.ctx.core (g.modEng k (fun en =>
            { en with tx := { en.tx with closing := en.tx.closing.filter (fun x => x.id != e.acc.txid) } })) with
              commits := s.commits ++ [begun n 0] }) ∧
    (∀ (c : Commit) (x : Nat), c ∈ s.commits → c.sectors[c.taken]? = some x → SectorLocked s x → s.takeLocks c = s) ∧
    (∀ (c : Commit) (h : Gang), c ∈ s.commits → c.taken < c.sectors.length → s.gang c.core = some h →
      (∀ m x, c.taken ≤ m → c.sectors[m]? = some x → ¬ SectorLocked s x) →
      let ends := s.cycle + 240 + 4 * c.sectors.length + if ∃ x, x ∈ c.sectors ∧ sget 0 s.homeLines (x / 128) ≠ 1 then 280 else 0
      let u := s.takeLocks c
      u = { s.putGang c.core (h.modEng c.engine (fun en => en.modQueue c.q (fun q =>
          q.map (fun (x : QEntry) => if x.serial = c.serial then { x with held := some 0, readyAt := ends } else x)))) with
        homeLines := u.homeLines
        commits := s.commits.map (fun d => if d = c then { c with taken := c.sectors.length, ends } else d) }) ∧
    (∀ v, (en.queue s.ctx.unit).find? (fun e => e.serial == s.ctx.id && e.acc.kind == .txend) = some e → e.held = some v → e.readyAt ≤ s.cycle →
      let fine : Prop := ∀ l, l < 32 → laneAt v l = 0 ∨ laneAt v l = 7
      ∃ n, Becomes .txEntryResolve s (g.modEng k (fun en => { en with tx := { en.tx with count := n } }.modQueue s.ctx.unit (fun q =>
          q.map (fun (x : QEntry) => if x.serial = s.ctx.id then { x with held := none, result := some (.data v) } else x)))) ∧
        (e.acc.txid = 0 → n = en.tx.count) ∧ (e.acc.txid ≠ 0 → fine → n = 0) ∧
        (e.acc.txid ≠ 0 → ¬ fine → n = min (en.tx.count + 1) 65535)) ∧
    (∀ c rest, s.lock.holder = none → s.lock.requests = c :: rest → s.commits = [] → exec .serialLockGrant s =
      .next { s with lock := { s.lock with holder := some c, requests := rest, granted := s.cycle } }) ∧
    ∀ c, s.lock.holder = some c →
      (s.gang c = none ∨ ∃ h, s.gang c = some h ∧ (∀ x, x ∈ s.transit → ¬ (x.core = c ∧ x.target = .home)) ∧
        h.lockKept = false ∧ h.prim.batch = none ∧ h.spare.batch = none ∧
        ∀ k, k < h.engines.length → let en := h.eng k
          (en.tx.opened = false ∨ en.tx.cur.serial = false) ∧ (∀ t, t ∈ en.tx.closing → t.serial = false) ∧
          ∀ e, e ∈ en.sq → e.marker = none → ∀ p, p ∈ e.acc.pieces → p.tx ≠ .serial) →
      exec .serialLockRelease s = .next { s with lock := { s.lock with holder := none, released := some s.cycle } }

/-- A commit that holds its locks validates and applies the next lane, in ascending order (R306), one in each of its last 32 cycles (that
pace is the model's, log entry 22): a lane whose read sectors still stand has its written bytes stored at the home slices and cause 0; one
that has read another value has cause 1 and stores nothing. At the end the locks are gone and the entry has its causes. -/
def Sys2Proof.Claims.CommitLanes : Prop :=
  ∀ (s : State) (c : Commit), Memory.wf s.mem = true → c.taken = c.sectors.length →
    let l := c.causes.length
    let mine : List (TxWrite × Nat) := c.writes.filter (fun w => w.1.lane == l)
    let stands : Prop := ∀ r, r ∈ c.log.reads → r.lane = l → ∀ pa v, r.pa = some pa → r.value = some v → leOf s.homeByte pa 32 = v.toNat
    let goes (cause : Nat) (u : State) : State :=
      { s with mem := u.mem, dieCaches := u.dieCaches, homeLines := u.homeLines
               commits := s.commits.map (fun d => if d = c then { c with causes := c.causes ++ [cause] } else d) }
    (l < 32 → s.cycle < c.ends → c.ends ≤ s.cycle + 32 - l →
      (c.log.members.getLsbD l = false → s.tickCommit c = goes 7 s) ∧
      (c.log.members.getLsbD l = true → c.log.doomed.getLsbD l = true → ∃ v, s.tickCommit c = goes v s) ∧
      (c.log.members.getLsbD l = true → c.log.doomed.getLsbD l = false → ¬ stands → s.tickCommit c = goes 1 s) ∧
      (c.log.members.getLsbD l = true → c.log.doomed.getLsbD l = false → stands →
        (∀ r, r ∈ c.log.reads → r.lane = l → ∀ pa, r.pa = some pa → s.poisoned pa 32 = false) →
        (∀ w, w ∈ mine → s.poisoned w.2 32 = false ∧ w.2 % 32 = 0) → (mine.map (·.2)).Nodup →
        let u := s.tickCommit c
        u = goes 0 u ∧
        (∀ a w, w ∈ mine → ∀ o, o < 32 → a = w.2 + o →
          u.homeByte a = if w.1.mask.getLsbD o then BitVec.ofNat 8 (w.1.data.toNat / 2 ^ (8 * o)) else s.homeByte a) ∧
        ∀ a, (∀ w, w ∈ mine → a < w.2 ∨ w.2 + 32 ≤ a) → u.homeByte a = s.homeByte a)) ∧
    ∀ g, c.ends ≤ s.cycle → s.gang c.core = some g → s.tickCommit c = { s.putGang c.core (g.modEng c.engine (fun en =>
        en.modQueue c.q (fun q => q.map (fun (x : QEntry) => if x.serial = c.serial then
          { x with held := some (packElems 32 (c.causes.mapIdx (fun i v => (i, v)))), readyAt := c.ends } else x)))) with
      commits := s.commits.filter (fun d => d != c) }

end

namespace Sys2Proof.Claims
open Sys2Proof.Machine

/-- An address in the scratchpad of a live engine of the gang that n bytes pass every check of R181 at (tag 2): the engine and offset. -/
def EngineSpot (g : Gang) (a : Word) (e off n align : Nat) : Prop :=
  addrBits a 63 60 = 2 ∧ addrBits a 59 28 = 0 ∧ addrBits a 23 22 = 0 ∧ addrBits a 27 24 = e ∧ addrBits a 21 0 = off ∧
    off + n ≤ g.info.spSize ∧ off + n ≤ 2 ^ 22 ∧ g.live.getLsbD e = true ∧ a.toNat % align = 0

/-- The batons set once those of a list are cleared. -/
def Cleared (old new : BitVec 32) (l : List Nat) : Prop := ∀ b, b < 32 → (new.getLsbD b = true ↔ old.getLsbD b = true ∧ b ∉ l)
def Set (old new : BitVec 32) (b : Nat) : Prop := ∀ c, c < 32 → (new.getLsbD c = true ↔ old.getLsbD c = true ∨ c = b)

/-- Nothing keeps a unit's next operation from starting (R153, R154). -/
def Starts (s : State) (g : Gang) (issued : Nat) (marks : List (Nat × Nat)) (consumes : List Nat) : Prop :=
  issued < s.cycle ∧ (∀ b, b ∈ consumes → g.batons.getLsbD b = true) ∧ gateOpen s s.ctx.core marks = true ∧
    ∀ f, f ∈ g.badBatons → f.baton ∉ consumes

/-- No release of a page is under way that what the port reads, when it starts, would wait for (R367). -/
def PortReads (s : State) (o : UnitOp) : Prop :=
  s.ctx.unit = 3 → addrBits (sget 0 o.regs 0) 63 60 = 0 → ∀ v, v ∈ s.invs → v.release = none

/-- The poison of an engine's sectors after n bytes have been written from an offset of its scratchpad: the sectors written whole have none
(R194). -/
def Healed (old new : RegFile 1) (off n : Nat) : Prop :=
  ∀ j, sget 0 new j = if off ≤ 32 * j ∧ 32 * j + 32 ≤ off + n then 0 else sget 0 old j

/-- The faulted batons once another has become faulted: one record for a baton. -/
def Bad (l : List FaultedBaton) (f : FaultedBaton) : List FaultedBaton := l.filter (fun b => b.baton != f.baton) ++ [f]

/-- R318's address of element i0 in the row of an operation's next chunk, under a base address and a register of strides. -/
def copyAddr (o : UnitOp) (base : Word) (st size i0 : Nat) : Word :=
  let row := o.chunk / 65536
  let n1 := bits o.regs 2 31 16
  plus base ((row / n1 : Nat) * signedField (bits o.regs st 63 32) 32 + (row % n1 : Nat) * signedField (bits o.regs st 31 0) 32 + (i0 * size : Nat))

/-- The rows of an operation, and the elements of its next chunk: to the end of the row or the next 128 B of the destination. -/
def copyRows (o : UnitOp) : Nat := bits o.regs 2 31 16 * bits o.regs 2 47 32
def copyLen (o : UnitOp) (size : Nat) : Nat :=
  min (bits o.regs 2 15 0 - o.chunk % 65536) (max 1 ((128 - (copyAddr o (sget 0 o.regs 1) 4 size (o.chunk % 65536)).toNat % 128) / size))

/-- A collective instance: its parameters as the shadow set gives them. -/
def paramsOf (o : UnitOp) : Nat × Nat × Nat × Nat × Nat × Nat :=
  (bits o.regs 4 2 0, bits o.regs 4 4 3, bits o.regs 4 7 5, bits o.regs 2 23 0, bits o.regs 4 14 8, bits o.regs 3 50 40)

/-- R339: the result of rank r from the P contributions c, as bytes of a number (0 ALLREDUCE, 1 REDSCAT, 2 GATHER, 3 BCAST). -/
def CollValue (p : Nat × Nat × Nat × Nat × Nat × Nat) (size : Nat) (c : Nat → Nat) (r v : Nat) : Prop :=
  let n := sizeOfType p.2.2.1
  let w := 8 * n
  let count := p.2.2.2.1
  let red (i : Nat) : Nat := (treeRed (combine (p.2.2.1 + 8 * p.2.1)) 11 ((List.range size).map (fun k => some (c k / 2 ^ (w * i) % 2 ^ w)))).getD 0
  (p.1 = 0 → ∀ i, i < count → v / 2 ^ (w * i) % 2 ^ w = red i) ∧
  (p.1 = 1 → ∀ i, i < count / size → v / 2 ^ (w * i) % 2 ^ w = red (r * (count / size) + i)) ∧
  (p.1 = 2 → ∀ k i, k < size → i < count → v / 2 ^ (w * (k * count + i)) % 2 ^ w = c k / 2 ^ (w * i) % 2 ^ w) ∧
  (p.1 = 3 → ∀ i, i < count → v / 2 ^ (w * i) % 2 ^ w = c p.2.2.2.2.2 / 2 ^ (w * i) % 2 ^ w)

/-- Bytes of a result. -/
def collBytes (p : Nat × Nat × Nat × Nat × Nat × Nat) (size : Nat) : Nat :=
  let n := p.2.2.2.1 * sizeOfType p.2.2.1
  if p.1 = 1 then n / size else if p.1 = 2 then n * size else n

/-- The instances after one changed, the others as they stand. -/
def Instance (s : State) (i : CollInst) (before after : List CollInst) : Prop := s.coll = before ++ i :: after ∧ ∀ j, j ∈ before ++ after → j.key ≠ i.key

end Sys2Proof.Claims

section
open Sys2Proof Sys2Proof.Machine Sys2Proof.Claims

/-- ENGINE_OP_START completes (R154, R331, R338): the next operation of a copy engine, of the walkers or of the collective port starts
with its consumed batons cleared, the port's joining its instance; a faulted baton makes it faulted instead. An ENGGO.IW that waits for a
baton holds up none on other engines (R315). -/
def Obligations.OperationStarts : Prop :=
  ∀ (s : State) (g : Gang), Here s g → g.st = .running → g.preemptReq = false →
    (∀ (o : UnitOp) (rest : List UnitOp), (unitOf g s.ctx.unit).queue = o :: rest → o.started = none → o.fault = none →
      let head (o' : UnitOp) : Gang := withUnit g s.ctx.unit { unitOf g s.ctx.unit with queue := o' :: rest }
      (s.ctx.unit < 2 → Starts s g o.issued o.marks o.consumes → ∃ m, Cleared g.batons m o.consumes ∧
        Becomes .engineOpStart s { head { o with started := some s.cycle } with batons := m }) ∧
      (s.ctx.unit = 3 → Starts s g o.issued o.marks o.consumes → (paramsOf o).1 = 3 → bits o.regs 3 39 39 = 0 → PortReads s o →
        let mask := bits o.regs 3 31 0
        let rank := (List.range g.info.pos).countP mask.testBit
        let n := (kfind g.clCount (mask + 2 ^ 33 * bits o.regs 3 37 32)).getD 0
        let key : CollKey := { handle := g.info.handle, squad := g.info.squad, mask := BitVec.ofNat 32 mask, pen := false
                               peer := bits o.regs 3 37 32, number := n }
        rank ≠ (paramsOf o).2.2.2.2.2 → g.info.pos ≤ 32 → (∀ i, i ∈ s.coll → i.key ≠ key) → ∃ m, Cleared g.batons m o.consumes ∧
          exec .engineOpStart s = .next { s.putGang s.ctx.core { head { o with started := some s.cycle } with
              batons := m, clCount := kput g.clCount (mask + 2 ^ 33 * bits o.regs 3 37 32) (n + 1) } with
            coll := s.coll ++ [{ key, prank := 0, npkg := 1
                                 members := [{ core := s.ctx.core, pos := g.info.pos, rank, started := s.cycle
                                               timeout := bits o.regs 4 63 32, params := paramsOf o, data := some 0
                                               ready := s.cycle }] }] }) ∧
      ((s.ctx.unit < 2 ∨ s.ctx.unit = 3) → ∀ f before after, g.badBatons = before ++ f :: after → f.baton ∈ o.consumes →
        PortReads s o → (∀ x, x ∈ before → x.baton ∉ o.consumes) → Becomes .engineOpStart s { head { o with
            fault := some { code := f.code, vaddr := f.vaddr, lanes := 0, detail := f.detail, reason := f.reason, level := f.level } } with
          badBatons := Bad g.badBatons { f with baton := o.baton } })) ∧
    ∀ (o : IwOp) (before after : List IwOp), s.ctx.unit = 2 → g.iwOps = before ++ o :: after → o.started = none → o.fault = none →
      (∀ p, p ∈ before → p.id ≠ o.id ∧ (p.started ≠ none ∨
        ((∃ b, b ∈ p.consumes ∧ g.batons.getLsbD b = false) ∧ ∀ f, f ∈ g.badBatons → f.baton ∉ p.consumes))) → (∀ p, p ∈ after → p.id ≠ o.id) → Starts s g o.issued o.marks o.consumes →
      (∀ k, k < 16 → o.engines.getLsbD k = true → ∃ w rest, (g.eng k).walks = w :: rest ∧ w.id = o.id) → ∃ m, Cleared g.batons m o.consumes ∧
        Becomes .engineOpStart s (({ g with batons := m, iwOps := before ++ { o with started := some s.cycle } :: after } : Gang).mapAct o.engines
          (fun _ en => { en with walks := en.walks.map (fun (w : WalkOp) => if w.id = o.id then { w with started := some s.cycle } else w) }))

/-- COPY_CHUNK_LAND, COPY_CHUNK_FAULT and COPY_COMPLETE complete (R316, R318, R331): the next chunk's elements, read first, stand in the
destination, whose sectors written whole lose their poison (R319), where the operation reads no byte as a source byte (R323), its passes of the scratchpad banks are taken, and the operation
moves on; a source address with tag 5 faults it and its baton; a baton is set once the last chunk has
landed. -/
def Obligations.CopyEngines : Prop :=
  ∀ (s : State) (g : Gang) (o : UnitOp) (rest : List UnitOp), Here s g → s.ctx.unit < 2 → (unitOf g s.ctx.unit).queue = o :: rest →
    (∀ k, Memory.wf (g.eng k).scratch = true) → g.engines.length = 16 →
    let size := sizeOfType (bits o.regs 5 2 0)
    let len := copyLen o size
    let head (g : Gang) (o' : UnitOp) : Gang := withUnit g s.ctx.unit { unitOf g s.ctx.unit with queue := o' :: rest }
    let src := copyAddr o (sget 0 o.regs 0) 3 size (o.chunk % 65536)
    let dst := copyAddr o (sget 0 o.regs 1) 4 size (o.chunk % 65536)
    (∀ es so ed do_ : Nat, chunkReady s s.ctx.core s.ctx.unit = true → bits o.regs 5 2 0 = bits o.regs 5 5 3 → bits o.regs 5 10 10 = 0 →
      bits o.regs 5 31 16 = 0 → 0 < len → EngineSpot g src es so (len * size) size → EngineSpot g dst ed do_ (len * size) size →
      o.kept = [] → (∀ j, j < len * size → o.reads s s.ctx.core s.ctx.unit g (1, g.info.pos, ed, do_ + j) = false) → Clean (g.eng es) so (len * size) →
      s.deadSram s.ctx.core es = false → s.deadSram s.ctx.core ed = false →
      sparseWf 0 (g.eng ed).poison = true → ∃ (m : Bytes) (bs bd : List (Nat × Bank)) (pz : RegFile 1), Healed (g.eng ed).poison pz do_ (len * size) ∧ Stored (sget 0 (g.eng ed).scratch) (sget 0 m) do_ (len * size) (leOf (sget 0 (g.eng es).scratch) so (len * size)) ∧
        Becomes .copyChunkLand s (head ((g.modEng es (fun en => { en with banks := bs })).modEng ed (fun en => { en with scratch := m, banks := bd, poison := pz }))
          { o with chunk := if bits o.regs 2 15 0 ≤ o.chunk % 65536 + len then 65536 * (o.chunk / 65536 + 1) else o.chunk + len
                   lines := o.lines + ((src.toNat + len * size - 1) / 128 - src.toNat / 128 + 1), lastLand := s.cycle })) ∧
    (chunkReady s s.ctx.core s.ctx.unit = true → 0 < len → addrBits src 63 60 = 5 →
      Becomes .copyChunkFault s { head g { o with fault := some { code := .page, vaddr := src, lanes := 0, detail := 2 } } with
        badBatons := Bad g.badBatons { baton := o.baton, code := .page, vaddr := src, detail := 256 * o.opcode + 8 * o.baton + 2 } }) ∧
    (o.started ≠ none → o.fault = none → copyRows o ≤ o.chunk / 65536 → o.lastLand + 1 ≤ s.cycle → ∃ m, Set g.batons m o.baton ∧
      Becomes .copyComplete s { withUnit g s.ctx.unit { unitOf g s.ctx.unit with queue := rest } with batons := m })

/-- WALKER_BATCH_PUSH and WALKER_COMPLETE complete (R324, R325, R328, R330): the last batch of a tile in the own scratchpad whose payload
lists its codes goes to iq as coordinate words, lane by lane, and the walker leaves its engine; a baton is set once every walker of an
ENGGO.IW has left. -/
def Obligations.Walkers : Prop :=
  ∀ (s : State) (g : Gang), Here s g →
    (∀ (w : WalkOp) (rest : List WalkOp), let en := g.eng s.ctx.engine
      let t := (bits w.regs 3 31 0 + w.tile) % 2 ^ 32
      let tx := bits w.regs 4 15 0
      let at_ (d : Nat) (n : Nat) : Nat := addrBits (sget 0 w.regs d) 21 0 + n
      let byte (a : Nat) : Byte := sget 0 en.scratch a
      let desc (o n : Nat) : Nat := leOf byte (at_ 0 (16 * t) + o) n
      let list := desc 0 4
      let nnz := desc 8 2
      let code (i : Nat) : Nat := leOf byte (at_ 1 list + 2 * i) 2
      let even (m : Nat) : Nat := ((List.range 6).map (fun i => (m / 4 ^ i % 2) * 2 ^ i)).sum
      pushReady s s.ctx.core s.ctx.engine = true → en.walks = w :: rest → w.tile + 1 = bits w.regs 3 63 32 → bits w.regs 5 1 0 = 0 →
      bits w.regs 4 32 32 = 0 → addrBits (sget 0 w.regs 0) 63 60 = 1 → addrBits (sget 0 w.regs 1) 63 60 = 1 →
      addrBits (sget 0 w.regs 0) 59 22 = 0 → addrBits (sget 0 w.regs 1) 59 22 = 0 → at_ 0 0 % 16 = 0 → at_ 1 0 % 32 = 0 → list % 4 = 0 →
      at_ 0 (16 * t) + 16 ≤ g.info.spSize → at_ 1 list + 2 * nnz ≤ g.info.spSize → g.info.spSize ≤ 2 ^ 22 →
      Clean en (at_ 0 (16 * t)) 16 → Clean en (at_ 1 list) (2 * nnz) → s.ctx.engine < g.engines.length → s.deadSram s.ctx.core s.ctx.engine = false → desc 10 1 = 0 → desc 11 5 = 0 →
      nnz ≤ 4096 → 32 * w.batch < nnz → nnz ≤ 32 * (w.batch + 1) → 0 < tx → tx < 1024 → t / tx < 1024 → (∀ i, i < nnz → code i < 4096) →
      (∀ i, i + 1 < nnz → code i < code (i + 1)) → ∃ (acc : Access) (v : Vec),
        Becomes .walkerBatchPush s (({ g with iwOps := g.iwOps.map (fun (o : IwOp) => if o.id = w.id then { o with lastDone := s.cycle } else o) } : Gang).modEng
          s.ctx.engine (fun en => { en with
            iq := en.iq ++ [{ serial := en.serial, acc, issued := s.cycle, readyAt := s.cycle, result := some (.data v)
                              popped := none }]
            serial := en.serial + 1, walks := rest })) ∧ acc.opcode = 0x23 ∧
        ∀ l, l < 32 → laneAt v l = if 32 * w.batch + l < nnz then
            64 * (t % tx) + even (code (32 * w.batch + l)) + 2 ^ 16 * (64 * (t / tx) + even (code (32 * w.batch + l) / 2))
          else 0xFFFFFFFF) ∧
    ∀ (o : IwOp) (before after : List IwOp), g.iwOps = before ++ o :: after → o.started ≠ none → o.fault = none → o.lastDone + 1 ≤ s.cycle →
      (∀ k w, k < 16 → o.engines.getLsbD k = true → w ∈ (g.eng k).walks → w.id ≠ o.id) → (∀ p, p ∈ before → p.started = none) →
      (∀ p, p ∈ before ++ after → p.id ≠ o.id) → ∃ m, Set g.batons m o.baton ∧
        Becomes .walkerComplete s { g with iwOps := before ++ after, batons := m }

/-- COLLECTIVE_COMMIT, COLLECTIVE_FAIL, COLLECTIVE_TIMEOUT and COLLECTIVE_MEMBER_COMPLETE complete (R338, R339, R341-R343): an instance
of this package that holds every contribution commits; an open one fails, by an event here or, of a group over several packages, elsewhere,
or by a member's TIMEOUT (how far this package sees another's events is the model's choice, log 30; what a lookup adds its reading, log 80); a member's result, where it does not lie over its contribution, and its record are written and its baton set. -/
def Obligations.Collectives : Prop :=
  ∀ (s : State) (i : CollInst) (before after : List CollInst), Instance s i before after →
    let becomes (e : Instr) (j : CollInst) : Prop := exec e s = .next { s with coll := before ++ j :: after }
    let P := (List.range 32).countP i.key.mask.getLsbD
    (i.fate = .waiting → i.npkg = 1 → i.members.length = P → (∀ m, m ∈ i.members → m.data ≠ none ∧ m.ready ≤ s.cycle) →
      (∀ j, j ∈ before → j.fate ≠ .waiting) → becomes .collectiveCommit { i with fate := .done s.cycle }) ∧
    (∀ cause, i.fate = .waiting → i.key.pen = true → 1 ≤ cause → cause ≤ 5 → becomes (.collectiveFail i.key cause) { i with fate := .failed cause s.cycle }) ∧
    (∀ m n, i.fate = .waiting → m ∈ i.members → n ∈ i.members → m.params ≠ n.params →
      becomes (.collectiveFail i.key 3) { i with fate := .failed 3 s.cycle }) ∧
    (∀ m p, i.fate = .waiting → 0 < i.npkg → (∀ n, n ∈ i.members → n.params = p) → p.1 ≠ 1 → m ∈ i.members → m.data = none →
      becomes (.collectiveFail i.key 4) { i with fate := .failed 4 s.cycle }) ∧
    (∀ cause, i.fate ≠ .waiting ∨ cause = 0 ∨ 5 < cause → exec (.collectiveFail i.key cause) s = .next s) ∧
    (∀ m, i.fate = .waiting → m ∈ i.members → m.started + m.timeout ≤ s.cycle → (∀ j, j ∈ before → j.fate ≠ .waiting) →
      becomes .collectiveTimeout { i with fate := .failed 1 s.cycle }) ∧
    ∀ (g : Gang) (m : CollMember) (o : UnitOp) (rest : List UnitOp) (at_ ed off er offr : Nat), Here s g → g.cl.queue = o :: rest →
      collReady s s.ctx.core = some (i, m, o) → i.fate = .done at_ → o.chunk = 0 → m.params = paramsOf o → (paramsOf o).1 < 4 → i.npkg = 1 →
      0 < P → (∀ k, Memory.wf (g.eng k).scratch = true) → (∀ k, sparseWf 0 (g.eng k).poison = true) → g.engines.length = 16 →
      (∀ c : Nat → Nat, (∀ r, r < P → ∃ n, i.members.find? (fun n => n.rank == r) = some n ∧ n.data = some (c r)) →
        let size := sizeOfType (paramsOf o).2.2.1
        let bytes := collBytes (paramsOf o) P
        size ∈ [2, 4] → 0 < bytes → ((paramsOf o).1 = 1 → (paramsOf o).2.2.2.1 % P = 0) → (paramsOf o).2.2.2.2.2 < P →
        EngineSpot g (sget 0 o.regs 1) ed off bytes size → EngineSpot g (sget 0 o.regs 5) er offr 16 16 → ed ≠ er →
        s.deadSram s.ctx.core ed = false → s.deadSram s.ctx.core er = false →
        (let src := sget 0 o.regs 0
         addrBits src 63 60 ≠ 2 ∨ addrBits src 27 24 ≠ ed ∨ addrBits src 21 0 + (paramsOf o).2.2.2.1 * size ≤ off ∨ off + bytes ≤ addrBits src 21 0) →
        ∃ (v : Nat) (md mr : Bytes) (pz : RegFile 1) (batons : BitVec 32), CollValue (paramsOf o) P c m.rank v ∧ Set g.batons batons o.baton ∧
          Healed (g.eng ed).poison pz off bytes ∧
          Stored (sget 0 (g.eng ed).scratch) (sget 0 md) off bytes v ∧
          Stored (sget 0 (g.eng er).scratch) (sget 0 mr) offr 16
            (1 + 2 ^ 48 * P + 2 ^ 64 * (i.key.number % 2 ^ 32) + 2 ^ 96 * (m.rank % 2 ^ 32)) ∧
          Answers .collectiveMemberComplete s (fun t =>
            t = { s.putGang s.ctx.core { ((g.modEng ed (fun en => { en with scratch := md, poison := pz })).modEng er (fun en => { en with scratch := mr })) with
                    cl := { g.cl with queue := rest }, batons } with coll := t.coll } ∧
            let i' : CollInst := { i with members := i.members.map (fun n => if n.pos = m.pos then { n with finished := true } else n) }
            let ends : Prop := i'.members.length = P ∧ ∀ n, n ∈ i'.members → n.finished = true
            (ends → t.coll = before ++ after) ∧ (¬ ends → t.coll = before ++ i' :: after)))

end

namespace Sys2Proof.Claims
open Sys2Proof.Machine

/-- The bundle with these bits holds instruction i in slot sl, well-formed there, and nothing in its other slots. -/
def Lone (w : BundleBits) (sl : Slot) (i : Instr) : Prop :=
  (looseBundle w).at sl = some i ∧ fieldsOk sl i = true ∧ ∀ y, y ≠ sl → (looseBundle w).at y = none

/-- The events with which a bundle issues, and when each is due: its own time, or the end of a wait (R32, R155, R156). -/
def issuing (s : State) (core : Nat) (spare : Bool) : List (Instr × Bool) :=
  [(.bundleIssue, issueReady s core spare), (.barrierOpen, wakeReady s core spare .barrier), (.waitWake, wakeReady s core spare .event),
   (.bwaitWake, wakeReady s core spare .baton)]

/-- One half of the gang status block for a fault (R48). -/
def halfOf (q : Seq) (state : Nat) (r : FaultRec) (now : Nat) : Status :=
  { state, fault := r.code.code, engmask := r.engmask, pc := q.pc, rppc := q.rppc, slot := r.slot, queue := r.queue, traps := q.traps
    detail := r.detail, vaddr := r.vaddr, lanes := r.lanes, cycle := now }

/-- A sequencer whose wait has ended, with its cycles counted (R167). -/
def waited (q : Seq) (now : Nat) : Seq :=
  match q.wait with
  | none => q
  | some (k, t) =>
    let n := BitVec.ofNat 64 (now - t)
    { q with wait := none
             perf := if k = .queue then { q.perf with qwait := q.perf.qwait + n } else if k = .matrix then { q.perf with xwait := q.perf.xwait + n }
                     else { q.perf with swait := q.perf.swait + n } }

/-- A sequencer as a halt leaves it. -/
def haltedSeq (q : Seq) (st : Status) (now : Nat) : Seq := { waited q now with status := st, tried := none }

/-- t is s but for what the hub writes through its translation cache, now or once a release of the page is over. -/
def HubWrote (s t : State) : Prop :=
  t = { s with mem := t.mem, dieCaches := t.dieCaches, homeLines := t.homeLines, poison := t.poison, hubTc := t.hubTc, hubLater := t.hubLater }

/-- TIMING as the halt of a gang. -/
def timingRec : FaultRec :=
  { code := .timing, rank := 0, slot := 14, queue := 0xFF, engmask := 0, detail := 0, vaddr := 0, lanes := 0 }

/-- The unpopped entries of a queue, which belong to an earlier region once a restart point has issued. -/
def Earlier (l : List QEntry) : List QEntry := l.filter (fun e => e.popped.isNone)

/-- The batch of a sub-gang with engines own, sealed now, unless none of them holds a store (R38, R39). -/
def Sealed (g : Gang) (own : Mask) (now : Nat) (old new : Option Batch) : Prop :=
  let holds (k : Nat) : Prop := k < 16 ∧ own.getLsbD k = true ∧ (g.eng k).sq ≠ []
  ((∀ k, ¬ holds k) → new = old) ∧
  ((∃ k, holds k) → ∃ b, new = some b ∧ b.sealedAt = now ∧ b.fault = none ∧ ∀ k l, (k, l) ∈ b.entries ↔ holds k ∧ l = (g.eng k).sq)

/-- Nothing is in flight to an engine, or to a sequencer. -/
def Still (en : Engine) : Prop := en.lands = [] ∧ en.xops = []

/-- The counters of two sequencers together. -/
def addPerf (p q : Perf) : Perf :=
  { issued := p.issued + q.issued, qwait := p.qwait + q.qwait, xwait := p.xwait + q.xwait, swait := p.swait + q.swait
    traps := p.traps + q.traps, longWait := p.longWait + q.longWait }

end Sys2Proof.Claims

section
open Sys2Proof Sys2Proof.Machine Sys2Proof.Claims

/-- A step runs the instruction that its bundle's bits decode to (R35, R44, R130): when BUNDLE_ISSUE, BARRIER_OPEN, WAIT_WAKE or BWAIT_WAKE
is due for a bundle of the dictionary that holds one instruction and need not wait, exec of that instruction at the state in which the
bundle issues decides: the bundle commits, or its fault begins to halt the gang and nothing of it stays. And a step is exec of the event
that is next, of an input before it, or the passing of the cycle. -/
def Obligations.StepRunsDecoded : Prop :=
  ∀ (s : State) (core : Nat) (spare : Bool) (g : Gang),
    (∀ (e : Instr) (c : CodeWord) (w : BundleBits) (sl : Slot) (i : Instr) (s2 : State) (g2 : Gang), s.gang core = some g →
      s.ctx = { core, spare } → (e, true) ∈ issuing s core spare → g.code[(g.seq spare).pc]? = some c → c ≠ escapeWord →
      g.dict[c.toNat]? = some w → Lone w sl i → (g.seq spare).loop = none →
      let b := looseBundle w
      let u := s.atIssue core spare g b []
      waitOf { s with ctx := issueCtx s core spare g b } g spare b = none →
      exec i { u with ctx := { u.ctx with slot := sl } } = .next s2 → s2.gang core = some g2 →
      (g2.raised = [] → (g2.seq spare).wait = none → ∃ g3, exec e s = .next { s2.putGang core (g3.commit spare
            (((g2.seq spare).ctl).getD (g2.flow s2)) s.cycle) with ctx := s.ctx } ∧
          (b.rp = false → g3 = g2) ∧ g3 = { g2 with ckptP := g3.ckptP, ckptS := g3.ckptS }) ∧
      (∀ r, g2.raised = [r] → exec e s = .next (s.putGang core ((g.modSeq spare (fun q => q.endWait s.cycle)).beginHalt spare r)))) ∧
    let u : State := { s with free := s.free + 1 }
    (s.inputs = [] → s.stage = .up → ∀ e ctx, pick u = some (e, ctx) → step s = exec e { u with ctx }) ∧
    (s.inputs = [] → s.stage = .up → pick u = none → step s = .next u.tick) ∧
    (∀ i rest, s.inputs = i :: rest → outside i = true → step s = exec i { u with inputs := rest, ctx := {} }) ∧
    (s.inputs = [] → s.stage = .off → step s = .next u) ∧ (s.inputs = [] → s.stage = .stopped → step s = .fault .packageStopped)

/-- FAULT_HALT, TIMING_TRAP, LONG_WAIT_HALT and GMERGE_WAIT_END complete (R40-R43, R46, R48, R151): a gang whose results have landed
halts with its status block; a trap brings the restart point's state back and its bundle issues again, and the fourth in a row halts the
gang; so does a queue wait of 16 limits in a region that cannot restart; and a split ends when the primary arrives second. When a halt is
exact, and what a checkpoint keeps of the other sub-gang's entries, are the model's readings (log 52, 61). -/
def Obligations.TrapsAndHalts : Prop :=
  ∀ (s : State) (g : Gang), Here s g →
    let spare := s.ctx.spare
    let q := g.seq spare
    (∀ r : FaultRec, g.st = .faulting → g.halt = some r → g.prim.lands = [] → g.spare.lands = [] → (∀ en, en ∈ g.engines → Still en) →
      let state := if r.code = .brk then 2 else 1
      let mine (q : Seq) : Seq := haltedSeq q (halfOf q state r s.cycle) s.cycle
      let other (q : Seq) : Seq := haltedSeq q (halfOf q state
        { code := r.code, rank := 0, slot := 14, queue := 0xFF, engmask := 0, detail := 0, vaddr := 0, lanes := 0 } s.cycle) s.cycle
      let g' : Gang := { g with
        st := .halted, xlReason := r.reason, xlLevel := r.level
        prim := if g.haltSpare then other g.prim else mine g.prim
        spare := if g.haltSpare then mine g.spare else if g.split then other g.spare else g.spare }
      Answers .faultHalt s (fun t => HubWrote (s.putGang s.ctx.core g') t ∧ (g.info.saveBase = 0 → t = s.putGang s.ctx.core g'))) ∧
    (∀ c : Ckpt, trapDue s s.ctx.core spare = true → (if spare then g.ckptS else g.ckptP) = some c → (spare = true ∨ c.split = g.split) →
      c.seq.lands = [] → (c.engines.map (·.1)).Nodup → (∀ x, x ∈ c.engines → x.2.lands = [] ∧ x.1 < g.engines.length) →
      ∃ g' : Gang, Becomes .timingTrap s g' ∧
        let q' := g'.seq spare
        (q'.pc, q'.active, q'.s, q'.g, q'.stack) = (c.seq.pc, c.seq.active, c.seq.s, c.seq.g, c.seq.stack) ∧
        (q'.resident, q'.spilled, q'.callDepth) = (c.seq.resident, c.seq.spilled, c.seq.callDepth) ∧
        q'.reissue = true ∧ q'.immediate = false ∧ q'.traps = q.traps + 1 ∧ q'.perf.traps = q.perf.traps + 1 ∧
        g'.events = g.events ||| BitVec.ofNat 4 c.events ∧ g'.batons = g.batons ||| c.batons ∧
        (∀ x, x ∈ c.engines → let en := g.eng x.1
          let en' := g'.eng x.1
          let rewound (l old : List QEntry) : List QEntry := (old.filter (fun e => l.all (fun f => f.serial != e.serial)) ++
            l.filter (fun e => decide (e.serial < x.2.serial))).map (fun e => { e with popped := none })
          (en'.e, en'.a, en'.st, en'.c, en'.fpflags, en'.bind) = (x.2.e, x.2.a, x.2.st, x.2.c, x.2.fpflags, x.2.bind) ∧
          (en'.v, en'.h, en'.l, en'.scratch, en'.ceil) = (en.v, en.h, en.l, en.scratch, en.ceil) ∧
          en'.q0 = rewound en.q0 x.2.q0 ∧ en'.q1 = rewound en.q1 x.2.q1 ∧ en'.iq = rewound en.iq x.2.iq ∧ en'.sq = []) ∧
        (∀ k, k ∉ c.engines.map (·.1) → g'.eng k = g.eng k) ∧
        (q.traps + 1 < 4 → g'.st = g.st ∧ g'.halt = g.halt) ∧ (4 ≤ q.traps + 1 → g'.st = .faulting ∧ g'.halt = some timingRec)) ∧
    (∀ t, longWaitDue s s.ctx.core spare = true → q.wait = some (.queue, t) →
      Becomes .longWaitHalt s { g.modSeq spare (fun q =>
          { q with wait := none, perf := { q.perf with qwait := q.perf.qwait + BitVec.ofNat 64 (s.cycle - t) } }) with
        st := .faulting, halt := some timingRec, haltSpare := spare, raised := [] }) ∧
    (∀ (c : SeqCtl) (t : Nat) (w : CodeWord) (d : BundleBits), g.prim.ctl = some c → c.act = .merge → g.spare.wait = some (.merge, t) →
      g.code[g.spare.pc]? = some w → w ≠ escapeWord → g.dict[w.toNat]? = some d → Lone d .s0 .gmerge → (looseBundle d).rp = true →
      g.prim.resident ≠ 0 → g.split = true → g.engines.length = 16 →
      let p := g.prim
      let new := !g.spare.reissue
      ∃ m', GivesBack g (BitVec.ofNat 16 (sget 0 p.stack (p.resident - 1)).toNat) m' ∧ ((∀ j, j < 16 → ¬ Parted g m' j) →
        ∃ (kept : List SLand) (batch : Option Batch) (ck cp : Option Ckpt),
        (∀ c, g.ckptP = some c → ∃ es, cp = some { c with engines := es } ∧ (c.split = true → cp = g.ckptP)) ∧ (g.ckptP = none → cp = none) ∧
        (∀ L, L ∈ kept ↔ L ∈ g.spare.lands ∧ (∀ i v, L.pay ≠ .s i v) ∧ ∀ i m v, L.pay ≠ .g i m v) ∧
        (new = true → Sealed g g.splitEngines s.cycle g.spare.batch batch) ∧ (new = false → batch = g.spare.batch) ∧
        Becomes .gmergeWaitEnd s { g.mapAct 0xFFFF (fun k en =>
            if g.splitEngines.getLsbD k then
              { en with q0 := Earlier en.q0, q1 := Earlier en.q1, iq := Earlier en.iq, occSeen := none
                        sq := if new then [] else en.sq, regionFrom := if new then en.serial else en.regionFrom }
            else { en with occSeen := none }) with
          split := false, splitEngines := 0, splitTag := 0, splitDepth := 0, raised := [], ckptS := ck, ckptP := cp
          lockKept := g.lockKept && !new
          prim := { p with
            pc := p.pc + bundleWords g p.pc, active := m', resident := p.resident - 1, ctl := none, base := s.cycle + 1, tried := none
            wait := none, perf := addPerf p.perf (addPerf g.spare.perf { issued := 1, swait := BitVec.ofNat 64 (s.cycle - t) }) }
          spare := { batch, lands := kept } }))

/-- GANG_START, GANG_EXIT_COMPLETE and PREEMPT_STOP complete (R30, R49, R129, R162, R352, R388, R389): the gangs of a placed squad stand on
their cores as R30 and R129 say; an exiting gang with nothing left to do reads STATE 4, and one with a faulted baton halts; a sequencer
stops at its restart point; a stopped or halted gang's lines, which its stores and copies have reached or its loads have read dirty, are
written back at package scope (R74), and, once the last of them has arrived, it is saved: a halted one as it stands, another with STATE 3
(R48, R389), its transactions without their logs and with every optimistic member doomed (R311). -/
def Obligations.StartsAndExits : Prop :=
  ∀ s : State,
    (∀ (t : Task) (q : Squad), nextStart s = some (t, q) → (∀ e, e ∈ t.desc.edges → e.testBit 32 = false) → q.saves = [] → q.cores.Nodup →
      (∀ c, c ∈ q.cores → c < s.cores.length ∧ (s.core c).fenced = false) → Answers (.gangStart t.handle q.num) s (fun u =>
        HubWrote { s with cores := u.cores, sched := { s.sched with tasks := u.sched.tasks } } u ∧
        (t.desc.saveVa = 0 → u = { s with cores := u.cores, sched := { s.sched with tasks := u.sched.tasks } }) ∧
        (∀ c, c ∉ q.cores → u.core c = s.core c) ∧ (∀ c, c ∈ q.cores → (u.core c).tcMiss = 0) ∧
        (∀ p c, q.cores[p]? = some c → ∃ h, u.gang c = some h ∧ h.st = .running ∧
          (h.info.handle, h.info.asid, h.info.squad, h.info.pos, h.info.ngang) = (t.handle, t.desc.asid, q.num, p, t.desc.ngang) ∧ h.info.prio = q.prio ∧
          (h.code, h.dict, h.stencil) = (t.code, t.dict, t.stencil) ∧ (h.prim.pc, h.prim.resident, h.prim.callDepth) = (0, 0, 0) ∧
          h.prim.s = [] ∧ h.prim.g = [] ∧ h.prim.loop = none ∧ h.prim.active = h.live ∧ h.split = false ∧
          (h.events, h.batons, h.timer, h.watchdog, h.lapGate) = (0, 0, 0, 4096, 0xFFFF) ∧
          ∀ k, k < 16 → let en := h.eng k
            en.e = [] ∧ en.a = [] ∧ en.st = [] ∧ en.v = [] ∧ en.c = [] ∧ en.l = [] ∧ en.h = [] ∧ en.x = [] ∧ en.sc = [] ∧ en.cb = [] ∧
            en.scratch = [] ∧ en.q0 = [] ∧ en.q1 = [] ∧ en.iq = [] ∧ en.sq = [] ∧ en.fpflags = 0 ∧ en.rcut = 64 ∧
            en.bind = ⟨k, 1, 0⟩ ∧ en.capRows = (s.core c).capOf k ∧ (h.live.getLsbD k = true ↔ (s.core c).capOf k ≠ 0) ∧
            ∀ a, sget 0 en.ceil a = t.ceilImage.getD a 0) ∧
        ∀ r, r ∈ u.sched.tasks ↔ ∃ o, o ∈ s.sched.tasks ∧ r = if o.handle = t.handle then { o with squads := o.squads.map (fun x =>
          if x.num = q.num then { x with state := .running, saves := [] } else x) } else o)) ∧
    (∀ g : Gang, Here s g → g.st = .exiting →
      (∀ f rest, g.badBatons = f :: rest → Becomes .gangExitComplete s { g with
        st := .faulting, haltSpare := false, raised := []
        halt := some { code := f.code, rank := faultRank f.code .s0 0xFF, slot := 0, queue := 0xFF, engmask := 0, detail := f.detail
                       vaddr := f.vaddr, lanes := 0, reason := f.reason, level := f.level } }) ∧
      (g.badBatons = [] → g.prim.batch = none → g.spare.batch = none → g.prim.lands = [] → g.spare.lands = [] →
        (∀ en, en ∈ g.engines → Still en) → g.cp0.queue = [] → g.cp1.queue = [] → g.cl.queue = [] → g.iwOps = [] →
        let who := (g.info.handle, g.info.squad, g.info.pos)
        let base : State := { s.putGang s.ctx.core { g with
            st := .exited
            prim := { g.prim with status := { state := 4, pc := g.prim.pc, rppc := g.prim.rppc, slot := 14, queue := 0xFF
                                              traps := g.prim.traps, cycle := s.cycle } } } with
          rings := s.rings.map (fun r => (r.1, if r.2.watch = some who then { r.2 with watch := none } else r.2))
          ringEvents := s.ringEvents.filter (fun e => e.watcher != who) }
        Answers .gangExitComplete s (fun t => HubWrote base t ∧ (g.info.saveBase = 0 → t = base)))) ∧
    ∀ g : Gang, Here s g →
      (∀ spare : Bool, stopStep s s.ctx.core = .seq spare → (g.seq spare).arrived = false → (∀ en, en ∈ g.engines → en.sq = []) →
        ∃ q' : Seq, Becomes .preemptStop s ((g.mapAct (g.driven spare) (fun _ en => { en with regionFrom := en.serial })).modSeq spare (fun _ => q')) ∧
          q' = { g.seq spare with wait := none, stopped := true, perf := q'.perf }) ∧
      (stopStep s s.ctx.core = .release → Answers .preemptStop s (fun t =>
        t = { s.putGang s.ctx.core { g with saveDue := some s.wbNext } with writeBacks := t.writeBacks, wbNext := s.wbNext + 1 } ∧
        (∀ w, w ∈ s.writeBacks → w ∈ t.writeBacks) ∧
        ∀ l : Nat, (l ∈ g.copied ∨ ∃ en, en ∈ g.engines ∧ (l ∈ en.wrote ∨ l ∈ en.seen)) → (s.line (dieOf s.ctx.core) l).dirty ≠ 0 →
          ∃ w, w ∈ t.writeBacks ∧ w.die = dieOf s.ctx.core ∧ w.line = l ∧ w.event = s.wbNext)) ∧
      (stopStep s s.ctx.core = .save → g.st = .halted ∨ g.st = .running → ∃ f : TxState → TxState,
        let block (q : Seq) : Seq := { q with status :=
          { state := 3, pc := q.pc, rppc := q.rppc, slot := 14, queue := 0xFF, traps := q.traps, cycle := s.cycle } }
        let kept : Gang := { g with saved := true, engines := g.engines.map (fun en => { en with tx := f en.tx }) }
        let base := s.putGang s.ctx.core (if g.st = .halted then kept else
          { kept with st := .preempted, prim := block g.prim, spare := if g.split then block g.spare else g.spare })
        let gone (c d : TxLog) : Prop := d.reads = [] ∧ d.writes = [] ∧ d.members = c.members ∧ d.serial = c.serial ∧ d.id = c.id ∧
          (c.serial = false → ∀ l, l < 32 → c.members.getLsbD l = true → d.doomed.getLsbD l = true)
        (∀ x, (f x).opened = x.opened ∧ (f x).count = x.count ∧ (f x).limit = x.limit ∧ (x.opened = true → gone x.cur (f x).cur) ∧
          (f x).closing.length = x.closing.length ∧ ∀ (n : Nat) c d, x.closing[n]? = some c → (f x).closing[n]? = some d → gone c d) ∧
        (∀ x, x.opened = false → x.closing = [] → x.cur.reads = [] → x.cur.writes = [] → f x = x) ∧
        Answers .preemptStop s (fun t => HubWrote base t ∧ (g.info.saveBase = 0 → t = base))) ∧
      (g.preemptReq = true → g.saved = false → g.st = .halted → g.prim.batch = none → g.spare.batch = none → g.cp0.queue = [] → g.cp1.queue = [] →
        g.cl.queue = [] → (∀ en, en ∈ g.engines → en.walks = [] ∧ (∀ e, e ∈ en.q0 ++ en.q1 → e.acc.kind.isXlate = false) ∧
          ∀ e, e ∈ en.sq → e.acc.kind.isXlate = false) → s.transit = [] → s.invs = [] → s.commits = [] → s.lock = {} →
        (g.saveDue = none → stopStep s s.ctx.core = .release) ∧ ∀ n, g.saveDue = some n → s.writtenBack n = true → stopStep s s.ctx.core = .save)

end

namespace Sys2Proof.Claims
open Sys2Proof.Machine

/-- The hub's translation cache maps n bytes at a virtual address with all rights to a place that no die cache holds; no release that covers
them is under way, and no write of the hub to their page waits for one (R367). -/
def HubMaps (s : State) (asid va n pa : Nat) : Prop :=
  ∃ e, tcFind s.hubTc asid va = some e ∧ e.rd = true ∧ e.wr = true ∧ pa = e.frame + va % 2 ^ pageBits e.level ∧
    s.releasing asid va = false ∧ (∀ w, w ∈ s.hubLater → ¬ (w.asid = asid ∧ w.va / 65536 = va / 65536)) ∧
    va % 65536 + n ≤ 65536 ∧ Uncached s (pa / 128) ∧ Uncached s ((pa + n - 1) / 128)

/-- t is s after the hub has stored the n low bytes of a number at a virtual address that it maps. -/
def HubStores (s t : State) (asid va n v : Nat) : Prop :=
  ∀ pa, HubMaps s asid va n pa → t = { s with mem := t.mem, homeLines := t.homeLines } ∧ Stored s.homeByte t.homeByte pa n v

/-- A completion word (R381): its state, code, handle and DETAIL. -/
def wordOf (state code handle detail : Nat) : Nat := state + 2 ^ 32 * code + 2 ^ 64 * (handle % 2 ^ 32) + 2 ^ 96 * (detail % 2 ^ 32)

/-- exec answers base with the completion word of a descriptor written. -/
def Completes (e : Instr) (s base : State) (d : Descriptor) (word : Nat) : Prop :=
  Answers e s (fun u => HubStores base u d.asid d.complVa 16 word)

/-- The scheduler's tasks with those of a handle changed. -/
def withTask (s : State) (h : Nat) (f : Task → Task) : Sched := { s.sched with tasks := s.sched.tasks.map (fun t => if t.handle = h then f t else t) }

/-- No edge of a descriptor is valid. -/
def NoEdges (d : Descriptor) : Prop := ∀ e, e ∈ d.edges → e.testBit 32 = false

/-- The cycle of a squad's first bundles (R388), later by what the lookups of its images add (R362; the model's reading, log 80). -/
def firstIssue (s : State) (d : Descriptor) : Nat :=
  s.cycle + imagesMiss s d + 1000 + ceilTo 8 d.dictLen + ceilTo 64 d.codeLen + ceilTo 256 (d.ceilLen + d.stenLen)

/-- A task after a squad of it has been placed on cores. -/
def Placed (s : State) (t t' : Task) (q : Squad) (cores : List Nat) (next : Nat) : Prop :=
  t' = { t with nextSquad := next, dies := t'.dies, ageFrom := some s.cycle, state := t'.state
                squads := t.squads.filter (fun r => r.num != q.num) ++
                  [{ q with state := .placed (firstIssue s t.desc), cores, placedAt := s.cycle, prio := t.eff }] } ∧
    ∀ d, d < 8 → (t'.dies.getLsbD d = true ↔ t.dies.getLsbD d = true ∨ ∃ c, c ∈ cores ∧ c / 9 = d)

/-- A later placement of a squad of task t has read its images from the same addresses, which disturbs nothing else: they are those of t1
(R75, R388). -/
def Reloads (s : State) (t t1 : Task) : Prop :=
  ∃ code dict ceil sten : List Byte, readImages s t.desc = (s, .ok (code, dict, ceil, sten)) ∧ t1 = { t with
    code := (groupsOf 2 code).map (BitVec.ofNat 16), dict := (groupsOf 48 dict).map (BitVec.ofNat 384), ceilImage := ceil
    stencil := (groupsOf 4 sten).map (BitVec.ofNat 32), loaded := true }

/-- The package after a task that holds no core has been cancelled, but for its completion word. -/
def cancelled (s : State) (t : Task) : State :=
  { s with
    rings := s.rings.map (fun r => (r.1, match r.2.watch with
      | some w => if w.1 = t.handle then { r.2 with watch := none } else r.2
      | none => r.2))
    ringEvents := s.ringEvents.filter (fun e => e.watcher.1 != t.handle)
    coll := s.coll.filter (fun i => i.key.handle != t.handle)
    sched := withTask s t.handle (fun x => { x with state := .cancelled, squads := [], nextSquad := x.desc.gx * x.desc.gy * x.desc.gz }) }

/-- A halted gang as it goes on (R45): at the same bundle, in the next cycle, with its registers and scratchpads; its block reads STATE 0. -/
def Resumed (s : State) (g h : Gang) : Prop :=
  h.st = .running ∧ h.halt = none ∧ h.prim.pc = g.prim.pc ∧ h.prim.base = s.cycle + 1 ∧ h.prim.s = g.prim.s ∧ h.prim.status.state = 0 ∧
    ∀ k, ((h.eng k).e, (h.eng k).a, (h.eng k).v, (h.eng k).c, (h.eng k).scratch) =
      ((g.eng k).e, (g.eng k).a, (g.eng k).v, (g.eng k).c, (g.eng k).scratch)

end Sys2Proof.Claims

section
open Sys2Proof Sys2Proof.Machine Sys2Proof.Claims

/-- SUBMISSION_ARRIVAL, TASK_ACCEPT, TASK_READY and TASK_CANCEL complete (R376, R379-R383): a submission enters its queue; the head of
the queue served becomes a QUEUED task with the next handle, is rejected with 0x40, or is dropped; a task without edges becomes READY; one
that holds no core is cancelled. Each writes its completion word. -/
def Obligations.Tasks : Prop :=
  ∀ s : State, Memory.wf s.mem = true →
    (∀ (c : Coming) (before after : List Coming), s.sched.coming = before ++ c :: after → comingDue s c = true →
      (∀ x, x ∈ before → ¬ (x.sub = c.sub ∧ comingDue s x = true)) → (s.sched.queues.getD c.sub.queue []).length < 64 →
      exec (.submissionArrival c.sub) s = .next { s with sched := { s.sched with
        coming := before ++ after, queues := modAt s.sched.queues c.sub.queue (fun q => q ++ [{ sub := c.sub, entered := s.cycle }]) } }) ∧
    (∀ (q : Nat) (e : QueuedSub) (rest : List QueuedSub), nextQueue s = some q → s.sched.queues.getD q [] = e :: rest →
      let s' : State := { s with sched := { s.sched with
        queues := modAt s.sched.queues q (fun l => l.drop 1), lastQueue := q, serveAt := s.cycle + 8 } }
      (readable s' e.sub = (s', none) → exec .taskAccept s = .next { s' with sched := { s'.sched with dropped := s.sched.dropped + 1 } }) ∧
      ∀ d rsv, readable s' e.sub = (s', some (d, rsv)) →
        (d.ok rsv = false → Completes .taskAccept s { s' with sched := { s'.sched with rejected := s.sched.rejected + 1 } } d (wordOf 7 0x40 0 0)) ∧
        (d.ok rsv = true → d.nregion = 0 → d.flags.testBit 1 = false → NoEdges d →
          let h := s.sched.nextHandle
          Answers .taskAccept s (fun u => ∃ m, HubStores { s' with sched := { s'.sched with
                tasks := s.sched.tasks.filter (fun t => t.handle != h) ++
                  [{ handle := h, desc := d, queue := e.sub.queue, eff := d.prio, accepted := s.cycle }]
                nextHandle := if (h + 1) % 2 ^ 32 = 0 then 1 else (h + 1) % 2 ^ 32 } } m e.sub.asid e.sub.addr.toNat 4 h ∧
            HubStores m u d.asid d.complVa 16 (wordOf 1 0 h 0)))) ∧
    (∀ (t : Task) (rest : List Task), s.sched.tasks = t :: rest → t.state = .queued → NoEdges t.desc → t.desc.gx * t.desc.gy * t.desc.gz ≠ 0 →
      Completes .taskReady s { s with sched := withTask s t.handle (fun t => { t with state := .ready, ageFrom := some s.cycle }) } t.desc
        (wordOf 2 0 t.handle 0)) ∧
    ∀ (t : Task) (c : ComingCancel) (before after : List ComingCancel), s.sched.tasks.find? (fun x => x.handle == t.handle) = some t →
      t.state = .queued → c.handle = t.handle → c.asid = t.desc.asid → s.sched.cancels = before ++ c :: after → cancelDue s c = true →
      (∀ x, x ∈ before → ¬ (x.handle = c.handle ∧ x.asid = c.asid ∧ cancelDue s x = true)) →
      (∀ k g, s.gang k = some g → g.info.handle ≠ t.handle) →
      Completes (.taskCancel t.handle t.desc.asid) s
        { cancelled s t with sched := { (cancelled s t).sched with cancels := before ++ after } }
        t.desc (wordOf 5 0 t.handle 0)

/-- TASK_COMPLETE, AGING_EXPIRY, PREEMPTION_REQUEST, SQUAD_PLACE, SQUAD_RESUME and AUTO_COMMIT complete (R374, R384, R385, R387-R389): a
task whose squads have completed has its dies' dirty lines written back, and is DONE once all have arrived; one that has waited longer than CR_AGE rises by one; a victim's gangs are asked to stop; a squad
takes its cores and starts as R388 counts, or its task fails with 0x31 (before its images are read, which is the model's choice, log
entry 31); the agent commits a page and resumes its gang, whose engines are not fenced. A later placement loads the images again (R75). What resuming does with an engine
that has been fenced, and when the agent's turn comes, are the model's (log 34, 49). -/
def Obligations.Squads : Prop :=
  ∀ s : State, Memory.wf s.mem = true →
    (∀ (t : Task) (rest : List Task), s.sched.tasks = t :: rest → t.state = .running → t.desc.gx * t.desc.gy * t.desc.gz ≤ t.doneSquads →
      (t.finishDue = none → Answers .taskComplete s (fun u => u = { s with
          writeBacks := u.writeBacks, wbNext := s.wbNext + 1
          sched := withTask s t.handle (fun t => { t with finishDue := some s.wbNext }) } ∧ (∀ w, w ∈ s.writeBacks → w ∈ u.writeBacks) ∧
        ∀ d l, d < 8 → t.dies.getLsbD d = true → l ∈ s.dirtyLines d → ∃ w, w ∈ u.writeBacks ∧ w.die = d ∧ w.line = l ∧ w.event = s.wbNext)) ∧
      (∀ n, t.finishDue = some n → s.writtenBack n = true → Completes .taskComplete s { s with sched := { withTask s t.handle (fun t => { t with state := .done }) with
            recent := (t.handle :: s.sched.recent).take 4096
            notices := if t.desc.flags.testBit 3 = true ∨ t.queue < 32 then s.sched.notices ++ [t.handle] else s.sched.notices } }
        t.desc (wordOf 4 0 t.handle t.doneSquads))) ∧
    (∀ (t : Task) (rest : List Task) (c : Nat), s.sched.tasks = t :: rest → t.state = .ready ∨ t.state = .running →
      t.nextSquad < t.desc.gx * t.desc.gy * t.desc.gz → t.raised = false → t.ageFrom = some c → c + s.sched.age % 2 ^ 32 < s.cycle →
      exec .agingExpiry s = .next { s with sched := withTask s t.handle (fun t => { t with raised := true, eff := min 3 (t.eff + 1) }) }) ∧
    (∀ (h : Nat) (q : Squad), nextVictim s = some (h, q) → Answers .preemptionRequest s (fun u =>
      u = { s with cores := u.cores, sched := withTask s h (fun t => { t with squads := t.squads.map (fun r =>
        if r.num = q.num then { r with state := .stopping } else r) }) } ∧
      ∀ c, c < 72 → u.core c = { s.core c with gang := (s.gang c).map (fun g =>
        if g.info.handle = h ∧ g.info.squad = q.num then { g with preemptReq := true } else g) })) ∧
    (∀ (t t1 : Task) (cores : List Nat), squadDue s = some (t, some cores) → t.loaded = true → t.state = .running → Reloads s t t1 → ∃ t' : Task,
      Placed s t1 t' { num := t.nextSquad } cores (t.nextSquad + 1) ∧ t'.state = .running ∧
      exec .squadPlace s = .next { s with sched := { withTask s t.handle (fun _ => t') with placements := s.sched.placements + 1 } }) ∧
    (∀ (t t1 : Task) (cores : List Nat), squadDue s = some (t, some cores) → t.loaded = false → t.state = .ready →
      loadImages s t = (s, .ok t1) → t1 = { t with code := t1.code, dict := t1.dict, stencil := t1.stencil, ceilImage := t1.ceilImage, loaded := true } →
      ∃ t' : Task, Placed s t1 t' { num := t.nextSquad } cores (t.nextSquad + 1) ∧ t'.state = .running ∧
        Completes .squadPlace s { s with sched := { withTask s t.handle (fun _ => t') with placements := s.sched.placements + 1 } } t.desc
          (wordOf 3 0 t.handle 0)) ∧
    (∀ t : Task, squadDue s = some (t, none) → t.state = .ready →
      Completes .squadPlace s { s with sched := withTask s t.handle (fun t => { t with state := .failed }) } t.desc (wordOf 6 0x31 t.handle t.desc.ngang)) ∧
    (∀ (t t1 : Task) (q : Squad) (cores : List Nat), strandedTask s = none → resumeDue s = some (t, q, cores) → t.state = .running →
      Reloads s t t1 → ∃ t' : Task, Placed s t1 t' q cores t.nextSquad ∧ t'.state = .running ∧
      exec .squadResume s = .next { s with sched := { withTask s t.handle (fun _ => t') with placements := s.sched.placements + 1 } }) ∧
    ∀ (c : Nat) (g : Gang) (r : FaultRec) (at_ ent f : Nat) (rest : List Nat) (x : XContext), agentDue s = some (c, g) → s.gang c = some g →
      g.halt = some r → s.leaf g.info.asid (r.vaddr.toNat % 2 ^ 48) = .ok (4, at_, ent) → ent.testBit 4 = true → ent.testBit 0 = false →
      kfind s.contexts g.info.asid = some x → x.pool64 = f :: rest → Uncached s (at_ / 128) → Uncached s ((at_ + 7) / 128) →
      let base (u : State) : State := { s with cores := u.cores, contexts := kput s.contexts g.info.asid { x with pool64 := rest }
                                               sched := { s.sched with agentFree := s.cycle + 1 } }
      Answers .autoCommit s (fun u => HubWrote (base u) u ∧ (∀ k, k ≠ c → u.core k = s.core k) ∧
        ((s.core c).fenced = false → g.live &&& (s.core c).fencedEngines = 0 → ∃ h, u.gang c = some h ∧ Resumed s g h) ∧
        (g.info.saveBase = 0 → u = { base u with mem := u.mem, homeLines := u.homeLines } ∧ Stored s.homeByte u.homeByte at_ 8 (ent % 256 + 1 + f)))

end

namespace Sys2Proof.Claims
open Sys2Proof.Machine

/-- The containment log with one record more; the oldest of 64 goes (R411). -/
def logged (s : State) (level cause unit addr : Nat) : List LogRec :=
  let l := s.hub.log ++ [{ level, cause, unit, count := 1, cycle := s.cycle, addr }]
  l.drop (l.length - 64)

/-- A gang that begins to halt in a half of its block, unless it has stopped already. -/
def stricken (g : Gang) (spare : Bool) (code : GFault) (slot : Nat) (m : Mask) (va : Word) : Gang :=
  if g.st = .running ∨ g.st = .exiting then
    { g with st := .faulting, haltSpare := spare, raised := []
             halt := some { code, rank := 0, slot, queue := 0xFF, engmask := m, detail := 0, vaddr := va, lanes := 0 } }
  else g

/-- A gang that an uncorrectable word of an engine halts (R265, R405): one that halts or has halted for another cause takes POISON in its
place, but for one whose halt is a POISON of its X slot (the model's reading, log 47). -/
def poisoned (g : Gang) (spare : Bool) (slot : Nat) (m : Mask) (va : Word) : Gang :=
  if (g.st = .faulting ∨ g.st = .halted) ∧ ¬ (∃ r, g.halt = some r ∧ r.code = .poison ∧ r.slot = 8) then
    stricken { g with st := .running } spare .poison slot m va
  else stricken g spare .poison slot m va

/-- HW_FENCE for the live engines of a set. -/
def fenced (g : Gang) (m : Mask) : Gang := stricken g false .hwFence 14 (m &&& g.live) 0

/-- The spare drives engine k (R150). -/
def spareDrives (g : Gang) (k : Nat) : Bool := g.split && g.splitEngines.getLsbD k

/-- An array operation in flight (R250): an MMA, MMAS or MMAR. -/
def arrayOp (x : XOp) : Bool := x.load.isNone && decide (x.opcode ≤ 3)

/-- The address that VADDR shows for an uncorrectable word of an X-slot read (R265). -/
def wordAddress : XWord → Word
  | .ceiling off => BitVec.ofNat 64 (2 ^ 62 + off % 2 ^ 22)
  | .scratchpad off => BitVec.ofNat 64 (2 ^ 60 + off % 2 ^ 22)
  | .latch => 0

/-- The image that has been written into the inactive slot. -/
def slotBytes (h : Hub) : List Byte := (List.range (h.imageLen.getD 0)).map (fun i => (kfind h.image i).getD 0)

/-- A connection whose numbering begins. -/
def newConn (r : Remote) : Conn := { remote := r, next := 0, held := [], sendSeq := 0, unacked := [], ackOwed := none }

/-- The pools of every context emptied. -/
def noFrames (s : State) : List (Nat × XContext) := s.contexts.map (fun c => (c.1, { c.2 with pool64 := [], pool2m := [] }))

/-- The package after a mailbox has answered. -/
def replied (s : State) (status : Nat) (reply : List Byte) : State := { s with hub := { s.hub with replies := (status, reply) :: s.hub.replies } }

/-- exec answers a message with a status and a reply, the package otherwise becoming base. -/
def Replies (e : Instr) (s base : State) (status : Nat) (reply : List Byte) : Prop := exec e s = .next (replied base status reply)

/-- A field of a list of bytes: n of them from an offset. -/
def fieldAtOf (b : List Byte) (off n : Nat) : Nat := leOf (fun i => b.getD i 0) off n

/-- The far end that R412 lets a context or connection name. -/
def RemoteOk (r : Remote) : Prop := r.mac < 2 ^ 48 ∧ r.port < 4 ∧ r.encap < 3 ∧ (r.ip < if r.encap = 2 then 2 ^ 128 else 2 ^ 32) ∧ r.udpPort < 65536

/-- What the loss of M-die d makes of lane l of a commit that holds locks: a lane with a sector there that has no cause yet is doomed with
cause 3, and every other lane is as it was (R406). -/
def LosesLane (c : Commit) (d l : Nat) (c' : Commit) : Prop :=
  let there (pa : Nat) : Prop := sliceOf pa / 16 = d
  let hit : Prop := c.causes.length ≤ l ∧ c.log.members.getLsbD l = true ∧ c.log.doomed.getLsbD l = false ∧
    ((∃ r pa, r ∈ c.log.reads ∧ r.lane = l ∧ r.pa = some pa ∧ there pa) ∨ ∃ w, w ∈ c.writes ∧ w.1.lane = l ∧ there w.2)
  (hit → c'.log.doomed.getLsbD l = true ∧ (kfind c.log.causes l = none → kfind c'.log.causes l = some 3)) ∧
  (¬ hit → c'.log.doomed.getLsbD l = c.log.doomed.getLsbD l ∧ kfind c'.log.causes l = kfind c.log.causes l)

end Sys2Proof.Claims

section
open Sys2Proof Sys2Proof.Machine Sys2Proof.Claims

/-- POWER_GOOD, FINISH, POWER_GOOD_WITHDRAWN, THERMAL_TRIP, HUB_FAILURE, ECC_CORRECTION, UNCORRECTABLE_ERROR and PATROL_SCRUB complete
(R399, R404-R406, R409, R411): the stages and BOOTSTAT, the fences and memory that Finish leaves, what a trip removes, and what an
error records, poisons, delays and halts. Rows that an engine has lost past its minimum stay lost for the life of the package (R19). Of the model's reading are what power good
brings up (log 57), what Finish reports and leaves in memory (log 40), which array a correction delays (log 17), and what an error of a word
spoils and which halt it replaces (log 47). -/
def Obligations.StagesAndErrors : Prop :=
  ∀ s : State, s.cores.length = 72 →
    let logs (l : List LogRec) : State := { s with hub := { s.hub with log := l } }
    (s.stage = .off → Answers .powerGood s (fun u => u = { s with stage := .primer, hub := u.hub } ∧ u.hub.boot = 2 ∧
      u.hub.portsUp = [true, false, false, false] ∧ (∃ r, u.hub.conns = [(64, newConn r)]) ∧ u.hub.imageNext = false ∧
      (s.hub.imageNext = false → u.hub.svn = s.hub.svn ∧ u.hub.fusedSvn = s.hub.fusedSvn ∧ u.hub.active = s.hub.active) ∧
      (s.hub.imageNext = true → u.hub.active = some (slotBytes s.hub) ∧ u.hub.svn = Config.imageSvn ((slotBytes s.hub).take 4096) ∧
        u.hub.fusedSvn = u.hub.svn ∧ u.hub.imageLen = none))) ∧
    (∀ r : FinishReport, s.stage = .primer →
      let lost := (∀ d, d < 8 → d ∈ r.badCdies ∨ s.fenceBit (1352 + d) = true) ∨ ∀ d, d < 4 → d ∈ r.badMdies ∨ s.fenceBit (1360 + d) = true
      Answers (.finish r) s (fun u =>
        (lost → u.stage = .failed ∧ u.hub.boot = 4 ∧ u.hub.bootStep = r.lastStep ∧ u.mem = s.mem) ∧
        (¬ lost → u.stage = .up ∧ u.hub.boot = 3 ∧ u.mem = [] ∧ u.poison = [] ∧ u.dieCaches = List.replicate 8 [] ∧ u.sched.age = 14000000) ∧
        (∀ c, c < 72 → (u.gang c = s.gang c ∧ (u.core c).spareFailed = r.badSpares.contains c) ∧
          ((u.core c).fenced = true ↔ (s.core c).fenced = true ∨ c ∈ r.badCores ∨ c / 9 ∈ r.badCdies ∨ ∀ e, e < 16 → (u.core c).capOf e = 0)) ∧
        (∀ c e, c < 72 → e < 16 → (s.core c).fencedEngines.getLsbD e = false →
          let before := sget 0 (s.core c).lostRows e
          let good := 64 - (kfind r.lostRows (16 * c + e)).getD 0
          (u.core c).capOf e = if good < 48 ∨ 16 < before then 0 else good / 4 * 4) ∧
        (sparseWf 0 s.hub.fences = true → ∀ p, 0 < p → p < 4 → ¬ lost →
          (u.hub.portsUp.getD p false = true ↔ p ∉ r.badPorts ∧ s.fenceBit (1364 + p) = false)) ∧
        (sparseWf 0 s.hub.fences = true → ∀ n, n < 128 → (u.fenceBit (1224 + n) = true ↔ s.fenceBit (1224 + n) = true ∨ n ∈ r.badChannels)) ∧
        u.sched.tasks = s.sched.tasks)) ∧
    exec .powerGoodWithdrawn s = .next { State.reset with
      free := s.free, inputs := s.inputs, cores := s.cores.map (fun k => { lostRows := k.lostRows })
      hub := { State.reset.hub with svn := s.hub.svn, fusedSvn := s.hub.fusedSvn, active := s.hub.active, imageNext := s.hub.imageNext
                                    image := if s.hub.imageNext then s.hub.image else []
                                    imageLen := if s.hub.imageNext then s.hub.imageLen else none } } ∧
    (s.stage = .primer ∨ s.stage = .up ∨ s.stage = .failed → Answers .thermalTrip s (fun u => u.stage = .tripped ∧
      (∀ c, u.gang c = none) ∧ ∀ t, t ∈ u.sched.tasks → ∃ v, v ∈ s.sched.tasks ∧ v.handle = t.handle ∧
        (t.state = v.state ∧ (v.state = .done ∨ v.state = .cancelled ∨ v.state = .failed) ∨ t.state = .failed))) ∧
    (s.stage = .primer ∨ s.stage = .up ∨ s.stage = .failed → (∀ t, t ∈ s.sched.tasks → t.state = .done ∨ t.state = .cancelled ∨ t.state = .failed) →
      exec .thermalTrip s = .next { s with
        stage := .tripped, cores := s.cores.map (fun k => { k with gang := none, tc := [], tcCp0 := [], tcCp1 := [] })
        dieCaches := List.replicate 8 [], dieTc := List.replicate 8 [], transit := [], writeBacks := [], signals := [], invs := []
        framesBack := [], ringEvents := [], coll := [], commits := [], lock := {}, hubLater := []
        sched := { s.sched with queues := List.replicate 64 [], coming := [], cancels := [] }
        hub := { s.hub with log := logged s 8 9 0 0, portsUp := [s.hub.portsUp.getD 0 false, false, false, false] } }) ∧
    exec .hubFailure s = .next { s with stage := .stopped } ∧ exec .patrolScrub s = .next s ∧
    (∀ die pa, ((∀ r, r ∈ s.hub.log → ¬ (r.level = 0 ∧ r.unit = die)) →
        exec (.eccCorrection die pa none) s = .next (logs (logged s 0 6 die pa))) ∧
      (∀ r before after, s.hub.log = before ++ r :: after → r.level = 0 → r.unit = die → (∀ x, x ∈ after → ¬ (x.level = 0 ∧ x.unit = die)) →
        exec (.eccCorrection die pa none) s =
          .next (logs (before ++ { r with count := min (r.count + 1) (2 ^ 32 - 1) } :: after))) ∧
      ∀ core engine n g, (∀ r, r ∈ s.hub.log → ¬ (r.level = 0 ∧ r.unit = die)) → s.gang core = some g → engine < 16 →
        (n = 0 ∨ (g.eng engine).xops.any arrayOp = false →
          exec (.eccCorrection die pa (some (core, engine, n))) s = .next (logs (logged s 0 6 die pa))) ∧
        (n ≠ 0 → (g.eng engine).xops.any arrayOp = true → ∃ busy, exec (.eccCorrection die pa (some (core, engine, n))) s =
          .next ((logs (logged s 0 6 die pa)).putGang core ((g.modEng engine (fun en => { en with
            xops := en.xops.map (fun x => if arrayOp x then { x with due := x.due + n } else x)
            arrayFree := max en.arrayFree s.cycle + n, busy })).modSeq (spareDrives g engine) (fun q => { q with eccLate := some s.cycle }))))) ∧
    (∀ die pa, sparseWf 0 s.poison = true → Answers (.uncorrectableError (.memory die pa)) s (fun u =>
      u = { logs (logged s 9 7 die pa) with poison := u.poison } ∧ ∀ k, sget 0 u.poison k = if k = pa / 32 then 1 else sget 0 s.poison k)) ∧
    (∀ die core engine g, s.gang core = some g → engine < 16 →
      exec (.uncorrectableError (.register die core engine)) s =
        .next ((logs (logged s 9 7 die 0)).putGang core (poisoned g (spareDrives g engine) 14 (1#16 <<< engine) 0))) ∧
    (∀ die core engine (ceiling : Bool) off g, s.gang core = some g → engine < 16 →
      exec (.uncorrectableError (.sram die core engine ceiling off)) s = .next ((logs (logged s 9 7 die 0)).putGang core (g.modEng engine (fun en =>
        { en with poison := sput 0 en.poison (off / 32 + if ceiling then 2 ^ 20 else 0) 1 })))) ∧
    ∀ die core engine dst latch src g, s.gang core = some g → engine < 16 → ∃ (c l : Engine → RegFile 2048) (x : Engine → List XOp) (w : Engine → List ELand),
      exec (.uncorrectableError (.xslot die core engine dst latch src)) s = .next ((logs (logged s 9 7 die 0)).putGang core
          (poisoned (g.modEng engine (fun en => { en with c := c en, l := l en, xops := x en, lands := w en })) (spareDrives g engine)
            8 (1#16 <<< engine) (wordAddress src))) ∧
        ∀ en : Engine, (if latch = true then c en = en.c ∧ w en = en.lands else l en = en.l) ∧ (x en).map (·.due) = en.xops.map (·.due)

/-- ENGINE_FENCE, CORE_FENCE, CHANNEL_FENCE, CDIE_FENCE, MDIE_FENCE and PORT_FENCE complete (R19, R22, R406, R407, R411): each adds its
record; gangs on fenced engines and cores halt with HW_FENCE; memory behind a fenced channel or M-die and a lost die's dirty lines read as
poisoned, a lane of a commit there gets cause 3, the pools are empty, and connections on the port are gone. That a core's last engine gives
one record, and which cores and stores a lost die takes with it, are the model's (log 46, 49). -/
def Obligations.Fences : Prop :=
  ∀ (s : State) (cause : Nat), s.cores.length = 72 →
    let logs (l : List LogRec) : State := { s with hub := { s.hub with log := l } }
    (∀ c e, c < 72 → e < 16 → (∃ f, f < 16 ∧ f ≠ e ∧ (s.core c).capOf f ≠ 0) → exec (.engineFence c e cause) s = .next
      ((logs (logged s 1 cause (16 * c + e) 0)).modCore c (fun k => { k with
        fencedEngines := k.fencedEngines ||| (1#16 <<< e)
        gang := k.gang.map (fun g => if g.live.getLsbD e = true then fenced g (1#16 <<< e) else g) }))) ∧
    (∀ c, c < 72 → exec (.coreFence c cause) s = .next ((logs (logged s 2 cause c 0)).modCore c (fun k =>
      { k with fenced := true, gang := k.gang.map (fun g => fenced g 0xFFFF) }))) ∧
    (∀ n, n < 128 → exec (.channelFence n cause) s = .next { s with
      contexts := noFrames s, hub := { s.hub with log := logged s 3 cause n 0, fences := sput 0 s.hub.fences (1224 + n) 1 } }) ∧
    (∀ d, d < 4 → Answers (.mdieFence d cause) s (fun u =>
      u = { s with commits := u.commits, contexts := noFrames s
                   hub := { s.hub with log := logged s 5 cause d 0, fences := sput 0 s.hub.fences (1360 + d) 1 } } ∧
      u.commits.length = s.commits.length ∧ ∀ (i : Nat) (c c' : Commit), s.commits[i]? = some c → u.commits[i]? = some c' →
        c' = { c with log := { c.log with doomed := c'.log.doomed, causes := c'.log.causes } } ∧ ∀ l, l < 32 → LosesLane c d l c')) ∧
    (∀ d, d < 8 → sparseWf 0 s.poison = true → Answers (.cdieFence d cause) s (fun u =>
      u = { s with
        cores := u.cores, dieCaches := modAt s.dieCaches d (fun _ => []), transit := u.transit, poison := u.poison
        writeBacks := s.writeBacks.filter (fun w => w.die != d)
        hub := { s.hub with log := logged s 4 cause d 0, fences := sput 0 s.hub.fences (1352 + d) 1 } } ∧
      (∀ c, c < 72 → u.core c = if c / 9 = d then
        { s.core c with fenced := true, gang := (s.gang c).map (fun g => fenced g 0xFFFF) } else s.core c) ∧
      (∀ l j, l ∈ s.dirtyLines d → j < 4 → sget 0 u.poison (4 * l + j) = 1) ∧ (∀ k, sget 0 s.poison k = 1 → sget 0 u.poison k = 1) ∧
      ∀ t, t ∈ u.transit ↔ t ∈ s.transit ∧ t.target ≠ .die d ∧ ∀ c e, t.target = .scratch c e → c / 9 ≠ d)) ∧
    ∀ p, p < 4 → keysRise s.hub.conns = true → Answers (.portFence p) s (fun u =>
      u = { s with hub := { s.hub with portsUp := modAt s.hub.portsUp p (fun _ => false), fences := sput 0 s.hub.fences (1364 + p) 1
                                       conns := u.hub.conns, log := u.hub.log } } ∧
      ∀ x, x ∈ u.hub.conns ↔ x ∈ s.hub.conns ∧ (x.1 = 64 ∨ x.2.remote.port ≠ p))

end

namespace Sys2Proof.Claims
open Sys2Proof.Machine

/-- The messages of types 1 to 3. -/
def Installs (e : Instr) : Prop :=
  (∃ a r, e = .installContext a r) ∨ (∃ a, e = .removeContext a) ∨ (∃ a b l, e = .addFrames a b l) ∨ (∃ a b l, e = .removeFrames a b l) ∨
    (∃ r l, e = .installRingContext r l) ∨ ∃ p r l, e = .installPeerContext p r l

/-- A pool of a context, of 2 MiB or of 64 KiB frames. -/
def poolIn (x : XContext) (big : Bool) : List Nat := if big then x.pool2m else x.pool64
def withPool (x : XContext) (big : Bool) (l : List Nat) : XContext := if big then { x with pool2m := l } else { x with pool64 := l }
def frameBytes (big : Bool) : Nat := if big then 2 ^ 21 else 2 ^ 16

/-- FREE of both pools as a reply. -/
def FreeReply (b : List Byte) (x : XContext) : Prop :=
  b.length = 8 ∧ fieldAtOf b 0 4 = x.pool64.length % 2 ^ 32 ∧ fieldAtOf b 4 4 = x.pool2m.length % 2 ^ 32

/-- A frame that may be added (R412). -/
def FrameOk (s : State) (big : Bool) (f : Nat) : Prop :=
  f % frameBytes big = 0 ∧ f < 2 ^ 40 ∧ (∀ c, c ∈ s.contexts → f ∉ c.2.pool64 ∧ f ∉ c.2.pool2m) ∧ s.poisoned f (frameBytes big) = false

/-- The address lies in one of the frames. -/
def InFrames (big : Bool) (frames : List Nat) (pa : Nat) : Prop := ∃ f, f ∈ frames ∧ f ≤ pa ∧ pa < f + frameBytes big

/-- A ring record keeps the ranges of R347, and its counters agree. -/
def RecordOk (s : State) (b : List Byte) : Prop :=
  let at_ := fieldAtOf b
  b.length = 64 ∧ at_ 0 4 < 16 ∧ at_ 0 4 % 2 = 1 ∧ at_ 0 4 / 4 < 3 ∧ at_ 4 2 ≠ 0 ∧ (∃ x, kfind s.contexts (at_ 4 2) = some x) ∧ at_ 6 2 = 0 ∧
    at_ 8 8 % 4096 = 0 ∧ at_ 8 8 < 2 ^ 48 ∧ (∃ k, 4 ≤ k ∧ k ≤ 16 ∧ at_ 0x10 4 = 2 ^ k) ∧ ((at_ 0 4).testBit 1 = true ∨ at_ 0x14 4 = 0) ∧
    at_ 0x18 8 % 65536 = 0 ∧ at_ 0x18 8 < 2 ^ 48 ∧ at_ 0x20 4 < 2 ^ 31 ∧ at_ 0x24 4 < 2 ^ 31 ∧ at_ 0x2C 4 ≤ at_ 0x14 4 ∧
    at_ 0x28 4 ≤ at_ 0x10 4 + 65536 / (32 * 2 ^ (at_ 0 4 / 4 % 4)) * at_ 0x2C 4 ∧ (at_ 0x20 4 + at_ 0x28 4) % 2 ^ 31 = at_ 0x24 4

/-- The ring that a record installs; its records stand in the primary slots of their sequence numbers, those past SLOTS in the extension. -/
def ringFrom (b : List Byte) : Ring :=
  let at_ := fieldAtOf b
  { elastic := (at_ 0 4).testBit 1, recsz := 32 * 2 ^ (at_ 0 4 / 4 % 4), asid := at_ 4 2, base := at_ 8 8, slots := at_ 0x10 4
    extlim := at_ 0x14 4, extva := at_ 0x18 8, head := at_ 0x20 4, tail := at_ 0x24 4, count := at_ 0x28 4
    extpages := at_ 0x2C 4, pages := List.range (at_ 0x2C 4), watch := none
    places := (List.range (at_ 0x28 4)).map (fun i => if i < at_ 0x10 4 then (false, (at_ 0x20 4 + i) % at_ 0x10 4) else (true, i - at_ 0x10 4)) }

/-- Half a status block, laid out as R48 says, at an offset. -/
def HalfAt (b : List Byte) (o : Nat) (st : Status) : Prop :=
  let at_ := fun k n => fieldAtOf b (o + k) n
  at_ 0 4 = st.state % 2 ^ 32 ∧ at_ 4 2 = st.fault % 2 ^ 16 ∧ at_ 6 2 = st.engmask.toNat ∧ at_ 8 4 = st.pc % 2 ^ 32 ∧
    at_ 0x0C 4 = st.rppc % 2 ^ 32 ∧ at_ 0x10 1 = st.slot % 256 ∧ at_ 0x11 1 = st.queue % 256 ∧ at_ 0x12 1 = st.traps % 256 ∧ at_ 0x13 1 = 0 ∧
    at_ 0x14 4 = st.detail % 2 ^ 32 ∧ at_ 0x18 8 = st.vaddr.toNat ∧ at_ 0x20 4 = st.lanes.toNat ∧ at_ 0x24 4 = 0 ∧
    at_ 0x28 8 = st.cycle % 2 ^ 64 ∧ at_ 0x30 16 = 0

/-- Bit k of FENCEMAP (R397). -/
def Fenced (s : State) (k : Nat) : Prop :=
  if k < 1152 then (s.core (k / 16)).capOf (k % 16) = 0 else if k < 1224 then (s.core (k - 1152)).fenced = true else s.fenceBit k = true

end Sys2Proof.Claims

section
open Sys2Proof Sys2Proof.Machine Sys2Proof.Claims

/-- INSTALL_CONTEXT, REMOVE_CONTEXT, ADD_FRAMES, REMOVE_FRAMES, INSTALL_RING_CONTEXT, INSTALL_PEER_CONTEXT, OPEN_CONNECTION,
CLOSE_CONNECTION and HUB_AGE_WRITE complete (R337, R347, R359, R386, R395, R400, R412): what each installs or removes and what it
replies; added frames hold zeros; a context in use is not removed; and before Finish completes types 1 to 3 are answered with status 4. What
becomes of a message with one bad frame, which ring records are well formed, and that all 64 bits of AGE are kept, are the model's
readings (log entries 42, 43 and 74). -/
def Obligations.ContextMessages : Prop :=
  ∀ s : State,
    (∀ v, exec (.hubAgeWrite v) s = .next { s with sched := { s.sched with age := v.toNat } }) ∧
    (∀ e, Installs e → s.stage = .primer ∨ s.stage = .failed ∨ s.stage = .tripped → Replies e s s 4 []) ∧
    (s.stage = .up →
      (∀ asid root, 0 < asid → asid < 65536 → root % 4096 = 0 → root < 2 ^ 40 →
        (kfind s.contexts asid = none → Replies (.installContext asid root) s
          { s with contexts := kput s.contexts asid { root, pool64 := [], pool2m := [] } } 0 (List.replicate 8 0)) ∧
        ∀ x, kfind s.contexts asid = some x → Replies (.installContext asid root) s s 5 []) ∧
      (∀ asid x, kfind s.contexts asid = some x → keysRise s.contexts = true →
        let used := (∃ t, t ∈ s.sched.tasks ∧ t.desc.asid = asid ∧ t.state ≠ .done ∧ t.state ≠ .cancelled ∧ t.state ≠ .failed) ∨
          ∃ r, r ∈ s.rings ∧ r.2.asid = asid
        (¬ used → Replies (.removeContext asid) s { s with contexts := kdel s.contexts asid } 0 (List.replicate 8 0)) ∧
        (used → Replies (.removeContext asid) s s 5 [])) ∧
      (∀ asid big frames x, kfind s.contexts asid = some x → frames.length ≤ 509 → frames.Nodup →
        ((∀ f, f ∈ frames → FrameOk s big f) → Answers (.addFrames asid big frames) s (fun u =>
          let x' := withPool x big (poolIn x big ++ frames)
          (∃ b, FreeReply b x' ∧ u = replied { s with mem := u.mem, dieCaches := u.dieCaches, contexts := kput s.contexts asid x' } 0 b) ∧
          (∀ pa, (InFrames big frames pa → u.homeByte pa = 0) ∧ (¬ InFrames big frames pa → u.homeByte pa = s.homeByte pa)) ∧
          ∀ d l, (InFrames big frames (128 * l) → u.line d l = {}) ∧ (¬ InFrames big frames (128 * l) → u.line d l = s.line d l))) ∧
        ((∃ f, f ∈ frames ∧ ¬ FrameOk s big f) → Replies (.addFrames asid big frames) s s 5 []) ∧
        ((∀ f, f ∈ frames → f ∈ poolIn x big) → ∃ b, let x' := withPool x big ((poolIn x big).filter (fun f => !frames.contains f))
          FreeReply b x' ∧ Replies (.removeFrames asid big frames) s { s with contexts := kput s.contexts asid x' } 0 b) ∧
        ((∃ f, f ∈ frames ∧ f ∉ poolIn x big) → Replies (.removeFrames asid big frames) s s 5 [])) ∧
      (∀ id b, id < 256 → kfind s.rings id = none → RecordOk s b →
        Replies (.installRingContext id b) s { s with rings := kput s.rings id (ringFrom b) } 0 []) ∧
      (∀ id b, id < 256 → b.length = 64 → fieldAtOf b 0 4 % 2 = 0 →
        (∀ r, kfind s.rings id = some r → r.pages = [] → fieldAtOf b 0 4 < 12 → fieldAtOf b 6 2 = 0 →
          Replies (.installRingContext id b) s { s with rings := kdel s.rings id } 0 []) ∧
        (12 ≤ fieldAtOf b 0 4 ∨ fieldAtOf b 6 2 ≠ 0 → Replies (.installRingContext id b) s s 5 [])) ∧
      (∀ peer prank (packages : List Remote), peer < 64 → packages.length ≤ 127 → prank < packages.length →
        (∀ r, r ∈ packages → RemoteOk r) → Answers (.installPeerContext peer prank packages) s (fun u =>
          u = replied { s with peers := kput s.peers peer { prank, packages }, hub := { s.hub with conns := u.hub.conns } } 0 [] ∧
          ∀ k, kfind u.hub.conns k = if k % 256 = peer then
              (if k / 256 = prank then none else (packages[k / 256]?).map newConn) else kfind s.hub.conns k)) ∧
      ∀ peer prank, peer < 64 → Replies (.installPeerContext peer prank []) s
        { s with peers := kdel s.peers peer, hub := { s.hub with conns := s.hub.conns.filter (fun c => c.1 % 256 != peer) } } 0 []) ∧
    (s.stage ≠ .off → s.stage ≠ .stopped →
      (∀ conn r, 65 ≤ conn → conn < 256 → RemoteOk r →
        Replies (.openConnection conn r) s { s with hub := { s.hub with conns := kput s.hub.conns conn (newConn r) } } 0 []) ∧
      (∀ conn, 65 ≤ conn → conn < 256 → Replies (.closeConnection conn) s { s with hub := { s.hub with conns := kdel s.hub.conns conn } } 0 []) ∧
      Replies (.closeConnection 64) s s 5 [])

/-- READ_SAVE_AREA, RESUME_GANG, CANCEL_TASK_MESSAGE, FIRMWARE_BEGIN, FIRMWARE_CHUNK, FIRMWARE_COMMIT, GET_CERTIFICATE and
ATTESTATION_REPORT complete (R45, R48, R382, R391, R402-R404, R412): the status block of a gang that stands and the bytes of its save area, also of a gang that its
squad has left, the gang that goes on, the task that ends, the image in the inactive slot, and the report over the nonce, whose digests are those of log
entry 73's SHAKE256, with no value of it stated, and whose signature verifies; until the signer has drawn such a one the report is not
given. The last is the model's choice (log 60), and so are the fields and the replacing of a firmware image (log 41), which POISON is not
resumed (log 47), what becomes of a resumed gang with a fenced engine (log 49), and how a signature is checked (log 83). -/
def Obligations.AgentMessages : Prop :=
  ∀ s : State, s.stage ≠ .off → s.stage ≠ .stopped →
    (s.stage ≠ .tripped → ∀ h q p,
      (∀ c g, watcherCore s (h, q, p) = some c → s.gang c = some g → g.st = .halted ∨ g.st = .preempted ∨ g.st = .exited →
        ∃ block : List Byte, block.length = 128 ∧ HalfAt block 0 g.prim.status ∧ HalfAt block 64 (if g.split = true then g.spare.status else {}) ∧
          ∀ off n, 0 < n → off + n ≤ 128 → Replies (.readSaveArea h q p off n) s s 0 ((block.drop off).take n)) ∧
      (∀ i off n pa, watcherCore s (h, q, p) = none → savedGang s (h, q, p) = none → goneGang s (h, q, p) = some i →
        i.saveBase ≠ 0 → 0 < n → off + n ≤ 4096 → HubMaps s i.asid (i.saveBase + off) n pa →
        (s.poisoned pa n = false → Replies (.readSaveArea h q p off n) s s 0 ((List.range n).map (fun k => s.homeByte (pa + k)))) ∧
        (s.poisoned pa n = true → Replies (.readSaveArea h q p off n) s s 2 [])) ∧
      (∀ g off n pa, (watcherCore s (h, q, p) = none ∧ savedGang s (h, q, p) = some g) ∨ (128 ≤ off ∧ ∃ c, watcherCore s (h, q, p) = some c ∧
            s.gang c = some g ∧ (g.st = .halted ∨ g.st = .preempted ∨ g.st = .exited)) →
        g.info.saveBase ≠ 0 → 0 < n → off + n ≤ 4096 → HubMaps s g.info.asid (g.info.saveBase + off) n pa →
        (s.poisoned pa n = false → Replies (.readSaveArea h q p off n) s s 0 ((List.range n).map (fun i => s.homeByte (pa + i)))) ∧
        (s.poisoned pa n = true → Replies (.readSaveArea h q p off n) s s 2 [])) ∧
      (∀ c g r, watcherCore s (h, q, p) = some c → s.gang c = some g → g.st = .halted → g.saved = false → g.halt = some r →
        (r.code = .poison → r.slot = 8 → Replies (.resumeGang h q p) s s 5 []) ∧
        (¬ (r.code = .poison ∧ r.slot = 8) → Answers (.resumeGang h q p) s (fun u =>
          let base := replied { s with cores := u.cores } 0 []
          HubWrote base u ∧ (g.info.saveBase = 0 → u = base) ∧ (∀ k, k ≠ c → u.core k = s.core k) ∧
          ∃ g', u.gang c = some g' ∧
            ((s.core c).fenced = false → g.live &&& (s.core c).fencedEngines = 0 → Resumed s g g') ∧
            ((s.core c).fenced = true ∨ g.live &&& (s.core c).fencedEngines ≠ 0 → g'.st = .faulting ∧ ∃ f, g'.halt = some f ∧ f.code = .hwFence)))) ∧
      (watcherCore s (h, q, p) = none → Replies (.resumeGang h q p) s s 5 [])) ∧
    (s.stage ≠ .tripped → Memory.wf s.mem = true → ∀ t, s.sched.tasks.find? (fun x => x.handle == t.handle) = some t → t.state = .queued →
      t.desc.gx * t.desc.gy * t.desc.gz ≠ 0 → (∀ k g, s.gang k = some g → g.info.handle ≠ t.handle) →
      Completes (.cancelTaskMessage t.handle) s (replied (cancelled s t) 0 []) t.desc (wordOf 5 0 t.handle 0)) ∧
    (s.stage ≠ .tripped → ∀ h, s.sched.tasks.find? (fun x => x.handle == h) = none → Replies (.cancelTaskMessage h) s s 0 []) ∧
    (∀ n, Replies (.firmwareBegin n) s { s with hub := { s.hub with image := [], imageLen := some n, imageNext := false } } 0 []) ∧
    (∀ n off bs, s.hub.imageLen = some n →
      (off + bs.length ≤ n → s.hub.imageNext = false → Answers (.firmwareChunk off bs) s (fun u =>
        u = replied { s with hub := { s.hub with image := u.hub.image } } 0 [] ∧
        ∀ i, kfind u.hub.image i = if off ≤ i ∧ i < off + bs.length then bs[i - off]? else kfind s.hub.image i)) ∧
      (n < off + bs.length ∨ s.hub.imageNext = true → Replies (.firmwareChunk off bs) s s 5 [])) ∧
    (∀ n, s.hub.imageLen = some n → 4096 ≤ n → s.hub.image.length = n →
      let b := slotBytes s.hub
      let head := b.take 4096
      let good := (b.drop 4096).length = Config.imageBodyLen head ∧ shake256 64 (b.drop 4096) = bytesOf 64 (Config.imageBodyHash head) ∧
        shake256 64 (bytesOf 1793 (Config.imageKey head)) = bytesOf 64 Config.romKeyHash ∧
        falconVerify (bytesOf 1793 (Config.imageKey head)) (head.take 1024) (Config.imageSignature head) = true ∧ s.hub.fusedSvn ≤ Config.imageSvn head
      (good → Replies .firmwareCommit s { s with hub := { s.hub with imageNext := true } } 0 []) ∧
      (¬ good → Replies .firmwareCommit s s 5 [])) ∧
    Replies .getCertificate s s 0 (Config.certificate.take 4096) ∧
    ∀ nonce : List Byte, nonce.length = 32 → (signing s nonce = true → exec (.attestationReport nonce) s = .next s) ∧
      (signing s nonce = false → ∃ b : List Byte, Replies (.attestationReport nonce) s s 0 b ∧ b.length = 1882 ∧
      falconVerify (bytesOf 1793 Config.deviceKey) (b.take 0x258) ((b.drop 0x25A).take (fieldAtOf b 0x258 2)) = true ∧ (b.take 16).map (·.toNat) = "KOLATHK72ATTEST1".toList.map (·.toNat) ∧ (b.drop 16).take 32 = nonce ∧
      (b.drop 0x30).take 32 = shake256 32 (bytesOf 1793 Config.deviceKey) ∧
      (∀ i, i < 5 → (b.drop (0x58 + 64 * i)).take 64 = shake256 64 (s.measured i)) ∧ fieldAtOf b 0x50 8 = s.hub.svn % 2 ^ 64 ∧
      (∀ k, k < 1368 → ((b.getD (0x198 + k / 8) 0).getLsbD (k % 8) = true ↔ Fenced s k)) ∧ fieldAtOf b 0x258 2 ≤ 1280)

end

namespace Sys2Proof.Claims
open Sys2Proof.Machine

/-- A wire holds a frame: its header's fields, little-endian, at the offsets of R394, then the payload; what follows is padding. -/
def Spelled (w : Wire) (f : Frame) : Prop :=
  let at_ := fieldAtOf w.bytes
  w.port = f.port ∧ w.encap = f.encap ∧ w.mac = f.source ∧ 32 ≤ w.bytes.length ∧ at_ 0 1 = f.ver ∧ at_ 1 1 = f.op ∧ at_ 2 2 = f.conn ∧
    at_ 4 4 = f.seq ∧ at_ 8 4 = f.ackSeq ∧ at_ 0x0C 4 = f.sack.toNat ∧ at_ 0x10 2 = f.asid ∧ at_ 0x12 2 = f.len ∧ at_ 0x14 4 = f.arg.toNat ∧
    at_ 0x18 8 = f.addr.toNat ∧ (w.bytes.drop 32).take f.len = f.payload

/-- The wire that a frame leaves on: the same, with nothing behind its payload. -/
def Sent (f : Frame) (w : Wire) : Prop :=
  let at_ := fieldAtOf w.bytes
  w.port = f.port ∧ w.encap = f.encap ∧ w.mac = f.source ∧ w.bytes.length = 32 + f.payload.length ∧ w.bytes.drop 32 = f.payload ∧
    at_ 0 1 = f.ver % 2 ^ 8 ∧ at_ 1 1 = f.op % 2 ^ 8 ∧ at_ 2 2 = f.conn % 2 ^ 16 ∧ at_ 4 4 = f.seq % 2 ^ 32 ∧ at_ 8 4 = f.ackSeq % 2 ^ 32 ∧
    at_ 0x0C 4 = f.sack.toNat ∧ at_ 0x10 2 = f.asid % 2 ^ 16 ∧ at_ 0x12 2 = f.len % 2 ^ 16 ∧ at_ 0x14 4 = f.arg.toNat ∧ at_ 0x18 8 = f.addr.toNat

/-- The carrier towards a far end (R393), and the far end that a carrier names (R395). -/
def carrierTo (r : Remote) : Encap :=
  if r.encap = 0 then .ethernet 0x88B5 else .udp (decide (r.encap = 2)) r.ip 47620 r.udpPort false (decide (r.encap ≠ 2))
def FarOf (f : Frame) (r : Remote) : Prop :=
  r.mac = f.source ∧ r.port = f.port ∧ (∀ t, f.encap = .ethernet t → r.encap = 0) ∧
    ∀ v6 ip p q part df, f.encap = .udp v6 ip p q part df → r.encap = (if v6 = true then 2 else 1) ∧ r.ip = ip ∧ r.udpPort = p

/-- A frame in one of the forms of R393 and R394. -/
def Formed (f : Frame) : Prop :=
  (f.encap = .ethernet 0x88B5 ∨ ∃ v6 ip p df, f.encap = .udp v6 ip p 47620 false df) ∧ f.ver = 1 ∧
    (f.op = 0x7F ∨ (1 ≤ f.op % 128 ∧ f.op % 128 ≤ 5 ∧ f.op < 256)) ∧ f.len ≤ 4096 ∧ f.payload.length = f.len ∧ f.seq < 2 ^ 32

/-- The open connection that a frame belongs to; one of a peer context is the one to the package that sent it. -/
def Belongs (s : State) (f : Frame) (key : Nat) (c : Conn) : Prop :=
  kfind s.hub.conns key = some c ∧ ((64 ≤ f.conn ∧ f.conn < 256 ∧ key = f.conn) ∨
    (f.conn < 64 ∧ s.hub.conns.find? (fun x => x.1 % 256 == f.conn && x.2.remote.mac == f.source) = some (key, c)))

/-- A connection holds an operation; w is the first sequence number that has not been received (R395). -/
def HoldsSeq (c : Conn) (q : Nat) : Prop := ∃ f, f ∈ c.held ∧ f.seq = q
def Wanted (c : Conn) (w : Nat) : Prop :=
  ∃ k, k ≤ 64 ∧ w = (c.next + k) % 2 ^ 32 ∧ ¬ HoldsSeq c w ∧ ∀ i, i < k → HoldsSeq c ((c.next + i) % 2 ^ 32)

/-- How far a sequence number lies past another. -/
def past (a b : Nat) : Nat := (b + 2 ^ 32 - a % 2 ^ 32) % 2 ^ 32
/-- A sequence number is at or below ACKSEQ. -/
def acked (f : Frame) (t : TxFrame) : Bool := decide (past t.frame.seq f.ackSeq < 2 ^ 31)

/-- The package with the connections, outbox and nothing else of the hub changed. -/
def withLink (s : State) (conns : List (Nat × Conn)) (outbox : List Wire) : State := { s with hub := { s.hub with conns, outbox } }

/-- The connection once its next operation has been taken. -/
def taken (c : Conn) (h : Frame) : Conn := { c with next := (c.next + 1) % 2 ^ 32, held := c.held.erase h, lookFrom := none }
/-- The package once the connection of the step has taken it. -/
def takenFrom (s : State) (c : Conn) (h : Frame) : State :=
  { s with hub := { s.hub with conns := kput s.hub.conns s.ctx.id (taken c h) } }

/-- exec performs the operation at the head of a connection, the package becoming base, and answers it: the response carries its OP + 0x80,
its SEQ and connection, the status and the payload, acknowledges what has been received, and is kept until it is acknowledged. -/
def Performs (e : Instr) (s : State) (c : Conn) (h : Frame) (base : State) (status : Nat) (payload : List Byte) : Prop :=
  ∃ (g : Frame) (w : Wire), Sent g w ∧ (∃ r, (if s.ctx.id = 64 then FarOf h r else r = c.remote) ∧ g.encap = carrierTo r) ∧ (g.ver = 1 ∧ g.op = h.op + 0x80 ∧ g.conn = h.conn ∧ g.seq = h.seq ∧ g.arg = BitVec.ofNat 32 status ∧ g.len = payload.length ∧
      g.payload = payload ∧ g.source = (if s.ctx.id = 64 then h.source else c.remote.mac) ∧
      g.port = (if s.ctx.id = 64 then h.port else c.remote.port) ∧ (c.held = [h] → g.ackSeq = h.seq % 2 ^ 32 ∧ g.sack = 0)) ∧
    exec e s = .next (withLink base
      (kput base.hub.conns s.ctx.id { taken c h with ackOwed := none, unacked := c.unacked ++ [{ frame := g, sent := s.cycle, times := 1 }] })
      (base.hub.outbox ++ [w]))

/-- The 8 bytes at an offset of the hub space (R397, R410, R411). -/
def HubWord (s : State) (off v : Nat) : Prop :=
  (∃ i, i < 4 ∧ off = 8 * i ∧ v = fieldAtOf (shake256 32 (bytesOf 1793 Config.deviceKey)) (8 * i) 8) ∨ (off = 0x20 ∧ v = (s.hub.boot + 256 * s.hub.bootStep) % 2 ^ 64) ∨ (off = 0x28 ∧ v = s.hub.svn % 2 ^ 64) ∨ (off = 0x100 ∧ v = s.sched.age % 2 ^ 64) ∨
    (off = 0x140 ∧ v = s.sched.dropped % 2 ^ 64) ∨ (off = 0x150 ∧ v = s.sched.rejected % 2 ^ 64) ∨
    (off = 0x160 ∧ v = s.sched.preemptions % 2 ^ 64) ∨ (off = 0x170 ∧ v = s.sched.placements % 2 ^ 64) ∨
    (∃ i, i < 4 ∧ off = 0x148 + 16 * i ∧ v = 0) ∨
    (∃ i r, i < 64 ∧ s.hub.log[i]? = some r ∧
      ((off = 0x200 + 64 * i ∧ v = r.level % 256 + 2 ^ 8 * (r.cause % 256) + 2 ^ 16 * (r.unit % 2 ^ 16) + 2 ^ 32 * (r.count % 2 ^ 32)) ∨
        (off = 0x208 + 64 * i ∧ v = r.cycle % 2 ^ 64) ∨ (off = 0x210 + 64 * i ∧ v = r.addr % 2 ^ 64) ∨
        ∃ k, k < 5 ∧ off = 0x218 + 64 * i + 8 * k ∧ v = 0)) ∨
    ∃ i k, i < 64 ∧ s.hub.log.length ≤ i ∧ k < 8 ∧ off = 0x200 + 64 * i + 8 * k ∧ v = 0

/-- A far end at an offset, by the offsets of its fields in R412. -/
def FarAt (b : List Byte) (r : Remote) (mac port encap ip udp : Nat) : Prop :=
  fieldAtOf b mac 6 = r.mac ∧ fieldAtOf b port 1 = r.port ∧ fieldAtOf b encap 1 = r.encap ∧ fieldAtOf b ip 16 = r.ip ∧ fieldAtOf b udp 2 = r.udpPort

/-- The bytes of a message to mailbox 0 or 1, laid out as R412 says. -/
def Spells (mailbox : Nat) (b : List Byte) (e : Instr) : Prop :=
  let at_ := fieldAtOf b
  let type := fun t n => mailbox = 0 ∧ at_ 0 4 = t ∧ b.length = n
  let who := fun h q p => at_ 4 4 = h ∧ at_ 8 4 = q ∧ at_ 0x0C 1 = p ∧ at_ 0x0D 3 = 0
  let frames := fun op (big : Bool) a (l : List Nat) => type 1 (0x18 + 8 * l.length) ∧ l.length ≤ 509 ∧ a ≠ 0 ∧ at_ 4 1 = op ∧
    at_ 5 1 = big.toNat ∧ at_ 6 2 = a ∧ at_ 8 8 = 0 ∧ at_ 0x10 4 = l.length ∧ at_ 0x14 4 = 0 ∧ ∀ i, i < l.length → at_ (0x18 + 8 * i) 8 = l.getD i 0
  match e with
  | .installContext a r => type 1 0x18 ∧ a ≠ 0 ∧ at_ 4 1 = 0 ∧ at_ 5 1 = 0 ∧ at_ 6 2 = a ∧ at_ 8 8 = r ∧ at_ 0x10 8 = 0
  | .removeContext a => type 1 0x18 ∧ a ≠ 0 ∧ at_ 4 1 = 1 ∧ at_ 5 1 = 0 ∧ at_ 6 2 = a ∧ at_ 8 8 = 0 ∧ at_ 0x10 8 = 0
  | .addFrames a big l => frames 2 big a l
  | .removeFrames a big l => frames 3 big a l
  | .installRingContext id rec => type 2 0x48 ∧ at_ 4 1 = id ∧ at_ 5 3 = 0 ∧ b.drop 8 = rec
  | .installPeerContext p k l => type 3 (8 + 32 * l.length) ∧ l.length ≤ 127 ∧ at_ 4 1 = p ∧ at_ 5 1 = k ∧ at_ 6 2 = l.length ∧
      ∀ i r, l[i]? = some r → let o := 8 + 32 * i
        FarAt b r o (o + 6) (o + 7) (o + 8) (o + 24) ∧ at_ (o + 26) 6 = 0
  | .openConnection n r => type 4 0x30 ∧ at_ 4 2 = n ∧ at_ 6 1 = 1 ∧ FarAt b r 8 7 0x0E 0x10 0x20 ∧ RemoteOk r ∧ at_ 0x0F 1 = 0 ∧ at_ 0x22 14 = 0
  | .closeConnection n => type 4 0x30 ∧ at_ 4 2 = n ∧ at_ 6 1 = 0 ∧ (∃ r, FarAt b r 8 7 0x0E 0x10 0x20 ∧ RemoteOk r) ∧ at_ 0x0F 1 = 0 ∧ at_ 0x22 14 = 0
  | .readSaveArea h q p off n => type 5 0x18 ∧ who h q p ∧ at_ 0x10 4 = off ∧ at_ 0x14 4 = n
  | .resumeGang h q p => type 6 0x10 ∧ who h q p
  | .cancelTaskMessage h => type 7 8 ∧ at_ 4 4 = h
  | .firmwareBegin n => type 8 8 ∧ at_ 4 4 = n
  | .firmwareChunk off bs => mailbox = 0 ∧ at_ 0 4 = 9 ∧ b.length = 8 + bs.length ∧ at_ 4 4 = off ∧ b.drop 8 = bs
  | .firmwareCommit => type 10 4
  | .getCertificate => mailbox = 1 ∧ at_ 0 4 = 1 ∧ b.length = 4
  | .attestationReport nonce => mailbox = 1 ∧ at_ 0 4 = 2 ∧ b.length = 36 ∧ b.drop 4 = nonce
  | _ => False

end Sys2Proof.Claims

section
open Sys2Proof Sys2Proof.Machine Sys2Proof.Claims

/-- UFP_FRAME_RECEIVE, UFP_ACK, UFP_RESPONSE, UFP_ACK_SEND and UFP_RETRANSMIT_TIMEOUT complete (R393-R395, R411): the header's
layout, which frames are dropped and counted, what a connection holds and what it answers with a fresh acknowledgement, which frames an acknowledgement ends, what
is sent again, and the loss of a connection at its sixteenth transmission. To which far end a reply goes, and in what
carrier, is the model's reading (log 48). -/
def Obligations.FrameDelivery : Prop :=
  ∀ s : State, keysRise s.hub.conns = true →
    (∀ w e, e = .ufpFrameReceive w ∨ e = .ufpAck w ∨ e = .ufpResponse w →
      (s.hub.portsUp.getD w.port false = false → exec e s = .next s) ∧
      (s.hub.portsUp.getD w.port false = true →
        w.bytes.length < 32 ∨ (∃ f, Spelled w f ∧ (¬ Formed f ∨ ∀ key c, ¬ Belongs s f key c)) →
        exec e s = .next { s with hub := { s.hub with dropped := s.hub.dropped + 1 } })) ∧
    (∀ wire f key c w, Spelled wire f → s.hub.portsUp.getD f.port false = true → Formed f → Belongs s f key c →
      (f.op < 0x7F → c.unacked = [] → Wanted c w → Answers (.ufpFrameReceive wire) s (fun u => ∃ r : Remote,
        let fresh := past w f.seq < 64 ∧ ¬ HoldsSeq c f.seq
        let owe := fun d => some (match c.ackOwed with
          | some o => min o d
          | none => d)
        (key ≠ 64 → r = c.remote) ∧ (key = 64 → FarOf f r) ∧
        (fresh → u = withLink s (kput s.hub.conns key { c with remote := r, held := c.held ++ [f], ackOwed := owe (s.cycle + 2800) }) s.hub.outbox) ∧
        (¬ fresh → u = withLink s (kput s.hub.conns key { c with remote := r, ackOwed := owe s.cycle }) s.hub.outbox))) ∧
      (f.sack = 0 → exec (.ufpAck wire) s =
        .next (withLink s (kput s.hub.conns key { c with unacked := c.unacked.filter (fun t => !acked f t) }) s.hub.outbox)) ∧
      (f.sack = 0 → exec (.ufpResponse wire) s = .next (withLink s (kput s.hub.conns key { c with
        unacked := c.unacked.filter (fun t => !(acked f t) && !(t.frame.seq == f.seq && t.frame.op + 0x80 == f.op)) }) s.hub.outbox)) ∧
      (∀ t, f.sack = 1 → c.unacked = [t] → t.frame.seq < 2 ^ 32 → t.frame.seq = (f.ackSeq + 1) % 2 ^ 32 → t.times < 16 → ∃ out, Sent t.frame out ∧
        exec (.ufpAck wire) s = .next (withLink s (kput s.hub.conns key { c with unacked := [{ t with sent := s.cycle, times := t.times + 1 }] })
          (s.hub.outbox ++ [out])))) ∧
    ∀ key c rest, s.hub.conns = (key, c) :: rest →
      (∀ d, c.ackOwed = some d → d ≤ s.cycle → Answers .ufpAckSend s (fun u => ∃ (g : Frame) (out : Wire), Sent g out ∧
        u = withLink s ((key, { c with ackOwed := none }) :: rest) (s.hub.outbox ++ [out]) ∧ g.encap = carrierTo c.remote ∧ g.source = c.remote.mac ∧ g.ver = 1 ∧ g.op = 0x7F ∧ g.conn = key % 256 ∧
        g.port = c.remote.port ∧ g.len = 0 ∧ g.payload = [] ∧
        ∀ w, Wanted c w → g.ackSeq = (w + 2 ^ 32 - 1) % 2 ^ 32 ∧
          ∀ i, i < 32 → (g.sack.getLsbD i = true ↔ HoldsSeq c ((w + 1 + i) % 2 ^ 32)))) ∧
      ∀ t more, c.unacked = t :: more → t.sent + 28000 ≤ s.cycle →
        (t.times < 16 → t ∉ more → ∃ out, Sent t.frame out ∧ exec .ufpRetransmitTimeout s = .next (withLink s
          ((key, { c with unacked := { t with sent := s.cycle, times := t.times + 1 } :: more }) :: rest) (s.hub.outbox ++ [out]))) ∧
        (16 ≤ t.times → key ≠ 64 → exec .ufpRetransmitTimeout s =
          .next { s with hub := { s.hub with conns := rest, log := logged s 7 8 (key % 256) 0 } }) ∧
        (16 ≤ t.times → key = 64 → exec .ufpRetransmitTimeout s = .next (withLink s ((key, newConn c.remote) :: rest) s.hub.outbox))

/-- UFP_WRITE, UFP_READ, UFP_SEND, UFP_ATOMIC and UFP_SUBMIT complete (R371, R376, R396-R398, R400, R410-R412): the operation whose SEQ
is next is performed and answered. WRITE and ATOMIC change the bytes at the home slices and nothing else of memory; READ gives them, or a
register of the hub space; SEND is the message that its bytes spell, or one turned away; SUBMIT enters its queue; and the statuses 1, 2, 4 and 5 change nothing. The order in which
the statuses are tested (log 44) and that all 64 bits of AGE are kept (log 74) are the model's. -/
def Obligations.LinkOperations : Prop :=
  ∀ (s : State) (c : Conn) (h : Frame), Memory.wf s.mem = true → kfind s.hub.conns s.ctx.id = some c →
    c.held.find? (fun f => f.seq == c.next) = some h →
    let s1 := takenFrom s c h
    let va := h.addr.toNat
    let plain := s.stage = .up ∧ h.asid ≠ 0
    (h.op = 1 →
      (∀ pa, plain → h.arg = 0 → 0 < h.payload.length → h.payload.length ≤ 128 → va + h.payload.length ≤ 2 ^ 48 →
        (∃ x, kfind s.contexts h.asid = some x) → HubMaps s h.asid va h.payload.length pa → ∃ base : State,
        Performs .ufpWrite s c h base 0 [] ∧ base = { s1 with mem := base.mem, homeLines := base.homeLines, poison := base.poison } ∧
          ∀ a, base.homeByte a = if pa ≤ a ∧ a < pa + h.payload.length then h.payload.getD (a - pa) 0 else s.homeByte a) ∧
      (plain → h.arg ≠ 0 → Performs .ufpWrite s c h s1 5 []) ∧
      (plain → h.arg = 0 → kfind s.contexts h.asid = none → Performs .ufpWrite s c h s1 1 []) ∧
      (h.asid = 0 → h.arg = 0 → 64 ≤ h.conn → h.payload.length = 8 →
        (va = 0x100 → Performs .ufpWrite s c h { s1 with sched := { s1.sched with age := fieldAtOf h.payload 0 8 } } 0 []) ∧
        (va ≠ 0x100 → Performs .ufpWrite s c h s1 5 []))) ∧
    (h.op = 2 →
      (∀ pa, let n := h.arg.toNat
        plain → 0 < n → n ≤ 4096 → h.len = 0 → va + n ≤ 2 ^ 48 → (∃ x, kfind s.contexts h.asid = some x) → HubMaps s h.asid va n pa →
        (s.poisoned pa n = false → Performs .ufpRead s c h s1 0 ((List.range n).map (fun i => s.homeByte (pa + i)))) ∧
        (s.poisoned pa n = true → Performs .ufpRead s c h s1 2 [])) ∧
      (h.asid = 0 → 64 ≤ h.conn → h.len = 0 →
        (∀ v, h.arg = 8 → HubWord s va v → ∃ b : List Byte, b.length = 8 ∧ fieldAtOf b 0 8 = v ∧ Performs .ufpRead s c h s1 0 b) ∧
        (h.arg = 192 → va = 0x40 → ∃ b : List Byte, b.length = 192 ∧ Performs .ufpRead s c h s1 0 b ∧
          ∀ k, k < 1368 → ((b.getD (k / 8) 0).getLsbD (k % 8) = true ↔ Fenced s k)) ∧
        (h.arg = 1 → va = 0x30 ∨ 0x1200 ≤ va → Performs .ufpRead s c h s1 5 []))) ∧
    (h.op = 3 → s.stage ≠ .off → s.stage ≠ .stopped →
      let type := fieldAtOf h.payload 0 4
      (∀ e base status reply, Spells h.arg.toNat h.payload e → exec e s1 = .next (replied base status reply) →
        base.hub.replies = s.hub.replies →
        kfind base.hub.conns s.ctx.id = some (taken c h) → Performs .ufpSend s c h base status reply) ∧
      (¬ (h.arg = 1 ∧ h.payload.length = 36 ∧ type = 2) → Answers .ufpSend s (fun u => ∃ (g : Frame) (w : Wire) (before : List Wire), Sent g w ∧
        u.hub.outbox = before ++ [w] ∧ g.op = 0x83 ∧ g.seq = h.seq ∧ g.conn = h.conn ∧ g.ver = 1)) ∧
      (Spells h.arg.toNat h.payload .getCertificate → Performs .ufpSend s c h s1 0 (Config.certificate.take 4096)) ∧
      (∀ n, Spells h.arg.toNat h.payload (.firmwareBegin n) → Performs .ufpSend s c h
        { s1 with hub := { s1.hub with image := [], imageLen := some n, imageNext := false } } 0 []) ∧
      (1 < h.arg.toNat ∨ (h.arg = 0 ∧ h.payload.length < 4) ∨ (h.arg = 1 ∧ type ≠ 1 ∧ type ≠ 2) → Performs .ufpSend s c h s1 5 []) ∧
      (h.arg = 0 → 4 ≤ h.payload.length → (s.stage ≠ .up ∧ 1 ≤ type ∧ type ≤ 3) ∨ (s.stage = .tripped ∧ 5 ≤ type ∧ type ≤ 7) →
        Performs .ufpSend s c h s1 4 [])) ∧
    (h.op = 4 →
      (∀ pa, let n := if h.arg.getLsbD 4 = true then 8 else 4
        let o := h.arg.toNat % 16
        plain → h.arg.toNat < 32 → o ≤ 9 → h.payload.length = 16 → va % n = 0 → va + n ≤ 2 ^ 48 →
        (n = 4 → fieldAtOf h.payload 4 4 = 0 ∧ fieldAtOf h.payload 12 4 = 0) → (o = 9 ∨ fieldAtOf h.payload 8 8 = 0) →
        (∃ x, kfind s.contexts h.asid = some x) → HubMaps s h.asid va n pa →
        (s.poisoned pa n = true → Performs .ufpAtomic s c h s1 2 []) ∧
        (s.poisoned pa n = false → ∃ (base : State) (b : List Byte), Performs .ufpAtomic s c h base 0 b ∧ b.length = 8 ∧
          fieldAtOf b 0 8 = leOf s.homeByte pa n ∧ base = { s1 with mem := base.mem, homeLines := base.homeLines } ∧
          Stored s.homeByte base.homeByte pa n
            (aopValue o (leOf s.homeByte pa n) (fieldAtOf h.payload 0 n) (fieldAtOf h.payload 8 n) (8 * n)))) ∧
      (h.asid = 0 → Performs .ufpAtomic s c h s1 5 []) ∧ (plain → h.payload.length ≠ 16 → Performs .ufpAtomic s c h s1 5 [])) ∧
    (h.op = 5 →
      (∀ pa, plain → h.arg.toNat < 32 → h.len = 0 → va + 256 ≤ 2 ^ 48 → (∃ x, kfind s.contexts h.asid = some x) → HubMaps s h.asid va 256 pa →
        let q := h.arg.toNat
        (s.sched.queues.getD q []).length < 64 → Performs .ufpSubmit s c h { s1 with sched := { s1.sched with
          queues := modAt s.sched.queues q (fun l => l ++ [{ sub := { queue := q, addr := h.addr, asid := h.asid, core := 0, spare := false }
                                                             entered := s.cycle }]) } } 0 []) ∧
      (plain → 32 ≤ h.arg.toNat → Performs .ufpSubmit s c h s1 5 []) ∧ (s.stage = .up → h.asid = 0 → Performs .ufpSubmit s c h s1 5 [])) ∧
    (s.stage ≠ .up → h.op = 5 → Performs .ufpSubmit s c h s1 4 []) ∧
    (s.stage ≠ .up → h.asid ≠ 0 → (h.op = 1 → Performs .ufpWrite s c h s1 4 []) ∧ (h.op = 2 → Performs .ufpRead s c h s1 4 []) ∧
      (h.op = 4 → Performs .ufpAtomic s c h s1 4 []))

end

namespace Sys2Proof.Claims

/-- The word of a slot, as the encoder spells an instruction there, and the instruction that the decoder reads from it. -/
def reread (sl : Slot) (i : Instr) : Option Instr :=
  match sl with
  | .s0 | .s1 => decodeS (encodeS i)
  | .v0 | .v1 | .v2 => decodeV (encodeV i)
  | .f => decodeF (encodeF i)
  | .m0 | .m1 => decodeM (encodeM i)
  | .x => decodeX (encodeX i)
  | .l => decodeL (encodeL i)
  | .k => decodeK (encodeK i)

/-- A bundle that holds nothing. -/
def emptyBundle : Bundle :=
  { rp := false, rx := false, rcnt := 0, pv0 := 0, pv1 := 0, pv2 := 0, pf := 0, wown := 0, s0 := none, s1 := none, v0 := none, v1 := none
    v2 := none, f := none, m0 := none, m1 := none, x := none, l := none, k := none }

end Sys2Proof.Claims

section
open Sys2Proof Sys2Proof.Machine Sys2Proof.Claims

/-- Decoding and encoding agree (R76, R77, R81, R93-R102): a slot word that the encoder spells for an instruction well-formed in the slot
reads back as that instruction, with every operand; a word that reads as a well-formed instruction is the one the encoder spells for it, so
no bit of it is dropped; the same of whole bundles; and a literal is the escape and 24 words, of which word j holds bits
16j + 15 to 16j (R77), that give the bundle's bits back. -/
def Obligations.EncodeDecode : Prop :=
  (∀ (sl : Slot) (i : Instr), fieldsOk sl i = true → reread sl i = some i) ∧
  (∀ (i : Instr),
    (∀ w sl, sl = .s0 ∨ sl = .s1 → decodeS w = some i → fieldsOk sl i = true → encodeS i = w) ∧
    (∀ w sl, sl = .v0 ∨ sl = .v1 ∨ sl = .v2 → decodeV w = some i → fieldsOk sl i = true → encodeV i = w) ∧
    (∀ w, decodeF w = some i → fieldsOk .f i = true → encodeF i = w) ∧
    (∀ w sl, sl = .m0 ∨ sl = .m1 → decodeM w = some i → fieldsOk sl i = true → encodeM i = w) ∧
    (∀ w, decodeX w = some i → fieldsOk .x i = true → encodeX i = w) ∧
    (∀ w, decodeL w = some i → fieldsOk .l i = true → encodeL i = w) ∧ ∀ w, decodeK w = some i → fieldsOk .k i = true → encodeK i = w) ∧
  (∀ b : Bundle, b.wf = true → decodeBundle (encodeBundle b) = some b) ∧
  (∀ (w : BundleBits) (b : Bundle), decodeBundle w = some b → b.wf = true → encodeBundle b = w) ∧
  ∀ (w : BundleBits), literalWords w = escapeWord :: (literalWords w).drop 1 ∧ (literalWords w).length = 25 ∧
    (∀ j, j < 24 → (literalWords w)[j + 1]? = some (w.extractLsb' (16 * j) 16)) ∧ literalBits ((literalWords w).drop 1) = w

/-- Words written out from the encodings of R77, R81 and R93-R99 read as the instructions they stand for, the worked bundle of the spec as a
literal among them; a reserved opcode and a set bit that a format fixes at 0 read as none. -/
def Obligations.DecodingRight : Prop :=
  decodeS 0x050C1005#32 = some (.addSi 0 3 1 5) ∧ decodeS 0xC000003F#32 = some (.jmp 0x3F) ∧
  decodeS 0b010101_1_0_000101_000000000000000111#32 = some (.li 1 5 7) ∧ decodeS 0b010101_1_1_000101_000000000000000111#32 = none ∧
  decodeS 0b110001_000110_11111111111111110000#32 = some (.bz 6 0xFFFF0) ∧ decodeS 0b111111_00000000000000000000000000#32 = none ∧
  decodeV 0xC10014019600#48 = some (.vadd { w := 3, t := 0, rm := 0, d := 10, a := 1, b := 300, m := 0, c := 0 }) ∧
  decodeV 0b01_010100_110_001_000001111_000000010_000000011_101_0001#48 =
    some (.vcvt { w := 1, t := 6, rm := 1, d := 15, a := 2, b := 3, m := 5, c := 1 }) ∧
  decodeF 0b000100_11_01_00101_01010_0_011#24 = some (.exp2 3 1 5 10 3) ∧
  decodeM 0b000010_00011_100101000_010_101_000_01_1#32 = some (.ldg 3 296 2 5 1 1) ∧
  decodeM 0b001110_00111_111111111111111111111#32 = some (.lapadd 7 0x1FFFFF) ∧
  decodeX 0b001000_101_00_010_00000_00000_00_000_110#32 = some (.tadd 5 2 6) ∧
  decodeL 0b0101_00011_00100_10#16 = some (.gvsh 3 4 2) ∧ decodeL 0b0111_101_010_1001_00#16 = some (.gshuf 5 2 9) ∧
  decodeK 0b0010_00110_011_000_1#16 = some (.scld 6 3 1) ∧ decodeK 0b0010_00110_011_010_1#16 = none ∧
  decodeBundle (literalBits (List.replicate 16 0 ++ [0x0196, 0x0014, 0x00C1, 0x0000, 0x0500, 0x0C10, 0x0005, 0x8040])) =
    some { emptyBundle with rp := true, pv0 := 1, s0 := some (.addSi 0 3 1 5),
                            v0 := some (.vadd { w := 3, t := 0, rm := 0, d := 10, a := 1, b := 300, m := 0, c := 0 }) }

/-- From every state whose memory is in its canonical form, the home slices listed at rising addresses and no entry equal to what an unlisted
byte reads as, a step leads to such a state, whatever event or instruction it runs. -/
def Obligations.StepKeepsMemory : Prop := ∀ s t : State, s.MemOk → step s = .next t → t.MemOk

/-- Right after reset (R3, R395, R397, R399, R409-R411) no port is up, no connection is open, no gang,
task or context stands, the log and the outbox are empty and BOOTSTAT reads 0; memory is in its canonical form, and, by the model's choice
(log entries 1 and 2), every byte of it and every counter reads 0. -/
def Obligations.ResetState : Prop :=
  let r := State.reset
  r.MemOk ∧ r.stage = .off ∧ r.cores.length = 72 ∧ (∀ c, r.gang c = none ∧ (r.core c).fenced = false) ∧ (∀ a, r.homeByte a = 0) ∧
    (∀ d a, r.dieByte d a = 0) ∧ r.contexts = [] ∧ r.rings = [] ∧ r.peers = [] ∧ r.sched.tasks = [] ∧ (∀ q, r.sched.queues.getD q [] = []) ∧
    r.hub.conns = [] ∧ r.hub.outbox = [] ∧ r.hub.log = [] ∧ r.hub.boot = 0 ∧ (∀ p, r.hub.portsUp.getD p false = false) ∧ r.cycle = 0 ∧
    (∀ n, r.fenceBit n = false) ∧ r.lock.holder = none

end

namespace Sys2Proof.Claims
open Sys2Proof.Machine

/-- A sequencer runs, outside a loop, and the bundle of the dictionary at its PC holds instruction i in slot sl and nothing else. -/
def Holding (s : State) (core : Nat) (spare : Bool) (g : Gang) (w : BundleBits) (sl : Slot) (i : Instr) : Prop :=
  let q := g.seq spare
  s.gang core = some g ∧ s.ctx = { core, spare } ∧ g.st = .running ∧ g.selfCancelled = false ∧ (spare = true → g.split = true) ∧
    q.stopped = false ∧ q.ctl = none ∧ q.loop = none ∧ Lone w sl i ∧
    ∃ c, g.code[q.pc]? = some c ∧ c ≠ escapeWord ∧ g.dict[c.toNat]? = some w

/-- The bundle of a sequencer is to be tried in this cycle (R35, R80). -/
def Ready (s : State) (q : Seq) : Prop :=
  q.base ≤ s.cycle ∧ q.tried ≠ some s.cycle ∧ (q.wait = none ∨ ∃ t, q.wait = some (.queue, t) ∨ q.wait = some (.matrix, t))

/-- The gang g' of which the bundle in hand has made what it makes, once the bundle has committed (R44, R80): the next bundle in program order
follows a cycle later, the wait is over and its cycles are counted (R167), and one more bundle has issued. -/
def Committed (g g' : Gang) (spare : Bool) (now : Nat) : Gang :=
  let p := (waited (g.seq spare) now).perf
  { g'.mapAct 0xFFFF (fun _ en => { en with occSeen := none }) with raised := [] }.modSeq spare (fun q =>
    { q with pc := (g.seq spare).pc + 1, base := now + 1, tried := none, wait := none, arrived := false, ctl := none
             perf := { p with issued := p.issued + 1 } })

/-- The event commits the bundle at PC, which makes g' of the gang; a restart point (RP) also takes its checkpoint (R38). -/
def CommitsTo (e : Instr) (s : State) (core : Nat) (spare : Bool) (g g' : Gang) (w : BundleBits) : Prop :=
  let c := Committed g g' spare s.cycle
  ∃ h, exec e s = .next (s.putGang core h) ∧ (w.getLsbD 383 = false → h = c) ∧
    (w.getLsbD 383 = true →
      (let q := h.seq spare
       q = { c.seq spare with batch := q.batch, reissue := false, immediate := q.immediate, rppc := (g.seq spare).pc, traps := q.traps }) ∧
      h.seq (!spare) = c.seq (!spare) ∧ h.st = c.st ∧ h.events = c.events ∧ h.batons = c.batons ∧ h.arrivals = c.arrivals ∧
      (∀ k, (h.eng k).lands = (c.eng k).lands ∧ (h.eng k).fences = (c.eng k).fences) ∧
      ∃ ck, (if spare = true then h.ckptS else h.ckptP) = some ck ∧ ck.at_ = s.cycle)

/-- The register of an engine that a result is to be written to, by rows for a tile. -/
def cell (en : Engine) (p : EPay) : List Nat :=
  match p with
  | .e i _ _ => [(sget 0 en.e i).toNat]
  | .a i _ _ => [(sget 0 en.a i).toNat]
  | .st i _ => [(sget 0 en.st i).toNat]
  | .h i _ => [(sget 0 en.h i).toNat]
  | .v i _ _ => [(sget 0 en.v i).toNat]
  | .cb i _ => [(sget 0 en.cb i).toNat]
  | .sc i hi _ => [if hi = true then (sget 0 en.sc i).toNat / 2 ^ 1024 else (sget 0 en.sc i).toNat % 2 ^ 1024]
  | .att i _ => [(sget 0 en.att i).toNat]
  | .x i _ => [(sget 0 en.x i).toNat]
  | .sb _ => [en.sb.toNat]
  | .flags _ => [en.fpflags]
  | .tile i _ => (List.range 64).map (fun r => (sget 0 en.c (64 * i + r)).toNat)
  | .cr a _ => [if a = 0x200 then en.rcut else if a = 0x201 then en.rthr.toNat else if a = 0x202 then en.rfill.toNat
                else if a = 0x302 then en.tx.count else if a = 0x303 then en.tx.limit else 0]
  | .iw i _ => [(sget 0 en.iwShadow i).toNat]
  | .bind _ _ _ => [en.bind.base, en.bind.engs, en.bind.code]

/-- A value with the bits of a mask taken from another. -/
def blend {n : Nat} (m old new : BitVec n) : Nat := ((old &&& ~~~ m) ||| (new &&& m)).toNat

/-- What that register holds once the result has landed (R33); a control register takes the field that it has (R271, R298). -/
def landed (en : Engine) (p : EPay) : List Nat :=
  match p with
  | .e i m v => [blend m (sget 0 en.e i) v]
  | .a _ _ v => [v.toNat]
  | .st _ v => [v.toNat]
  | .h _ v => [v.toNat]
  | .v i m v => [blend m (sget 0 en.v i) v]
  | .cb _ v => [v.toNat]
  | .sc _ _ v => [v.toNat]
  | .att _ v => [v.toNat]
  | .x _ v => [v.toNat]
  | .sb v => [v.toNat]
  | .flags _ => [en.fpflags]
  | .tile _ rows => rows.map (·.toNat)
  | .cr a v => [if a = 0x200 then max 1 (min 64 (v.toNat % 2 ^ 7)) else if a = 0x201 then v.toNat % 2 ^ 33 else if a = 0x202 then v.toNat % 2 ^ 32
                else if a = 0x302 ∨ a = 0x303 then v.toNat % 2 ^ 16 else 0]
  | .iw _ v => [v.toNat]
  | .bind b n c => [b, n, c]

/-- Two results are written to one register of an engine. -/
def OneCell (p q : EPay) : Prop :=
  p.clash q = true ∨ (∃ i m n v w, p = .a i m v ∧ q = .a i n w) ∨ ∃ i m n v w, p = .sc i m v ∧ q = .sc i n w

/-- The files of an engine or a sequencer are listed at rising numbers. -/
def FilesWf (en : Engine) : Prop :=
  sparseWf 0 en.e = true ∧ sparseWf 0 en.a = true ∧ sparseWf 0 en.st = true ∧ sparseWf 0 en.h = true ∧ sparseWf 0 en.v = true ∧
    sparseWf 0 en.cb = true ∧ sparseWf 0 en.sc = true ∧ sparseWf 0 en.att = true ∧ sparseWf 0 en.x = true ∧ sparseWf 0 en.c = true ∧
    sparseWf 0 en.iwShadow = true

end Sys2Proof.Claims

section
open Sys2Proof Sys2Proof.Machine Sys2Proof.Claims

/-- BUNDLE_ISSUE completes for a bundle of one ALU or constant instruction in S0 or S1 (R35, R44, R80, R130, R133): it commits, its result on
its way. -/
def Sys2Proof.Claims.BundleCommits : Prop :=
  ∀ (s : State) (core : Nat) (spare : Bool) (g : Gang) (w : BundleBits) (sl : Slot) (i : Instr) e d lat f, Holding s core spare g w sl i →
    Ready s (g.seq spare) → (sl = .s0 ∨ sl = .s1) → (w.getLsbD 383 = true → g.prim.batch = none ∧ g.spare.batch = none) →
    aluRow i = some (e, d, lat, f) →
    CommitsTo .bundleIssue s core spare g
      (if e = 0 then sLand g spare s.cycle lat d.toNat (f (fun r => readS s (g.seq spare) r.toNat))
       else g.mapAct (g.seq spare).active (fun k en => eLand en s.cycle lat d.toNat (f (fun r =>
          if r.toNat < 16 then readE s k en r.toNat else readS s (g.seq spare) (r.toNat - 16))))) w

/-- WAIT_WAKE, BWAIT_WAKE and BARRIER_OPEN complete where what a waiting bundle waits for is there (R32, R35, R155, R156, R160): the bundle
commits, with what its WAIT or BWAIT sees on its way to s[D] and cleared, or with its BAR's mark in every live engine. -/
def Sys2Proof.Claims.WakesComplete : Prop :=
  ∀ (s : State) (core t : Nat) (g : Gang) (w : BundleBits),
    (∀ (d : BitVec 6) (keep x : BitVec 1) (m : BitVec 4), Holding s core false g w .s0 (.wait d keep x m) → g.prim.wait = some (.event, t) →
      (w.getLsbD 383 = true → g.prim.batch = none ∧ g.spare.batch = none) →
      let seen := g.events &&& m
      (x = 0 ∧ seen ≠ 0) ∨ (x = 1 ∧ seen = m) →
      CommitsTo .waitWake s core false g (sLand (if keep = 1 then g else { g with events := (g.events &&& ~~~ seen) ||| g.freshEvents })
        false s.cycle 1 d.toNat (BitVec.ofNat 64 seen.toNat)) w) ∧
    (∀ (d a : BitVec 6) (keep x : BitVec 1), Holding s core false g w .s0 (.bwait d a keep x) → g.prim.wait = some (.baton, t) →
      (w.getLsbD 383 = true → g.prim.batch = none ∧ g.spare.batch = none) →
      let b : BitVec 32 := (readS s g.prim a.toNat).setWidth 32
      let took := g.batons &&& b
      (∀ f, f ∈ g.badBatons → b.getLsbD f.baton = false) → (x = 0 ∧ took = b) ∨ (x = 1 ∧ (took ≠ 0 ∨ b = 0)) →
      CommitsTo .bwaitWake s core false g (sLand (if keep = 1 then g else { g with batons := g.batons &&& ~~~ took })
        false s.cycle 1 d.toNat (BitVec.ofNat 64 took.toNat)) w) ∧
    ∀ (l : BitVec 6), Holding s core false g w .s0 (.bar l) → g.prim.wait = some (.barrier, t) → g.prim.arrived = true → g.split = false →
      l.toNat ≤ 2 → g.arrivals.length = 3 →
      l.toNat = 0 ∨ ((l.toNat = 1 ∨ g.info.ndie = 1) ∧ DieOpen s g) ∨ (l.toNat = 2 ∧ g.info.ndie ≠ 1 ∧ PackOpen s g) →
      CommitsTo .barrierOpen s core false g (g.mapAct g.live (fun _ en =>
        { en with fences := en.fences ++ [{ serial := en.serial, kind := 2, scope := l.toNat, from_ := en.regionFrom
                                            inst := g.arrivals.getD l.toNat 0 }]
                  serial := en.serial + 1 })) w

/-- The commit of a bundle with a real GSPLIT (R149): the primary goes on with its path, its SPLIT entry on the stack; the spare stands at the
target with the other path, copies of the primary's s-file and g-file and of what is on its way to them, the CALLDEPTH and an empty stack, its
first bundle two cycles after the primary's next; and its start is its first checkpoint. -/
def Sys2Proof.Claims.SplitCommits : Prop :=
  ∀ (s : State) (core : Nat) (g : Gang) (w : BundleBits) (a : BitVec 6) (o : BitVec 20), Holding s core false g w .s0 (.gsplit a o) →
    w.getLsbD 383 = false → Ready s g.prim → g.spareLive = true → g.split = false → g.prim.resident < 32 → g.prim.callDepth < 64 →
    let q := g.prim
    let m := q.active &&& readG s g q a.toNat
    let f := q.active &&& ~~~ readG s g q a.toNat
    let goal : Int := q.pc + o.toInt
    m ≠ 0 → f ≠ 0 → (∀ j, j < 16 → ¬ Parted g m j) → 0 ≤ goal → StartsBundle g goal.toNat →
    let c := Committed g g false s.cycle
    ∃ h ck, exec .bundleIssue s = .next (s.putGang core h) ∧
      h = { c with split := true, splitTag := q.pc, splitDepth := q.callDepth, splitEngines := f, ckptS := some ck, spare := h.spare
                   prim := { c.prim with active := m, stack := sput 0 q.stack q.resident (entry q.active f goal 4 q.callDepth), resident := q.resident + 1 } } ∧
      h.spare = { pc := goal.toNat, rppc := goal.toNat, active := f, s := q.s, g := q.g, callDepth := q.callDepth, base := s.cycle + 3
                  batch := g.spare.batch
                  lands := q.lands.filter (fun x => match x.pay with
                    | .cr _ _ => false
                    | .shadow _ _ _ => false
                    | _ => true) } ∧
      ck.at_ = s.cycle + 1 ∧ ck.seq = h.spare ∧ ck.split = true

/-- The commits of SYS EXIT and SYS BRK (R162, R163, R311). EXIT seals the stores that the live engines hold, ends open transactions, and
leaves the gang exiting; BRK begins the halt with BREAK, the PC at the next bundle. -/
def Sys2Proof.Claims.ExitCommits : Prop :=
  ∀ (s : State) (core : Nat) (g : Gang) (w : BundleBits), w.getLsbD 383 = false →
    let c := Committed g g false s.cycle
    (Holding s core false g w .s0 .sysExit → Ready s g.prim → g.prim.batch = none → g.spare.batch = none → g.split = false →
      g.prim.resident = 0 → g.prim.spilled = 0 → ∃ h b, exec .bundleIssue s = .next (s.putGang core h) ∧ Sealed g g.live s.cycle none b ∧
        h = { c with st := .exiting, lockKept := false, engines := h.engines, prim := { c.prim with pc := g.prim.pc, batch := b } } ∧
        ∀ k, k < 16 → h.eng k = { c.eng k with
          sq := if g.live.getLsbD k = true then [] else (g.eng k).sq
          regionFrom := if g.live.getLsbD k = true then (g.eng k).serial else (g.eng k).regionFrom
          tx := { (g.eng k).tx with opened := false, cur := {} } }) ∧
    ∀ spare, Holding s core spare g w .s0 .sysBrk → Ready s (g.seq spare) →
      exec .bundleIssue s = .next (s.putGang core (stricken (Committed g g spare s.cycle) spare .brk 0 0 0))

/-- The passing of a cycle lands the results that are due in it (R33, R34, R122): each that is alone there in being written to its register of
the engine, of a sequencer or of the gang becomes its value, a flag is set beside those that stand, every register without one stays, and
no landed result is still on its way. A register that two of them write is left open. -/
def Sys2Proof.Claims.RegisterLandings : Prop :=
  ∀ (s : State) (core : Nat) (g : Gang), core < 72 → s.gang core = some g → Quiet s → s.transit = [] →
    ∃ h, s.tick.gang core = some h ∧ s.tick.cycle = s.cycle + 1 ∧
      (∀ k, k < 16 → FilesWf (g.eng k) → (∀ y i rows, y ∈ (g.eng k).lands → y.pay = .tile i rows → rows.length = 64) → let en := g.eng k
        let due (x : ELand) : Prop := x.due ≤ s.cycle + 1
        (h.eng k).lands = en.lands.filter (fun x => decide (s.cycle + 1 < x.due)) ∧
        (∀ before x after, en.lands = before ++ x :: after → due x → (∀ f, x.pay ≠ .flags f) →
          (∀ v, x.pay ≠ .cr 0x00A v) → (∀ y, y ∈ before ++ after → due y → ¬ OneCell x.pay y.pay) → cell (h.eng k) x.pay = landed en x.pay) ∧
        (∀ p : EPay, (∀ y, y ∈ en.lands → due y → ¬ OneCell p y.pay) → (∀ f, p ≠ .flags f) → (∀ v, p ≠ .cr 0x00A v) → cell (h.eng k) p = cell en p) ∧
        ((∀ y v, y ∈ en.lands → due y → y.pay ≠ .cr 0x00A v) → ∀ n, n < 5 →
          ((h.eng k).fpflags.testBit n = true ↔ en.fpflags.testBit n = true ∨ ∃ y f, y ∈ en.lands ∧ due y ∧ y.pay = .flags f ∧ f.testBit n = true))) ∧
      (∀ spare, let q := g.seq spare
        let q' := h.seq spare
        let due (x : SLand) : Prop := x.due ≤ s.cycle + 1
        sparseWf 0 q.s = true → sparseWf 0 q.g = true →
        q'.lands = q.lands.filter (fun x => decide (s.cycle + 1 < x.due)) ∧
        (∀ before x after, q.lands = before ++ x :: after → due x → (∀ y, y ∈ before ++ after → due y → x.pay.clash y.pay = false) →
          (∀ i v, x.pay = .s i v → sget 0 q'.s i = v) ∧
          (∀ i m v, x.pay = .g i m v → sget 0 q'.g i = (sget 0 q.g i &&& ~~~ m) ||| (v &&& m))) ∧
        (∀ i, (∀ y v, y ∈ q.lands → due y → y.pay ≠ .s i v) → sget 0 q'.s i = sget 0 q.s i) ∧
        (∀ i, (∀ y m v, y ∈ q.lands → due y → y.pay ≠ .g i m v) → sget 0 q'.g i = sget 0 q.g i)) ∧
      ∀ (addr : Nat), let due := (g.prim.lands ++ g.spare.lands).filter (fun x => decide (x.due ≤ s.cycle + 1) && x.pay.clash (.cr addr 0))
        (∀ x v, due = [x] → x.pay = .cr addr v →
          (addr = 0x00E → h.lapGate = v.setWidth 16) ∧ (addr = 0x011 → h.batons = v.setWidth 32) ∧
          (addr = 0x100 → h.watchdog = max 256 (v.toNat % 2 ^ 20)) ∧ (addr = 0x00D → h.timer = v.toNat % 2 ^ 32)) ∧
        (due = [] → (addr = 0x00E → h.lapGate = g.lapGate) ∧ (addr = 0x011 → h.batons = g.batons) ∧
          (addr = 0x100 → h.watchdog = g.watchdog) ∧ (addr = 0x00D → h.timer = g.timer - 1))

end

section
open Sys2Proof Sys2Proof.Claims

/-- MOVTC completes, and what it lands becomes the register's value field by field (R132, R135, R167); and what the passing of a cycle does to
every register on its way to which a result is (R33, R34, R122): the three statements Claims.ControlRegisterWrites,
Claims.ControlRegisterLandings and Claims.RegisterLandings. -/
def Obligations.ControlRegistersWritten : Prop :=
  Claims.ControlRegisterWrites ∧ Claims.ControlRegisterLandings ∧ Claims.RegisterLandings

/-- GPRED and GQRY complete (R139, R140): the two statements Claims.GangPredicates and Claims.GangQueries. -/
def Obligations.GangRegisters : Prop := Claims.GangPredicates ∧ Claims.GangQueries

/-- ASET, ASTR, AADD and SHP complete, or SHP raises SHAPE (R137, R138, R169): the two statements Claims.AddressRegisters and
Claims.ShapeWords. -/
def Obligations.EngineRegisters : Prop := Claims.AddressRegisters ∧ Claims.ShapeWords

/-- The four ENGGO complete, or fail their checks (R153, R315, R317, R336): the two statements Claims.EngineOperations and
Claims.WalkerOperations. -/
def Obligations.EngineQueues : Prop := Claims.EngineOperations ∧ Claims.WalkerOperations

/-- The operands of a V slot (R88-R90, R173, R192, R196), shown on VMOV: the two statements Claims.VectorSources and Claims.QueuePops. -/
def Obligations.VectorOperands : Prop := Claims.VectorSources ∧ Claims.QueuePops

/-- BIND and the six chain instructions complete (R285, R289-R292): the two statements Claims.Binding and Claims.LimbChains. -/
def Obligations.LimbInstructions : Prop := Claims.Binding ∧ Claims.LimbChains

/-- WAIT, BWAIT and BAR complete where what they wait for is there (R150, R155, R156, R160, R331): the two statements Claims.Waits and
Claims.Barriers. -/
def Obligations.WaitsAndBarriers : Prop := Claims.Waits ∧ Claims.Barriers

/-- SYS STKSPILL, STKFILL, EXIT and BRK complete, and what the commit of EXIT and BRK does to the gang (R148, R162, R163, R311): the three
statements Claims.SpillAndFill, Claims.ExitAndBreak and Claims.ExitCommits. -/
def Obligations.StackAndExit : Prop := Claims.SpillAndFill ∧ Claims.ExitAndBreak ∧ Claims.ExitCommits

/-- The ranking network (R267-R279): the two statements Claims.Ranking and Claims.Unranking. -/
def Obligations.RankingNetwork : Prop := Claims.Ranking ∧ Claims.Unranking

/-- The L slot (R236-R242): the two statements Claims.CrossbarVectors and Claims.CrossbarTiles. -/
def Obligations.CrossbarInstructions : Prop := Claims.CrossbarVectors ∧ Claims.CrossbarTiles

/-- GSPLIT and GMERGE complete, and what the commit of a real GSPLIT starts (R149, R151): the three statements Claims.GangSplit,
Claims.GangMerge and Claims.SplitCommits. That a GSPLIT whose target starts no bundle raises ILLEGAL_TARGET itself is the model's reading
(log 53). -/
def Obligations.GangSplitMerge : Prop := Claims.GangSplit ∧ Claims.GangMerge ∧ Claims.SplitCommits

/-- TX_COMMIT, TX_ENTRY_RESOLVE, SERIAL_LOCK_GRANT and SERIAL_LOCK_RELEASE complete, and a commit takes its lanes in ascending order
(R305-R310): the two statements Claims.CommitSteps and Claims.CommitLanes; the pace of the second is the model's (log entry 22). -/
def Obligations.CommitsAndLock : Prop := Claims.CommitSteps ∧ Claims.CommitLanes

end

namespace Sys2Proof.Claims
open Sys2Proof.Machine

/-- exec answers a next state in which the engines of the gang in hand have new results on their way, each issued now, and only active engines
do; nothing else of the package changes, and no fault is raised. -/
def OnlyLands (i : Instr) (s : State) (g : Gang) : Prop :=
  ∃ t, exec i s = .next t ∧ ∃ L : Nat → List ELand,
    t = s.putGang s.ctx.core (g.mapAct s.ctx.act (fun k en => { en with lands := en.lands ++ L k })) ∧
    ∀ k x, x ∈ L k → x.issued = s.cycle ∧ s.cycle < x.due

/-- The nine special functions, by their operands. -/
def specialForms (w t : BitVec 2) (d a : BitVec 5) (m : BitVec 3) : List Instr :=
  [.rcp w t d a m, .rsq w t d a m, .sqrt w t d a m, .exp2 w t d a m, .log2 w t d a m, .tanh w t d a m, .sint w t d a m, .cost w t d a m,
   .erf w t d a m]

end Sys2Proof.Claims

section
open Sys2Proof Sys2Proof.Machine Sys2Proof.Claims

/-- Forms named one by one, each completing under conditions on the state and operands alone. RCP, RSQ, SQRT, EXP2, LOG2, TANH, SINT, COST
and ERF (R226, R227), XRED, XSCAN, XSHFL, GVSH and GVRED (R236-R240), and XPERM where no two lanes of an active engine go to one place
(R236), land results and nothing else; GSHUF, GBCST and GRED where no tile they touch is busy (R241, R242) mark their destination busy
beside; ENGINE_FENCE, CORE_FENCE, CHANNEL_FENCE, CDIE_FENCE, MDIE_FENCE and PORT_FENCE, of a unit that the package has, add their record and
fence the unit (R406, R411); that a core's last engine and a lost die's cores add no record of their own is the model's choice (log 46, 49).
And BUNDLE_ISSUE, WAIT_WAKE, BWAIT_WAKE and BARRIER_OPEN commit their bundle: the two statements Claims.BundleCommits and
Claims.WakesComplete. -/
def Obligations.FormsComplete : Prop := Claims.BundleCommits ∧ Claims.WakesComplete ∧
  (∀ (s : State) (g : Gang), Here s g →
    (∀ w t d a m i, i ∈ specialForms w t d a m → OnlyLands i s g) ∧
    (∀ d a p, OnlyLands (.xred d a p) s g ∧ OnlyLands (.xscan d a p) s g ∧ OnlyLands (.xshfl d a p) s g ∧ OnlyLands (.gvsh d a p) s g ∧
      OnlyLands (.gvred d a p) s g ∧
      ((∀ k l l', k < 16 → s.ctx.act.getLsbD k = true → l < 32 → l' < 32 → l ≠ l' → let x := readX s k (g.eng k) p.toNat
        skipOf x l = false → skipOf x l' = false → numOf x l ≠ numOf x l') → OnlyLands (.xperm d a p) s g)) ∧
    ∀ (d t : BitVec 3) (n : BitVec 4) (i : Instr), i = .gshuf d t n ∨ i = .gbcst d t n ∨ i = .gred d t n →
      (∀ k, k < 16 → s.ctx.act.getLsbD k = true → idle s (g.eng k) d.toNat ∧ idle s (g.eng k) t.toNat) →
      ∃ (u : State) (m : Mask) (L : Nat → List ELand) (busy : Nat → List (Nat × Nat)), exec i s = .next u ∧ m &&& s.ctx.act = m ∧
        u = s.putGang s.ctx.core (g.mapAct m (fun k en => { en with lands := en.lands ++ L k, busy := busy k })) ∧
        ∀ k x, x ∈ L k → x.issued = s.cycle ∧ s.cycle < x.due) ∧
  ∀ (s : State) (cause : Nat), s.cores.length = 72 → sparseWf 0 s.hub.fences = true →
    let logs (u : State) (level unit : Nat) : Prop := u.hub.log = logged s level cause unit 0
    (∀ c e, c < 72 → e < 16 → ∃ u, exec (.engineFence c e cause) s = .next u ∧ logs u 1 (16 * c + e) ∧ (u.core c).capOf e = 0) ∧
    (∀ c, c < 72 → ∃ u, exec (.coreFence c cause) s = .next u ∧ logs u 2 c ∧ (u.core c).fenced = true) ∧
    (∀ n, n < 128 → ∃ u, exec (.channelFence n cause) s = .next u ∧ logs u 3 n ∧ u.fenceBit (1224 + n) = true) ∧
    (∀ d, d < 8 → ∃ u, exec (.cdieFence d cause) s = .next u ∧ logs u 4 d ∧ u.fenceBit (1352 + d) = true ∧
      ∀ c, c < 72 → c / 9 = d → (u.core c).fenced = true) ∧
    (∀ d, d < 4 → ∃ u, exec (.mdieFence d cause) s = .next u ∧ logs u 5 d ∧ u.fenceBit (1360 + d) = true) ∧
    ∀ p, p < 4 → ∃ u, exec (.portFence p) s = .next u ∧ u.fenceBit (1364 + p) = true ∧ u.hub.portsUp.getD p false = false ∧
      ((∀ x, x ∈ s.hub.conns → x.1 = 64 ∨ x.2.remote.port ≠ p) → u.hub.log = logged s 6 4 p 0) ∧
      (keysRise s.hub.conns = true → ∀ k c, (k, c) ∈ s.hub.conns → k ≠ 64 → c.remote.port = p → kfind u.hub.conns k = none)

end
end

