-- ==== Sys2Proof/Laws/PerInstr.lean ====
section
/-! SUPPORT. One family of statements by instruction: an instruction is well formed in the slots of one class only (R93-R99). -/
namespace Sys2Proof.Laws

/-- The class of a slot: S, V, F, M, X, L or K. -/
def slotClass : Slot → Nat
  | .s0 => 0 | .s1 => 0 | .v0 => 1 | .v1 => 1 | .v2 => 1 | .f => 2 | .m0 => 3 | .m1 => 3 | .x => 4 | .l => 5 | .k => 6

/-- The slots that take an instruction are of one class. -/
def Place.Statement (i : Instr) : Prop :=
  ∀ sl sl' : Slot, fieldsOk sl i = true → fieldsOk sl' i = true → slotClass sl = slotClass sl'

theorem place_of {i : Instr} {p : Slot → Bool} (h : ∀ sl, fieldsOk sl i = true → p sl = true)
    (hp : ∀ sl sl', p sl = true → p sl' = true → slotClass sl = slotClass sl') : Place.Statement i :=
  fun sl sl' a b => hp sl sl' (h sl a) (h sl' b)

theorem class_isS (sl sl' : Slot) (h : isS sl = true) (h' : isS sl' = true) : slotClass sl = slotClass sl' := by
  cases sl <;> cases sl' <;> first | rfl | (exact Bool.noConfusion h) | (exact Bool.noConfusion h')
theorem class_isV (sl sl' : Slot) (h : isVSlot sl = true) (h' : isVSlot sl' = true) : slotClass sl = slotClass sl' := by
  cases sl <;> cases sl' <;> first | rfl | (exact Bool.noConfusion h) | (exact Bool.noConfusion h')
theorem class_isM (sl sl' : Slot) (h : isM sl = true) (h' : isM sl' = true) : slotClass sl = slotClass sl' := by
  cases sl <;> cases sl' <;> first | rfl | (exact Bool.noConfusion h) | (exact Bool.noConfusion h')
theorem class_eq (y : Slot) : ∀ sl sl', (sl == y) = true → (sl' == y) = true → slotClass sl = slotClass sl' := by
  intro sl sl' h h'
  rw [eq_of_beq h, eq_of_beq h']

theorem place_event {i : Instr} (h : ∀ sl, fieldsOk sl i = false) : Place.Statement i :=
  fun sl _ a _ => by rw [h sl] at a; cases a

theorem left2 {a b : Bool} (h : (a && b) = true) : a = true := (Bool.and_eq_true_iff.1 h).1

theorem Place.finish (report : FinishReport) : Place.Statement (.finish report) := place_event (fun _ => rfl)
theorem Place.eccCorrection (die pa : Nat) (delayed : Option (Nat × Nat × Nat)) : Place.Statement (.eccCorrection die pa delayed) := place_event (fun _ => rfl)
theorem Place.uncorrectableError (site : ErrorSite) : Place.Statement (.uncorrectableError site) := place_event (fun _ => rfl)
theorem Place.engineFence (core engine cause : Nat) : Place.Statement (.engineFence core engine cause) := place_event (fun _ => rfl)
theorem Place.coreFence (core cause : Nat) : Place.Statement (.coreFence core cause) := place_event (fun _ => rfl)
theorem Place.channelFence (channel cause : Nat) : Place.Statement (.channelFence channel cause) := place_event (fun _ => rfl)
theorem Place.cdieFence (die cause : Nat) : Place.Statement (.cdieFence die cause) := place_event (fun _ => rfl)
theorem Place.mdieFence (die cause : Nat) : Place.Statement (.mdieFence die cause) := place_event (fun _ => rfl)
theorem Place.portFence (port : Nat) : Place.Statement (.portFence port) := place_event (fun _ => rfl)
theorem Place.ufpFrameReceive (f : Wire) : Place.Statement (.ufpFrameReceive f) := place_event (fun _ => rfl)
theorem Place.ufpAck (f : Wire) : Place.Statement (.ufpAck f) := place_event (fun _ => rfl)
theorem Place.ufpResponse (f : Wire) : Place.Statement (.ufpResponse f) := place_event (fun _ => rfl)
theorem Place.hubAgeWrite (value : Word) : Place.Statement (.hubAgeWrite value) := place_event (fun _ => rfl)
theorem Place.installContext (asid root : Nat) : Place.Statement (.installContext asid root) := place_event (fun _ => rfl)
theorem Place.removeContext (asid : Nat) : Place.Statement (.removeContext asid) := place_event (fun _ => rfl)
theorem Place.addFrames (asid : Nat) (big : Bool) (frames : List Nat) : Place.Statement (.addFrames asid big frames) := place_event (fun _ => rfl)
theorem Place.removeFrames (asid : Nat) (big : Bool) (frames : List Nat) : Place.Statement (.removeFrames asid big frames) := place_event (fun _ => rfl)
theorem Place.installRingContext (ring : Nat) (record : List Byte) : Place.Statement (.installRingContext ring record) := place_event (fun _ => rfl)
theorem Place.installPeerContext (peer prank : Nat) (packages : List Remote) : Place.Statement (.installPeerContext peer prank packages) := place_event (fun _ => rfl)
theorem Place.openConnection (conn : Nat) (remote : Remote) : Place.Statement (.openConnection conn remote) := place_event (fun _ => rfl)
theorem Place.closeConnection (conn : Nat) : Place.Statement (.closeConnection conn) := place_event (fun _ => rfl)
theorem Place.readSaveArea (handle squad pos offset length : Nat) : Place.Statement (.readSaveArea handle squad pos offset length) := place_event (fun _ => rfl)
theorem Place.resumeGang (handle squad pos : Nat) : Place.Statement (.resumeGang handle squad pos) := place_event (fun _ => rfl)
theorem Place.cancelTaskMessage (handle : Nat) : Place.Statement (.cancelTaskMessage handle) := place_event (fun _ => rfl)
theorem Place.firmwareBegin (length : Nat) : Place.Statement (.firmwareBegin length) := place_event (fun _ => rfl)
theorem Place.firmwareChunk (offset : Nat) (bytes : List Byte) : Place.Statement (.firmwareChunk offset bytes) := place_event (fun _ => rfl)
theorem Place.attestationReport (nonce : List Byte) : Place.Statement (.attestationReport nonce) := place_event (fun _ => rfl)
theorem Place.submissionArrival (sub : Submission) : Place.Statement (.submissionArrival sub) := place_event (fun _ => rfl)
theorem Place.gangStart (handle squad : Nat) : Place.Statement (.gangStart handle squad) := place_event (fun _ => rfl)
theorem Place.taskCancel (handle asid : Nat) : Place.Statement (.taskCancel handle asid) := place_event (fun _ => rfl)
theorem Place.dieCacheEviction (die line : Nat) : Place.Statement (.dieCacheEviction die line) := place_event (fun _ => rfl)
theorem Place.collectiveFail (key : CollKey) (cause : Nat) : Place.Statement (.collectiveFail key cause) := place_event (fun _ => rfl)
theorem Place.pageWalk (core : Nat) (va : Word) (write : Bool) : Place.Statement (.pageWalk core va write) := place_event (fun _ => rfl)
theorem Place.addSr (e : BitVec 1) (d : BitVec 6) (a : BitVec 6) (b : BitVec 6) : Place.Statement (.addSr e d a b) :=
  place_of (p := isS) (fun _ h => left2 h) class_isS
theorem Place.addSi (e : BitVec 1) (d : BitVec 6) (a : BitVec 6) (i : BitVec 12) : Place.Statement (.addSi e d a i) :=
  place_of (p := isS) (fun _ h => left2 h) class_isS
theorem Place.subSr (e : BitVec 1) (d : BitVec 6) (a : BitVec 6) (b : BitVec 6) : Place.Statement (.subSr e d a b) :=
  place_of (p := isS) (fun _ h => left2 h) class_isS
theorem Place.subSi (e : BitVec 1) (d : BitVec 6) (a : BitVec 6) (i : BitVec 12) : Place.Statement (.subSi e d a i) :=
  place_of (p := isS) (fun _ h => left2 h) class_isS
theorem Place.mulSr (e : BitVec 1) (d : BitVec 6) (a : BitVec 6) (b : BitVec 6) : Place.Statement (.mulSr e d a b) :=
  place_of (p := isS) (fun _ h => left2 h) class_isS
theorem Place.mulSi (e : BitVec 1) (d : BitVec 6) (a : BitVec 6) (i : BitVec 12) : Place.Statement (.mulSi e d a i) :=
  place_of (p := isS) (fun _ h => left2 h) class_isS
theorem Place.mulhSr (e : BitVec 1) (d : BitVec 6) (a : BitVec 6) (b : BitVec 6) (u : BitVec 1) : Place.Statement (.mulhSr e d a b u) :=
  place_of (p := isS) (fun _ h => left2 h) class_isS
theorem Place.mulhSi (e : BitVec 1) (d : BitVec 6) (a : BitVec 6) (i : BitVec 12) : Place.Statement (.mulhSi e d a i) :=
  place_of (p := isS) (fun _ h => left2 h) class_isS
theorem Place.divSr (e : BitVec 1) (d : BitVec 6) (a : BitVec 6) (b : BitVec 6) (u : BitVec 1) : Place.Statement (.divSr e d a b u) :=
  place_of (p := isS) (fun _ h => left2 h) class_isS
theorem Place.divSi (e : BitVec 1) (d : BitVec 6) (a : BitVec 6) (i : BitVec 12) : Place.Statement (.divSi e d a i) :=
  place_of (p := isS) (fun _ h => left2 h) class_isS
theorem Place.remSr (e : BitVec 1) (d : BitVec 6) (a : BitVec 6) (b : BitVec 6) (u : BitVec 1) : Place.Statement (.remSr e d a b u) :=
  place_of (p := isS) (fun _ h => left2 h) class_isS
theorem Place.remSi (e : BitVec 1) (d : BitVec 6) (a : BitVec 6) (i : BitVec 12) : Place.Statement (.remSi e d a i) :=
  place_of (p := isS) (fun _ h => left2 h) class_isS
theorem Place.andSr (e : BitVec 1) (d : BitVec 6) (a : BitVec 6) (b : BitVec 6) : Place.Statement (.andSr e d a b) :=
  place_of (p := isS) (fun _ h => left2 h) class_isS
theorem Place.andSi (e : BitVec 1) (d : BitVec 6) (a : BitVec 6) (i : BitVec 12) : Place.Statement (.andSi e d a i) :=
  place_of (p := isS) (fun _ h => left2 h) class_isS
theorem Place.orSr (e : BitVec 1) (d : BitVec 6) (a : BitVec 6) (b : BitVec 6) : Place.Statement (.orSr e d a b) :=
  place_of (p := isS) (fun _ h => left2 h) class_isS
theorem Place.orSi (e : BitVec 1) (d : BitVec 6) (a : BitVec 6) (i : BitVec 12) : Place.Statement (.orSi e d a i) :=
  place_of (p := isS) (fun _ h => left2 h) class_isS
theorem Place.xorSr (e : BitVec 1) (d : BitVec 6) (a : BitVec 6) (b : BitVec 6) : Place.Statement (.xorSr e d a b) :=
  place_of (p := isS) (fun _ h => left2 h) class_isS
theorem Place.xorSi (e : BitVec 1) (d : BitVec 6) (a : BitVec 6) (i : BitVec 12) : Place.Statement (.xorSi e d a i) :=
  place_of (p := isS) (fun _ h => left2 h) class_isS
theorem Place.andnSr (e : BitVec 1) (d : BitVec 6) (a : BitVec 6) (b : BitVec 6) : Place.Statement (.andnSr e d a b) :=
  place_of (p := isS) (fun _ h => left2 h) class_isS
theorem Place.andnSi (e : BitVec 1) (d : BitVec 6) (a : BitVec 6) (i : BitVec 12) : Place.Statement (.andnSi e d a i) :=
  place_of (p := isS) (fun _ h => left2 h) class_isS
theorem Place.shlSr (e : BitVec 1) (d : BitVec 6) (a : BitVec 6) (b : BitVec 6) : Place.Statement (.shlSr e d a b) :=
  place_of (p := isS) (fun _ h => left2 h) class_isS
theorem Place.shlSi (e : BitVec 1) (d : BitVec 6) (a : BitVec 6) (i : BitVec 12) : Place.Statement (.shlSi e d a i) :=
  place_of (p := isS) (fun _ h => left2 (left2 h)) class_isS
theorem Place.shrSr (e : BitVec 1) (d : BitVec 6) (a : BitVec 6) (b : BitVec 6) : Place.Statement (.shrSr e d a b) :=
  place_of (p := isS) (fun _ h => left2 h) class_isS
theorem Place.shrSi (e : BitVec 1) (d : BitVec 6) (a : BitVec 6) (i : BitVec 12) : Place.Statement (.shrSi e d a i) :=
  place_of (p := isS) (fun _ h => left2 (left2 h)) class_isS
theorem Place.sraSr (e : BitVec 1) (d : BitVec 6) (a : BitVec 6) (b : BitVec 6) : Place.Statement (.sraSr e d a b) :=
  place_of (p := isS) (fun _ h => left2 h) class_isS
theorem Place.sraSi (e : BitVec 1) (d : BitVec 6) (a : BitVec 6) (i : BitVec 12) : Place.Statement (.sraSi e d a i) :=
  place_of (p := isS) (fun _ h => left2 (left2 h)) class_isS
theorem Place.rolSr (e : BitVec 1) (d : BitVec 6) (a : BitVec 6) (b : BitVec 6) : Place.Statement (.rolSr e d a b) :=
  place_of (p := isS) (fun _ h => left2 h) class_isS
theorem Place.rolSi (e : BitVec 1) (d : BitVec 6) (a : BitVec 6) (i : BitVec 12) : Place.Statement (.rolSi e d a i) :=
  place_of (p := isS) (fun _ h => left2 (left2 h)) class_isS
theorem Place.cmpSr (e : BitVec 1) (d : BitVec 6) (a : BitVec 6) (b : BitVec 6) (c : BitVec 6) : Place.Statement (.cmpSr e d a b c) :=
  place_of (p := isS) (fun _ h => left2 (left2 h)) class_isS
theorem Place.cmpSi (e : BitVec 1) (d : BitVec 6) (a : BitVec 6) (c : BitVec 3) (i : BitVec 9) : Place.Statement (.cmpSi e d a c i) :=
  place_of (p := isS) (fun _ h => left2 (left2 h)) class_isS
theorem Place.minSr (e : BitVec 1) (d : BitVec 6) (a : BitVec 6) (b : BitVec 6) (u : BitVec 1) : Place.Statement (.minSr e d a b u) :=
  place_of (p := isS) (fun _ h => left2 h) class_isS
theorem Place.minSi (e : BitVec 1) (d : BitVec 6) (a : BitVec 6) (i : BitVec 12) : Place.Statement (.minSi e d a i) :=
  place_of (p := isS) (fun _ h => left2 h) class_isS
theorem Place.maxSr (e : BitVec 1) (d : BitVec 6) (a : BitVec 6) (b : BitVec 6) (u : BitVec 1) : Place.Statement (.maxSr e d a b u) :=
  place_of (p := isS) (fun _ h => left2 h) class_isS
theorem Place.maxSi (e : BitVec 1) (d : BitVec 6) (a : BitVec 6) (i : BitVec 12) : Place.Statement (.maxSi e d a i) :=
  place_of (p := isS) (fun _ h => left2 h) class_isS
theorem Place.sel (e : BitVec 1) (d : BitVec 6) (a : BitVec 6) (b : BitVec 6) (f : BitVec 6) : Place.Statement (.sel e d a b f) :=
  place_of (p := isS) (fun _ h => left2 h) class_isS
theorem Place.bitcClz (e : BitVec 1) (d : BitVec 6) (a : BitVec 6) : Place.Statement (.bitcClz e d a) :=
  place_of (p := isS) (fun _ h => left2 h) class_isS
theorem Place.bitcCtz (e : BitVec 1) (d : BitVec 6) (a : BitVec 6) : Place.Statement (.bitcCtz e d a) :=
  place_of (p := isS) (fun _ h => left2 h) class_isS
theorem Place.bitcPopc (e : BitVec 1) (d : BitVec 6) (a : BitVec 6) : Place.Statement (.bitcPopc e d a) :=
  place_of (p := isS) (fun _ h => left2 h) class_isS
theorem Place.bitcBrev (e : BitVec 1) (d : BitVec 6) (a : BitVec 6) : Place.Statement (.bitcBrev e d a) :=
  place_of (p := isS) (fun _ h => left2 h) class_isS
theorem Place.extSr (e : BitVec 1) (d : BitVec 6) (a : BitVec 6) (b : BitVec 6) (s : BitVec 1) : Place.Statement (.extSr e d a b s) :=
  place_of (p := isS) (fun _ h => left2 h) class_isS
theorem Place.extSi (e : BitVec 1) (d : BitVec 6) (a : BitVec 6) (l : BitVec 6) (p : BitVec 6) : Place.Statement (.extSi e d a l p) :=
  place_of (p := isS) (fun _ h => left2 h) class_isS
theorem Place.li (e : BitVec 1) (d : BitVec 6) (i : BitVec 18) : Place.Statement (.li e d i) :=
  place_of (p := isS) (fun _ h => left2 h) class_isS
theorem Place.lis (e : BitVec 1) (d : BitVec 6) (i : BitVec 18) : Place.Statement (.lis e d i) :=
  place_of (p := isS) (fun _ h => left2 h) class_isS
theorem Place.movc (e : BitVec 1) (d : BitVec 6) (c : BitVec 12) : Place.Statement (.movc e d c) :=
  place_of (p := isS) (fun _ h => left2 (left2 h)) class_isS
theorem Place.movtc (e : BitVec 1) (a : BitVec 6) (c : BitVec 12) : Place.Statement (.movtc e a c) :=
  place_of (p := isS) (fun _ h => left2 (left2 h)) class_isS
theorem Place.crEventsWrite (value : Word) : Place.Statement (.crEventsWrite value) := place_event (fun _ => rfl)
theorem Place.crTimerWrite (value : Word) : Place.Statement (.crTimerWrite value) := place_event (fun _ => rfl)
theorem Place.crBatonsWrite (value : Word) : Place.Statement (.crBatonsWrite value) := place_event (fun _ => rfl)
theorem Place.crWatchdogWrite (value : Word) : Place.Statement (.crWatchdogWrite value) := place_event (fun _ => rfl)
theorem Place.crFpflagsWrite (engines : Mask) (value : Word) : Place.Statement (.crFpflagsWrite engines value) := place_event (fun _ => rfl)
theorem Place.crStkdepthWrite (value : Word) : Place.Statement (.crStkdepthWrite value) := place_event (fun _ => rfl)
theorem Place.crRcutWrite (engines : Mask) (value : Word) : Place.Statement (.crRcutWrite engines value) := place_event (fun _ => rfl)
theorem Place.gpredSet (d : BitVec 6) (a : BitVec 6) : Place.Statement (.gpredSet d a) :=
  place_of (p := isS) (fun _ h => left2 (left2 h)) class_isS
theorem Place.gpredAnd (d : BitVec 6) (a : BitVec 6) (b : BitVec 6) : Place.Statement (.gpredAnd d a b) :=
  place_of (p := isS) (fun _ h => left2 (left2 (left2 (left2 h)))) class_isS
theorem Place.gpredOr (d : BitVec 6) (a : BitVec 6) (b : BitVec 6) : Place.Statement (.gpredOr d a b) :=
  place_of (p := isS) (fun _ h => left2 (left2 (left2 (left2 h)))) class_isS
theorem Place.gpredAndn (d : BitVec 6) (a : BitVec 6) (b : BitVec 6) : Place.Statement (.gpredAndn d a b) :=
  place_of (p := isS) (fun _ h => left2 (left2 (left2 (left2 h)))) class_isS
theorem Place.gpredXor (d : BitVec 6) (a : BitVec 6) (b : BitVec 6) : Place.Statement (.gpredXor d a b) :=
  place_of (p := isS) (fun _ h => left2 (left2 (left2 (left2 h)))) class_isS
theorem Place.gpredNot (d : BitVec 6) (a : BitVec 6) : Place.Statement (.gpredNot d a) :=
  place_of (p := isS) (fun _ h => left2 (left2 (left2 h))) class_isS
theorem Place.gpredFroms (d : BitVec 6) (a : BitVec 6) : Place.Statement (.gpredFroms d a) :=
  place_of (p := isS) (fun _ h => left2 (left2 h)) class_isS
theorem Place.gpredRange (d : BitVec 6) (a : BitVec 6) (h : BitVec 4) (l : BitVec 4) : Place.Statement (.gpredRange d a h l) :=
  place_of (p := isS) (fun _ h => left2 (left2 (left2 h))) class_isS
theorem Place.gqryMask (d : BitVec 6) (a : BitVec 6) : Place.Statement (.gqryMask d a) :=
  place_of (p := isS) (fun _ h => left2 h) class_isS
theorem Place.gqryMaskE (d : BitVec 6) (a : BitVec 6) : Place.Statement (.gqryMaskE d a) :=
  place_of (p := isS) (fun _ h => left2 (left2 (left2 h))) class_isS
theorem Place.gqryCount (d : BitVec 6) (a : BitVec 6) : Place.Statement (.gqryCount d a) :=
  place_of (p := isS) (fun _ h => left2 h) class_isS
theorem Place.gqryAny (d : BitVec 6) (a : BitVec 6) : Place.Statement (.gqryAny d a) :=
  place_of (p := isS) (fun _ h => left2 h) class_isS
theorem Place.gqryAll (d : BitVec 6) (a : BitVec 6) : Place.Statement (.gqryAll d a) :=
  place_of (p := isS) (fun _ h => left2 h) class_isS
theorem Place.gqryFirst (d : BitVec 6) (a : BitVec 6) : Place.Statement (.gqryFirst d a) :=
  place_of (p := isS) (fun _ h => left2 h) class_isS
theorem Place.gqryAct (d : BitVec 6) : Place.Statement (.gqryAct d) :=
  place_of (p := isS) (fun _ h => h) class_isS
theorem Place.gqryBit (d : BitVec 6) (a : BitVec 6) (n : BitVec 4) : Place.Statement (.gqryBit d a n) :=
  place_of (p := isS) (fun _ h => left2 h) class_isS
theorem Place.egetSr (d : BitVec 6) (a : BitVec 6) (b : BitVec 6) : Place.Statement (.egetSr d a b) :=
  place_of (p := isS) (fun _ h => left2 h) class_isS
theorem Place.egetSi (d : BitVec 6) (n : BitVec 4) (b : BitVec 4) : Place.Statement (.egetSi d n b) :=
  place_of (p := isS) (fun _ h => h) class_isS
theorem Place.eputSr (d : BitVec 6) (a : BitVec 6) (b : BitVec 6) : Place.Statement (.eputSr d a b) :=
  place_of (p := isS) (fun _ h => left2 (left2 h)) class_isS
theorem Place.eputSi (d : BitVec 6) (a : BitVec 6) (i : BitVec 12) : Place.Statement (.eputSi d a i) :=
  place_of (p := isS) (fun _ h => left2 (left2 h)) class_isS
theorem Place.shpSr (e : BitVec 1) (d : BitVec 6) (a : BitVec 6) : Place.Statement (.shpSr e d a) :=
  place_of (p := isS) (fun _ h => left2 h) class_isS
theorem Place.shpK (e : BitVec 1) (d : BitVec 6) (k : BitVec 12) : Place.Statement (.shpK e d k) :=
  place_of (p := isS) (fun _ h => left2 (left2 (left2 (left2 h)))) class_isS
theorem Place.asetSr (e : BitVec 1) (d : BitVec 6) (a : BitVec 6) (b : BitVec 6) : Place.Statement (.asetSr e d a b) :=
  place_of (p := isS) (fun _ h => left2 h) class_isS
theorem Place.asetSi (e : BitVec 1) (d : BitVec 6) (a : BitVec 6) (i : BitVec 12) : Place.Statement (.asetSi e d a i) :=
  place_of (p := isS) (fun _ h => left2 h) class_isS
theorem Place.astrSr (e : BitVec 1) (d : BitVec 6) (a : BitVec 6) (b : BitVec 6) : Place.Statement (.astrSr e d a b) :=
  place_of (p := isS) (fun _ h => left2 h) class_isS
theorem Place.astrSi (e : BitVec 1) (d : BitVec 6) (a : BitVec 6) (i : BitVec 12) : Place.Statement (.astrSi e d a i) :=
  place_of (p := isS) (fun _ h => left2 h) class_isS
theorem Place.engwSr (e : BitVec 1) (d : BitVec 6) (a : BitVec 6) (b : BitVec 6) (u : BitVec 6) : Place.Statement (.engwSr e d a b u) :=
  place_of (p := isS) (fun _ h => left2 (left2 (left2 h))) class_isS
theorem Place.engwSi (e : BitVec 1) (d : BitVec 6) (a : BitVec 6) (u : BitVec 2) (i : BitVec 10) : Place.Statement (.engwSi e d a u i) :=
  place_of (p := isS) (fun _ h => left2 (left2 h)) class_isS
theorem Place.enggoCp0 (p : BitVec 6) (x : BitVec 6) (y : BitVec 6) (z : BitVec 6) : Place.Statement (.enggoCp0 p x y z) :=
  place_of (p := isS) (fun _ h => left2 (left2 (left2 (left2 h)))) class_isS
theorem Place.enggoCp1 (p : BitVec 6) (x : BitVec 6) (y : BitVec 6) (z : BitVec 6) : Place.Statement (.enggoCp1 p x y z) :=
  place_of (p := isS) (fun _ h => left2 (left2 (left2 (left2 h)))) class_isS
theorem Place.enggoIw (p : BitVec 6) (x : BitVec 6) (y : BitVec 6) (z : BitVec 6) : Place.Statement (.enggoIw p x y z) :=
  place_of (p := isS) (fun _ h => left2 (left2 (left2 (left2 h)))) class_isS
theorem Place.enggoCl (p : BitVec 6) (x : BitVec 6) (y : BitVec 6) (z : BitVec 6) : Place.Statement (.enggoCl p x y z) :=
  place_of (p := isS) (fun _ h => left2 (left2 (left2 (left2 h)))) class_isS
theorem Place.bwait (d : BitVec 6) (a : BitVec 6) (k : BitVec 1) (n : BitVec 1) : Place.Statement (.bwait d a k n) :=
  place_of (p := (· == .s0)) (fun _ h => h) (class_eq .s0)
theorem Place.wait (d : BitVec 6) (k : BitVec 1) (a : BitVec 1) (m : BitVec 4) : Place.Statement (.wait d k a m) :=
  place_of (p := (· == .s0)) (fun _ h => left2 h) (class_eq .s0)
theorem Place.signalSr (a : BitVec 6) : Place.Statement (.signalSr a) :=
  place_of (p := isS) (fun _ h => h) class_isS
theorem Place.signalSi (p : BitVec 5) : Place.Statement (.signalSi p) :=
  place_of (p := isS) (fun _ h => h) class_isS
theorem Place.lapsetSr (a : BitVec 6) : Place.Statement (.lapsetSr a) :=
  place_of (p := isS) (fun _ h => h) class_isS
theorem Place.lapsetSi (h : BitVec 4) (l : BitVec 4) : Place.Statement (.lapsetSi h l) :=
  place_of (p := isS) (fun _ h => h) class_isS
theorem Place.jmp (o : BitVec 20) : Place.Statement (.jmp o) :=
  place_of (p := (· == .s0)) (fun _ h => h) (class_eq .s0)
theorem Place.bz (a : BitVec 6) (o : BitVec 20) : Place.Statement (.bz a o) :=
  place_of (p := (· == .s0)) (fun _ h => h) (class_eq .s0)
theorem Place.bnz (a : BitVec 6) (o : BitVec 20) : Place.Statement (.bnz a o) :=
  place_of (p := (· == .s0)) (fun _ h => h) (class_eq .s0)
theorem Place.bltz (a : BitVec 6) (o : BitVec 20) : Place.Statement (.bltz a o) :=
  place_of (p := (· == .s0)) (fun _ h => h) (class_eq .s0)
theorem Place.call (o : BitVec 20) : Place.Statement (.call o) :=
  place_of (p := (· == .s0)) (fun _ h => h) (class_eq .s0)
theorem Place.loop (a : BitVec 6) (o : BitVec 20) : Place.Statement (.loop a o) :=
  place_of (p := (· == .s0)) (fun _ h => left2 h) (class_eq .s0)
theorem Place.bmz (a : BitVec 6) (o : BitVec 20) : Place.Statement (.bmz a o) :=
  place_of (p := (· == .s0)) (fun _ h => left2 (left2 h)) (class_eq .s0)
theorem Place.gif (a : BitVec 6) (o : BitVec 20) : Place.Statement (.gif a o) :=
  place_of (p := (· == .s0)) (fun _ h => left2 h) (class_eq .s0)
theorem Place.gelse (o : BitVec 20) : Place.Statement (.gelse o) :=
  place_of (p := (· == .s0)) (fun _ h => h) (class_eq .s0)
theorem Place.gsplit (a : BitVec 6) (o : BitVec 20) : Place.Statement (.gsplit a o) :=
  place_of (p := (· == .s0)) (fun _ h => left2 h) (class_eq .s0)
theorem Place.bar (l : BitVec 6) : Place.Statement (.bar l) :=
  place_of (p := (· == .s0)) (fun _ h => left2 h) (class_eq .s0)
theorem Place.sysLaunch (a : BitVec 6) (b : BitVec 6) : Place.Statement (.sysLaunch a b) :=
  place_of (p := (· == .s0)) (fun _ h => h) (class_eq .s0)
theorem Place.sysCancel (a : BitVec 6) : Place.Statement (.sysCancel a) :=
  place_of (p := (· == .s0)) (fun _ h => h) (class_eq .s0)
theorem Place.sysStkspill (d : BitVec 6) : Place.Statement (.sysStkspill d) :=
  place_of (p := (· == .s0)) (fun _ h => left2 h) (class_eq .s0)
theorem Place.sysStkfill (a : BitVec 6) : Place.Statement (.sysStkfill a) :=
  place_of (p := (· == .s0)) (fun _ h => left2 h) (class_eq .s0)
theorem Place.vadd (f : VFields) : Place.Statement (.vadd f) :=
  place_of (p := isVSlot) (fun _ h => left2 h) class_isV
theorem Place.vsub (f : VFields) : Place.Statement (.vsub f) :=
  place_of (p := isVSlot) (fun _ h => left2 h) class_isV
theorem Place.vmul (f : VFields) : Place.Statement (.vmul f) :=
  place_of (p := isVSlot) (fun _ h => left2 h) class_isV
theorem Place.vfma (f : VFields) : Place.Statement (.vfma f) :=
  place_of (p := isVSlot) (fun _ h => left2 (left2 h)) class_isV
theorem Place.vfnma (f : VFields) : Place.Statement (.vfnma f) :=
  place_of (p := isVSlot) (fun _ h => left2 (left2 h)) class_isV
theorem Place.vmin (f : VFields) : Place.Statement (.vmin f) :=
  place_of (p := isVSlot) (fun _ h => left2 (left2 (left2 h))) class_isV
theorem Place.vmax (f : VFields) : Place.Statement (.vmax f) :=
  place_of (p := isVSlot) (fun _ h => left2 (left2 (left2 h))) class_isV
theorem Place.vabs (f : VFields) : Place.Statement (.vabs f) :=
  place_of (p := isVSlot) (fun _ h => left2 (left2 (left2 h))) class_isV
theorem Place.vneg (f : VFields) : Place.Statement (.vneg f) :=
  place_of (p := isVSlot) (fun _ h => left2 (left2 (left2 h))) class_isV
theorem Place.vand (f : VFields) : Place.Statement (.vand f) :=
  place_of (p := isVSlot) (fun _ h => left2 (left2 (left2 (left2 h)))) class_isV
theorem Place.vor (f : VFields) : Place.Statement (.vor f) :=
  place_of (p := isVSlot) (fun _ h => left2 (left2 (left2 (left2 h)))) class_isV
theorem Place.vxor (f : VFields) : Place.Statement (.vxor f) :=
  place_of (p := isVSlot) (fun _ h => left2 (left2 (left2 (left2 h)))) class_isV
theorem Place.vshl (f : VFields) : Place.Statement (.vshl f) :=
  place_of (p := isVSlot) (fun _ h => left2 (left2 (left2 (left2 h)))) class_isV
theorem Place.vshr (f : VFields) : Place.Statement (.vshr f) :=
  place_of (p := isVSlot) (fun _ h => left2 (left2 (left2 (left2 h)))) class_isV
theorem Place.vsra (f : VFields) : Place.Statement (.vsra f) :=
  place_of (p := isVSlot) (fun _ h => left2 (left2 (left2 (left2 h)))) class_isV
theorem Place.vcmp (f : VFields) : Place.Statement (.vcmp f) :=
  place_of (p := isVSlot) (fun _ h => left2 (left2 (left2 (left2 (left2 (left2 (left2 h))))))) class_isV
theorem Place.vsel (f : VFields) : Place.Statement (.vsel f) :=
  place_of (p := isVSlot) (fun _ h => left2 (left2 (left2 (left2 h)))) class_isV
theorem Place.vmov (f : VFields) : Place.Statement (.vmov f) :=
  place_of (p := isVSlot) (fun _ h => left2 (left2 (left2 h))) class_isV
theorem Place.vxfer (f : VFields) : Place.Statement (.vxfer f) :=
  place_of (p := isVSlot) (fun _ h => left2 (left2 (left2 (left2 (left2 h))))) class_isV
theorem Place.vcvt (f : VFields) : Place.Statement (.vcvt f) :=
  place_of (p := isVSlot) (fun _ h => left2 (left2 (left2 (left2 (left2 (left2 h)))))) class_isV
theorem Place.vdecb (f : VFields) : Place.Statement (.vdecb f) :=
  place_of (p := isVSlot) (fun _ h => left2 (left2 (left2 (left2 h)))) class_isV
theorem Place.vencb (f : VFields) : Place.Statement (.vencb f) :=
  place_of (p := isVSlot) (fun _ h => left2 (left2 (left2 (left2 h)))) class_isV
theorem Place.vclass (f : VFields) : Place.Statement (.vclass f) :=
  place_of (p := isVSlot) (fun _ h => left2 (left2 (left2 (left2 h)))) class_isV
theorem Place.vrng (f : VFields) : Place.Statement (.vrng f) :=
  place_of (p := isVSlot) (fun _ h => left2 (left2 (left2 (left2 h)))) class_isV
theorem Place.vtopki (f : VFields) : Place.Statement (.vtopki f) :=
  place_of (p := isVSlot) (fun _ h => left2 (left2 (left2 (left2 (left2 (left2 (left2 (left2 (left2 h))))))))) class_isV
theorem Place.viota (f : VFields) : Place.Statement (.viota f) :=
  place_of (p := isVSlot) (fun _ h => left2 (left2 (left2 (left2 h)))) class_isV
theorem Place.vmulh (f : VFields) : Place.Statement (.vmulh f) :=
  place_of (p := isVSlot) (fun _ h => left2 (left2 (left2 (left2 h)))) class_isV
theorem Place.vadds (f : VFields) : Place.Statement (.vadds f) :=
  place_of (p := isVSlot) (fun _ h => left2 (left2 (left2 (left2 h)))) class_isV
theorem Place.vdot4 (f : VFields) : Place.Statement (.vdot4 f) :=
  place_of (p := isVSlot) (fun _ h => left2 (left2 (left2 (left2 (left2 (left2 h)))))) class_isV
theorem Place.vpopc (f : VFields) : Place.Statement (.vpopc f) :=
  place_of (p := isVSlot) (fun _ h => left2 (left2 (left2 (left2 h)))) class_isV
theorem Place.vclz (f : VFields) : Place.Statement (.vclz f) :=
  place_of (p := isVSlot) (fun _ h => left2 (left2 (left2 (left2 h)))) class_isV
theorem Place.vext (f : VFields) : Place.Statement (.vext f) :=
  place_of (p := isVSlot) (fun _ h => left2 (left2 (left2 (left2 (left2 (left2 (left2 (left2 h)))))))) class_isV
theorem Place.vins (f : VFields) : Place.Statement (.vins f) :=
  place_of (p := isVSlot) (fun _ h => left2 (left2 h)) class_isV
theorem Place.vladd (f : VFields) : Place.Statement (.vladd f) :=
  place_of (p := isVSlot) (fun _ h => left2 (left2 (left2 (left2 h)))) class_isV
theorem Place.vlsub (f : VFields) : Place.Statement (.vlsub f) :=
  place_of (p := isVSlot) (fun _ h => left2 (left2 (left2 (left2 h)))) class_isV
theorem Place.vlshl (f : VFields) : Place.Statement (.vlshl f) :=
  place_of (p := isVSlot) (fun _ h => left2 (left2 (left2 (left2 (left2 h))))) class_isV
theorem Place.vlshr (f : VFields) : Place.Statement (.vlshr f) :=
  place_of (p := isVSlot) (fun _ h => left2 (left2 (left2 (left2 (left2 h))))) class_isV
theorem Place.vlcmp (f : VFields) : Place.Statement (.vlcmp f) :=
  place_of (p := isVSlot) (fun _ h => left2 (left2 (left2 (left2 (left2 h))))) class_isV
theorem Place.vlmul (f : VFields) : Place.Statement (.vlmul f) :=
  place_of (p := isVSlot) (fun _ h => left2 (left2 (left2 (left2 (left2 (left2 h)))))) class_isV
theorem Place.bind (f : VFields) : Place.Statement (.bind f) :=
  place_of (p := isVSlot) (fun _ h => left2 (left2 (left2 (left2 (left2 (left2 (left2 (left2 h)))))))) class_isV
theorem Place.rcp (w : BitVec 2) (t : BitVec 2) (d : BitVec 5) (a : BitVec 5) (m : BitVec 3) : Place.Statement (.rcp w t d a m) :=
  place_of (p := (· == .f)) (fun _ h => left2 (left2 h)) (class_eq .f)
theorem Place.rsq (w : BitVec 2) (t : BitVec 2) (d : BitVec 5) (a : BitVec 5) (m : BitVec 3) : Place.Statement (.rsq w t d a m) :=
  place_of (p := (· == .f)) (fun _ h => left2 (left2 h)) (class_eq .f)
theorem Place.sqrt (w : BitVec 2) (t : BitVec 2) (d : BitVec 5) (a : BitVec 5) (m : BitVec 3) : Place.Statement (.sqrt w t d a m) :=
  place_of (p := (· == .f)) (fun _ h => left2 (left2 h)) (class_eq .f)
theorem Place.exp2 (w : BitVec 2) (t : BitVec 2) (d : BitVec 5) (a : BitVec 5) (m : BitVec 3) : Place.Statement (.exp2 w t d a m) :=
  place_of (p := (· == .f)) (fun _ h => left2 (left2 h)) (class_eq .f)
theorem Place.log2 (w : BitVec 2) (t : BitVec 2) (d : BitVec 5) (a : BitVec 5) (m : BitVec 3) : Place.Statement (.log2 w t d a m) :=
  place_of (p := (· == .f)) (fun _ h => left2 (left2 h)) (class_eq .f)
theorem Place.tanh (w : BitVec 2) (t : BitVec 2) (d : BitVec 5) (a : BitVec 5) (m : BitVec 3) : Place.Statement (.tanh w t d a m) :=
  place_of (p := (· == .f)) (fun _ h => left2 (left2 h)) (class_eq .f)
theorem Place.sint (w : BitVec 2) (t : BitVec 2) (d : BitVec 5) (a : BitVec 5) (m : BitVec 3) : Place.Statement (.sint w t d a m) :=
  place_of (p := (· == .f)) (fun _ h => left2 (left2 h)) (class_eq .f)
theorem Place.cost (w : BitVec 2) (t : BitVec 2) (d : BitVec 5) (a : BitVec 5) (m : BitVec 3) : Place.Statement (.cost w t d a m) :=
  place_of (p := (· == .f)) (fun _ h => left2 (left2 h)) (class_eq .f)
theorem Place.erf (w : BitVec 2) (t : BitVec 2) (d : BitVec 5) (a : BitVec 5) (m : BitVec 3) : Place.Statement (.erf w t d a m) :=
  place_of (p := (· == .f)) (fun _ h => left2 (left2 h)) (class_eq .f)
theorem Place.rank (t : BitVec 2) (d : BitVec 5) (a : BitVec 5) (c : BitVec 2) (g : BitVec 2) : Place.Statement (.rank t d a c g) :=
  place_of (p := (· == .f)) (fun _ h => left2 h) (class_eq .f)
theorem Place.rankv (t : BitVec 2) (d : BitVec 5) (a : BitVec 5) (c : BitVec 2) (g : BitVec 2) : Place.Statement (.rankv t d a c g) :=
  place_of (p := (· == .f)) (fun _ h => left2 (left2 h)) (class_eq .f)
theorem Place.rankc (t : BitVec 2) (d : BitVec 5) (a : BitVec 5) (e : BitVec 2) (g : BitVec 2) : Place.Statement (.rankc t d a e g) :=
  place_of (p := (· == .f)) (fun _ h => left2 (left2 (left2 h))) (class_eq .f)
theorem Place.rmerge (t : BitVec 2) (d : BitVec 5) (a : BitVec 5) (c : BitVec 2) : Place.Statement (.rmerge t d a c) :=
  place_of (p := (· == .f)) (fun _ h => left2 (left2 h)) (class_eq .f)
theorem Place.unrank (t : BitVec 2) (d : BitVec 5) (a : BitVec 5) (n : BitVec 1) (s : BitVec 1) (g : BitVec 2) : Place.Statement (.unrank t d a n s g) :=
  place_of (p := (· == .f)) (fun _ h => left2 (left2 h)) (class_eq .f)
theorem Place.ld (r : BitVec 5) (m : BitVec 3) (s : BitVec 3) (q : BitVec 2) (i : BitVec 1) : Place.Statement (.ld r m s q i) :=
  place_of (p := isM) (fun _ h => left2 (left2 (left2 h))) class_isM
theorem Place.ldg (r : BitVec 5) (v : BitVec 9) (m : BitVec 3) (s : BitVec 3) (q : BitVec 2) (i : BitVec 1) : Place.Statement (.ldg r v m s q i) :=
  place_of (p := isM) (fun _ h => left2 (left2 (left2 (left2 h)))) class_isM
theorem Place.st (r : BitVec 5) (v : BitVec 9) (m : BitVec 3) (s : BitVec 3) (i : BitVec 1) : Place.Statement (.st r v m s i) :=
  place_of (p := isM) (fun _ h => left2 (left2 (left2 h))) class_isM
theorem Place.sts (r : BitVec 5) (v : BitVec 9) (m : BitVec 3) (s : BitVec 3) (i : BitVec 1) : Place.Statement (.sts r v m s i) :=
  place_of (p := isM) (fun _ h => left2 (left2 (left2 (left2 h)))) class_isM
theorem Place.ldl (r : BitVec 5) (m : BitVec 3) (q : BitVec 2) (i : BitVec 1) : Place.Statement (.ldl r m q i) :=
  place_of (p := isM) (fun _ h => left2 h) class_isM
theorem Place.stl (r : BitVec 5) (v : BitVec 9) (m : BitVec 3) (i : BitVec 1) : Place.Statement (.stl r v m i) :=
  place_of (p := isM) (fun _ h => left2 h) class_isM
theorem Place.atom (r : BitVec 5) (v : BitVec 9) (o : BitVec 4) (w : BitVec 1) (s : BitVec 3) (q : BitVec 3) : Place.Statement (.atom r v o w s q) :=
  place_of (p := isM) (fun _ h => left2 (left2 (left2 (left2 (left2 (left2 h)))))) class_isM
theorem Place.atomg (r : BitVec 5) (v : BitVec 9) (o : BitVec 4) (w : BitVec 1) (s : BitVec 3) (q : BitVec 3) : Place.Statement (.atomg r v o w s q) :=
  place_of (p := isM) (fun _ h => left2 (left2 (left2 (left2 (left2 (left2 h)))))) class_isM
theorem Place.fence (k : BitVec 3) (s : BitVec 3) : Place.Statement (.fence k s) :=
  place_of (p := isM) (fun _ h => left2 (left2 h)) class_isM
theorem Place.aadd (r : BitVec 5) (i : BitVec 21) : Place.Statement (.aadd r i) :=
  place_of (p := isM) (fun _ h => h) class_isM
theorem Place.pref (r : BitVec 5) (s : BitVec 3) (h : BitVec 3) (i : BitVec 1) : Place.Statement (.pref r s h i) :=
  place_of (p := isM) (fun _ h => left2 (left2 h)) class_isM
theorem Place.scopLd (r : BitVec 5) (q : BitVec 2) (i : BitVec 1) : Place.Statement (.scopLd r q i) :=
  place_of (p := isM) (fun _ h => left2 h) class_isM
theorem Place.scopSt (r : BitVec 5) (v : BitVec 9) (i : BitVec 1) : Place.Statement (.scopSt r v i) :=
  place_of (p := isM) (fun _ h => left2 h) class_isM
theorem Place.scopExch (r : BitVec 5) (v : BitVec 9) (q : BitVec 2) (i : BitVec 1) : Place.Statement (.scopExch r v q i) :=
  place_of (p := isM) (fun _ h => left2 (left2 h)) class_isM
theorem Place.scopCas (r : BitVec 5) (v : BitVec 9) (q : BitVec 2) (i : BitVec 1) : Place.Statement (.scopCas r v q i) :=
  place_of (p := isM) (fun _ h => left2 (left2 h)) class_isM
theorem Place.lapadd (r : BitVec 5) (n : BitVec 21) : Place.Statement (.lapadd r n) :=
  place_of (p := isM) (fun _ h => h) class_isM
theorem Place.rpass (r : BitVec 5) (v : BitVec 9) (s : BitVec 3) (q : BitVec 2) : Place.Statement (.rpass r v s q) :=
  place_of (p := isM) (fun _ h => left2 (left2 (left2 h))) class_isM
theorem Place.rtake (r : BitVec 5) (s : BitVec 3) (q : BitVec 2) : Place.Statement (.rtake r s q) :=
  place_of (p := isM) (fun _ h => left2 (left2 h)) class_isM
theorem Place.rtakeArm (r : BitVec 5) : Place.Statement (.rtakeArm r) :=
  place_of (p := isM) (fun _ h => h) class_isM
theorem Place.rtakeStat (r : BitVec 5) (q : BitVec 2) : Place.Statement (.rtakeStat r q) :=
  place_of (p := isM) (fun _ h => left2 h) class_isM
theorem Place.txbegin (m : BitVec 3) : Place.Statement (.txbegin m) :=
  place_of (p := isM) (fun _ h => h) class_isM
theorem Place.txbeginSerial (m : BitVec 3) : Place.Statement (.txbeginSerial m) :=
  place_of (p := isM) (fun _ h => h) class_isM
theorem Place.txend (q : BitVec 2) : Place.Statement (.txend q) :=
  place_of (p := isM) (fun _ h => left2 h) class_isM
theorem Place.txabort (m : BitVec 3) : Place.Statement (.txabort m) :=
  place_of (p := isM) (fun _ h => h) class_isM
theorem Place.pcommit (r : BitVec 5) (s : BitVec 1) (q : BitVec 2) : Place.Statement (.pcommit r s q) :=
  place_of (p := isM) (fun _ h => left2 h) class_isM
theorem Place.prelease (r : BitVec 5) (s : BitVec 1) (q : BitVec 2) : Place.Statement (.prelease r s q) :=
  place_of (p := isM) (fun _ h => left2 h) class_isM
theorem Place.tlbinv (r : BitVec 5) (v : BitVec 9) (s : BitVec 2) (q : BitVec 2) : Place.Statement (.tlbinv r v s q) :=
  place_of (p := isM) (fun _ h => left2 (left2 (left2 h))) class_isM
theorem Place.tlbinvAll (q : BitVec 2) : Place.Statement (.tlbinvAll q) :=
  place_of (p := isM) (fun _ h => left2 h) class_isM
theorem Place.mma (c : BitVec 3) (l : BitVec 2) (h : BitVec 3) (r : BitVec 5) (a : BitVec 3) (b : BitVec 3) (i : BitVec 1) (t : BitVec 1) (k : BitVec 2) : Place.Statement (.mma c l h r a b i t k) :=
  place_of (p := (· == .x)) (fun _ h => left2 (left2 h)) (class_eq .x)
theorem Place.mmas (c : BitVec 3) (l : BitVec 2) (h : BitVec 3) (r : BitVec 5) (a : BitVec 3) (b : BitVec 3) (i : BitVec 1) (t : BitVec 1) : Place.Statement (.mmas c l h r a b i t) :=
  place_of (p := (· == .x)) (fun _ h => left2 h) (class_eq .x)
theorem Place.mmar (c : BitVec 3) (l : BitVec 2) (h : BitVec 3) (r : BitVec 5) (b : BitVec 3) (i : BitVec 1) (t : BitVec 1) (n : BitVec 1) : Place.Statement (.mmar c l h r b i t n) :=
  place_of (p := (· == .x)) (fun _ h => left2 h) (class_eq .x)
theorem Place.latld (l : BitVec 2) (h : BitVec 3) (r : BitVec 5) (a : BitVec 3) (i : BitVec 1) : Place.Statement (.latld l h r a i) :=
  place_of (p := (· == .x)) (fun _ h => left2 h) (class_eq .x)
theorem Place.latldRank (l : BitVec 2) (h : BitVec 3) (r : BitVec 5) (i : BitVec 1) (n : BitVec 6) : Place.Statement (.latldRank l h r i n) :=
  place_of (p := (· == .x)) (fun _ h => h) (class_eq .x)
theorem Place.tzero (c : BitVec 3) : Place.Statement (.tzero c) :=
  place_of (p := (· == .x)) (fun _ h => h) (class_eq .x)
theorem Place.tld (c : BitVec 3) (h : BitVec 3) (r : BitVec 5) : Place.Statement (.tld c h r) :=
  place_of (p := (· == .x)) (fun _ h => h) (class_eq .x)
theorem Place.tst (c : BitVec 3) (h : BitVec 3) (r : BitVec 5) : Place.Statement (.tst c h r) :=
  place_of (p := (· == .x)) (fun _ h => h) (class_eq .x)
theorem Place.tadd (c : BitVec 3) (h : BitVec 3) (s : BitVec 3) : Place.Statement (.tadd c h s) :=
  place_of (p := (· == .x)) (fun _ h => h) (class_eq .x)
theorem Place.tscl (c : BitVec 3) (h : BitVec 3) (n : BitVec 2) : Place.Statement (.tscl c h n) :=
  place_of (p := (· == .x)) (fun _ h => h) (class_eq .x)
theorem Place.xperm (d : BitVec 5) (a : BitVec 5) (p : BitVec 2) : Place.Statement (.xperm d a p) :=
  place_of (p := (· == .l)) (fun _ h => h) (class_eq .l)
theorem Place.xshfl (d : BitVec 5) (a : BitVec 5) (p : BitVec 2) : Place.Statement (.xshfl d a p) :=
  place_of (p := (· == .l)) (fun _ h => h) (class_eq .l)
theorem Place.xred (d : BitVec 5) (a : BitVec 5) (p : BitVec 2) : Place.Statement (.xred d a p) :=
  place_of (p := (· == .l)) (fun _ h => h) (class_eq .l)
theorem Place.xscan (d : BitVec 5) (a : BitVec 5) (p : BitVec 2) : Place.Statement (.xscan d a p) :=
  place_of (p := (· == .l)) (fun _ h => h) (class_eq .l)
theorem Place.gvsh (d : BitVec 5) (a : BitVec 5) (p : BitVec 2) : Place.Statement (.gvsh d a p) :=
  place_of (p := (· == .l)) (fun _ h => h) (class_eq .l)
theorem Place.gvred (d : BitVec 5) (a : BitVec 5) (p : BitVec 2) : Place.Statement (.gvred d a p) :=
  place_of (p := (· == .l)) (fun _ h => h) (class_eq .l)
theorem Place.gshuf (d : BitVec 3) (s : BitVec 3) (m : BitVec 4) : Place.Statement (.gshuf d s m) :=
  place_of (p := (· == .l)) (fun _ h => h) (class_eq .l)
theorem Place.gred (d : BitVec 3) (s : BitVec 3) (q : BitVec 4) : Place.Statement (.gred d s q) :=
  place_of (p := (· == .l)) (fun _ h => h) (class_eq .l)
theorem Place.gbcst (d : BitVec 3) (s : BitVec 3) (n : BitVec 4) : Place.Statement (.gbcst d s n) :=
  place_of (p := (· == .l)) (fun _ h => h) (class_eq .l)
theorem Place.cbld (a : BitVec 5) (t : BitVec 3) : Place.Statement (.cbld a t) :=
  place_of (p := (· == .k)) (fun _ h => left2 h) (class_eq .k)
theorem Place.scld (a : BitVec 5) (t : BitVec 3) (h : BitVec 1) : Place.Statement (.scld a t h) :=
  place_of (p := (· == .k)) (fun _ h => left2 h) (class_eq .k)
theorem Place.atld (a : BitVec 5) (t : BitVec 3) : Place.Statement (.atld a t) :=
  place_of (p := (· == .k)) (fun _ h => left2 h) (class_eq .k)
theorem Place.xpld (a : BitVec 5) (t : BitVec 3) : Place.Statement (.xpld a t) :=
  place_of (p := (· == .k)) (fun _ h => left2 h) (class_eq .k)
theorem Place.stbs (a : BitVec 5) : Place.Statement (.stbs a) :=
  place_of (p := (· == .k)) (fun _ h => h) (class_eq .k)
theorem Place.powerGood : Place.Statement (.powerGood) := place_event (fun _ => rfl)
theorem Place.powerGoodWithdrawn : Place.Statement (.powerGoodWithdrawn) := place_event (fun _ => rfl)
theorem Place.thermalTrip : Place.Statement (.thermalTrip) := place_event (fun _ => rfl)
theorem Place.patrolScrub : Place.Statement (.patrolScrub) := place_event (fun _ => rfl)
theorem Place.ufpWrite : Place.Statement (.ufpWrite) := place_event (fun _ => rfl)
theorem Place.ufpRead : Place.Statement (.ufpRead) := place_event (fun _ => rfl)
theorem Place.ufpSend : Place.Statement (.ufpSend) := place_event (fun _ => rfl)
theorem Place.ufpAtomic : Place.Statement (.ufpAtomic) := place_event (fun _ => rfl)
theorem Place.ufpSubmit : Place.Statement (.ufpSubmit) := place_event (fun _ => rfl)
theorem Place.ufpAckSend : Place.Statement (.ufpAckSend) := place_event (fun _ => rfl)
theorem Place.ufpRetransmitTimeout : Place.Statement (.ufpRetransmitTimeout) := place_event (fun _ => rfl)
theorem Place.firmwareCommit : Place.Statement (.firmwareCommit) := place_event (fun _ => rfl)
theorem Place.getCertificate : Place.Statement (.getCertificate) := place_event (fun _ => rfl)
theorem Place.taskAccept : Place.Statement (.taskAccept) := place_event (fun _ => rfl)
theorem Place.taskReady : Place.Statement (.taskReady) := place_event (fun _ => rfl)
theorem Place.squadPlace : Place.Statement (.squadPlace) := place_event (fun _ => rfl)
theorem Place.agingExpiry : Place.Statement (.agingExpiry) := place_event (fun _ => rfl)
theorem Place.preemptionRequest : Place.Statement (.preemptionRequest) := place_event (fun _ => rfl)
theorem Place.preemptStop : Place.Statement (.preemptStop) := place_event (fun _ => rfl)
theorem Place.squadResume : Place.Statement (.squadResume) := place_event (fun _ => rfl)
theorem Place.gangExitComplete : Place.Statement (.gangExitComplete) := place_event (fun _ => rfl)
theorem Place.taskComplete : Place.Statement (.taskComplete) := place_event (fun _ => rfl)
theorem Place.autoCommit : Place.Statement (.autoCommit) := place_event (fun _ => rfl)
theorem Place.bundleIssue : Place.Statement (.bundleIssue) := place_event (fun _ => rfl)
theorem Place.batchRelease : Place.Statement (.batchRelease) := place_event (fun _ => rfl)
theorem Place.loadEntryResolve : Place.Statement (.loadEntryResolve) := place_event (fun _ => rfl)
theorem Place.scopPerform : Place.Statement (.scopPerform) := place_event (fun _ => rfl)
theorem Place.timingTrap : Place.Statement (.timingTrap) := place_event (fun _ => rfl)
theorem Place.longWaitHalt : Place.Statement (.longWaitHalt) := place_event (fun _ => rfl)
theorem Place.faultHalt : Place.Statement (.faultHalt) := place_event (fun _ => rfl)
theorem Place.timerExpiry : Place.Statement (.timerExpiry) := place_event (fun _ => rfl)
theorem Place.barrierOpen : Place.Statement (.barrierOpen) := place_event (fun _ => rfl)
theorem Place.waitWake : Place.Statement (.waitWake) := place_event (fun _ => rfl)
theorem Place.bwaitWake : Place.Statement (.bwaitWake) := place_event (fun _ => rfl)
theorem Place.gmergeWaitEnd : Place.Statement (.gmergeWaitEnd) := place_event (fun _ => rfl)
theorem Place.signalDelivery : Place.Statement (.signalDelivery) := place_event (fun _ => rfl)
theorem Place.arrayOpComplete : Place.Statement (.arrayOpComplete) := place_event (fun _ => rfl)
theorem Place.engineOpStart : Place.Statement (.engineOpStart) := place_event (fun _ => rfl)
theorem Place.copyChunkLand : Place.Statement (.copyChunkLand) := place_event (fun _ => rfl)
theorem Place.copyChunkFault : Place.Statement (.copyChunkFault) := place_event (fun _ => rfl)
theorem Place.copyComplete : Place.Statement (.copyComplete) := place_event (fun _ => rfl)
theorem Place.walkerBatchPush : Place.Statement (.walkerBatchPush) := place_event (fun _ => rfl)
theorem Place.walkerComplete : Place.Statement (.walkerComplete) := place_event (fun _ => rfl)
theorem Place.collectiveCommit : Place.Statement (.collectiveCommit) := place_event (fun _ => rfl)
theorem Place.collectiveTimeout : Place.Statement (.collectiveTimeout) := place_event (fun _ => rfl)
theorem Place.collectiveMemberComplete : Place.Statement (.collectiveMemberComplete) := place_event (fun _ => rfl)
theorem Place.ringWatchEvent : Place.Statement (.ringWatchEvent) := place_event (fun _ => rfl)
theorem Place.txCommit : Place.Statement (.txCommit) := place_event (fun _ => rfl)
theorem Place.txEntryResolve : Place.Statement (.txEntryResolve) := place_event (fun _ => rfl)
theorem Place.serialLockGrant : Place.Statement (.serialLockGrant) := place_event (fun _ => rfl)
theorem Place.serialLockRelease : Place.Statement (.serialLockRelease) := place_event (fun _ => rfl)
theorem Place.invalidationAck : Place.Statement (.invalidationAck) := place_event (fun _ => rfl)
theorem Place.frameReturn : Place.Statement (.frameReturn) := place_event (fun _ => rfl)
theorem Place.signalOthers : Place.Statement (.signalOthers) :=
  place_of (p := isS) (fun _ h => h) class_isS
theorem Place.ret : Place.Statement (.ret) :=
  place_of (p := (· == .s0)) (fun _ h => h) (class_eq .s0)
theorem Place.gjoin : Place.Statement (.gjoin) :=
  place_of (p := (· == .s0)) (fun _ h => h) (class_eq .s0)
theorem Place.gmerge : Place.Statement (.gmerge) :=
  place_of (p := (· == .s0)) (fun _ h => h) (class_eq .s0)
theorem Place.sysExit : Place.Statement (.sysExit) :=
  place_of (p := (· == .s0)) (fun _ h => h) (class_eq .s0)
theorem Place.sysBrk : Place.Statement (.sysBrk) :=
  place_of (p := (· == .s0)) (fun _ h => h) (class_eq .s0)
theorem Place.qsync : Place.Statement (.qsync) :=
  place_of (p := isM) (fun _ h => h) class_isM
theorem Place.hubFailure : Place.Statement (.hubFailure) := place_event (fun _ => rfl)

end Sys2Proof.Laws
end

