-- ==== Sys2Proof/Tests/Slice0.lean ====
section
/-! SUPPORT. Tests: words written out from the spec's encodings, ill-formed terms that the checks refuse, single steps on small
states, and for each statement a state and operands that meet its hypotheses. -/

set_option Elab.async false

namespace Sys2Proof.Tests
open Sys2Proof.Machine Sys2Proof.Claims

/-! ## Words written out from the encodings of R81, R93-R99 and the opcode map of R100 -/

theorem test_decode_s_register_form : decodeS 0b000110_1_0_000011_010000_000010_00000_1#32 = some (.remSr 1 3 16 2 1) := by decide
theorem test_decode_s_immediate_form : decodeS 0b001111_0_1_000111_000001_101_111111111#32 = some (.cmpSi 0 7 1 5 511) := by decide
theorem test_decode_s_function_field : decodeS 0b010011_0_0_000111_000001_000000_000010#32 = some (.bitcPopc 0 7 1) := by decide
theorem test_decode_control_register : decodeS 0b010111_0_1_000101_000000_000100000000#32 = some (.movc 0 5 0x100) := by decide
theorem test_decode_gang : decodeS 0b011001_0_0_000010_000001_000000_000110#32 = some (.gpredFroms 2 1) := by decide
theorem test_decode_branch : decodeS 0b110110_000010_00000000000000000101#32 = some (.loop 2 5) := by decide
theorem test_decode_system : decodeS 0xF8000001#32 = some .sysBrk := by decide
theorem test_decode_engine_operation : decodeS 0b100011_0_0_000001_000010_000011_000100#32 = some (.enggoIw 1 2 3 4) := by decide
theorem test_decode_v : decodeV 0b11_000100_000_011_001000000_000000001_011110000_111_0000#48 =
    some (.vfma { w := 3, t := 0, rm := 3, d := 64, a := 1, b := 240, m := 7, c := 0 }) := by decide
theorem test_decode_f : decodeF 0b010000_11_00_00101_00010_01_10#24 = some (.rank 0 5 2 1 2) := by decide
theorem test_decode_m_load : decodeM 0b000001_00011_000000000_010_101_000_01_1#32 = some (.ld 3 2 5 1 1) := by decide
theorem test_decode_m_atomic : decodeM 0b000111_00011_000001000_1001_1_010_001_0#32 = some (.atom 3 8 9 1 2 1) := by decide
theorem test_decode_m_immediate : decodeM 0b001011_00001_111111111111111111100#32 = some (.aadd 1 0x1FFFFC) := by decide
theorem test_decode_x : decodeX 0b000001_101_10_011_00111_011_110_1_000010#32 = some (.mma 5 2 3 7 3 6 1 0 2) := by decide
theorem test_decode_l : decodeL 0b0011_00011_00100_01#16 = some (.xred 3 4 1) := by decide
theorem test_decode_k : decodeK 0b0001_00101_010_0000#16 = some (.cbld 5 2) := by decide
/-- A reserved opcode of each slot reads as nothing (R100). -/
theorem test_decode_reserved : decodeS 0xFC000000#32 = none ∧ decodeV 0x240000000000#48 = none ∧ decodeF 0x280000#24 = none ∧
    decodeM 0x5C000000#32 = none ∧ decodeX 0x28000000#32 = none ∧ decodeL 0xA000#16 = none ∧ decodeK 0x6000#16 = none := by decide
/-- A set reserved header bit, and a V slot of width code 00 that is not zero (R81, R85). -/
theorem test_decode_bundle_refused : decodeBundle (1#384 <<< 360) = none ∧ decodeBundle (1#384 <<< 152) = none := by decide

/-! ## A term for each check of WellFormed.lean, which the check refuses -/

/-- A V form with every field plain. -/
def plainV : VFields := { w := 3, t := 0, rm := 0, d := 10, a := 1, b := 2, m := 0, c := 0 }

theorem test_wellformed_accepts : [(Slot.s0, Instr.addSr 1 15 1 2), (.s1, .movtc 1 1 0x400), (.v1, .vadd { plainV with d := 96, a := 97, b := 319 }),
    (.f, .rank 0 31 31 0 0), (.m1, .ld 0 0 2 1 0), (.x, .mma 0 0 0 0 3 6 0 0 3), (.l, .gred 1 1 15), (.k, .atld 0 1)].all
      (fun x => fieldsOk x.1 x.2) = true := by decide
theorem test_illformed_s : [(Slot.v0, Instr.addSr 0 1 1 2), (.s0, .addSr 1 16 1 2), (.s0, .li 1 0 3), (.s0, .shlSi 0 1 1 64), (.s0, .cmpSr 0 1 1 2 6),
    (.s0, .movc 0 1 0x012), (.s0, .movtc 1 1 0x001), (.s0, .gpredSet 0 1), (.s0, .gpredAnd 8 1 1), (.s0, .gqryMaskE 16 1), (.s0, .egetSr 1 1 16),
    (.s0, .shpK 0 1 0), (.s0, .asetSr 0 32 1 1), (.s0, .engwSr 1 0 1 1 3), (.s0, .engwSi 0 7 1 1 0), (.s0, .enggoCp0 32 0 0 0)].all
      (fun x => !fieldsOk x.1 x.2) = true := by decide
theorem test_illformed_control : [(Slot.s1, Instr.jmp 5), (.s1, .bwait 1 1 0 0), (.s0, .wait 1 0 0 0), (.s0, .loop 1 0x80000), (.s0, .bmz 0 5),
    (.s0, .gif 8 5), (.s0, .bar 3), (.s0, .sysStkspill 4), (.s0, .sysStkfill 57)].all (fun x => !fieldsOk x.1 x.2) = true := by decide
theorem test_illformed_v : [(Slot.s0, Instr.vadd plainV), (.v0, .vadd { plainV with w := 0 }), (.v0, .vadd { plainV with rm := 5 }),
    (.v0, .vadd { plainV with t := 3 }), (.v0, .vadd { plainV with d := 96 }), (.v0, .vadd { plainV with a := 400 }), (.v1, .vfma { plainV with d := 96, a := 191, b := 96 }),
    (.v0, .vmin { plainV with c := 1 }), (.v0, .vabs { plainV with b := 1 }), (.v0, .vand plainV), (.v0, .vcmp { plainV with d := 0 }),
    (.v0, .vsel plainV), (.v0, .vxfer { plainV with a := 320, b := 0 }), (.v0, .vcvt { plainV with c := 1, b := 498 }),
    (.v0, .vdecb { plainV with b := 496, c := 4 }), (.v0, .vclass { plainV with t := 5, b := 0 }), (.v0, .vrng { plainV with b := 63 }),
    (.v0, .vtopki { plainV with d := 3 }), (.v0, .vmulh { plainV with t := 5, c := 2 }), (.v0, .vdot4 { plainV with t := 5 })].all
      (fun x => !fieldsOk x.1 x.2) = true := by decide
theorem test_illformed_limb : [(Slot.v0, Instr.vladd { plainV with t := 0 }), (.v0, .vlcmp { plainV with t := 5, d := 0, c := 0 }),
    (.v0, .vlmul { plainV with t := 5, d := 95 }), (.v0, .bind { plainV with d := 0, a := 0, b := 0, c := 10 })].all
      (fun x => !fieldsOk x.1 x.2) = true := by decide
theorem test_illformed_f : [(Slot.f, Instr.rcp 0 0 1 1 0), (.f, .rcp 3 3 1 1 0), (.f, .rank 0 1 31 0 1), (.f, .rankv 0 30 0 0 0), (.f, .rankc 0 1 1 0 0),
    (.f, .rmerge 0 1 27 0), (.f, .unrank 3 1 1 0 0 0)].all (fun x => !fieldsOk x.1 x.2) = true := by decide
theorem test_illformed_m : [(Slot.m1, Instr.ld 1 0 2 0 0), (.m0, .ld 1 1 2 0 0), (.m0, .ldg 1 0 0 2 0 0), (.m0, .st 1 320 0 5 0), (.m0, .sts 1 95 0 5 0),
    (.m0, .atom 1 0 10 1 0 2), (.m0, .atom 1 94 9 0 0 2), (.m0, .atom 1 0 0 0 4 2), (.m0, .fence 3 0), (.m0, .pref 1 3 0 0), (.m0, .rtake 1 3 0),
    (.m0, .tlbinv 1 0 3 2)].all (fun x => !fieldsOk x.1 x.2) = true := by decide
theorem test_illformed_x_l_k : [(Slot.x, Instr.mma 0 0 0 0 3 1 0 0 0), (.x, .mma 0 0 0 0 3 3 0 0 1), (.x, .mmas 0 0 0 0 1 1 0 0), (.x, .mmar 0 0 0 0 6 0 0 0),
    (.x, .latld 0 0 0 0 0), (.k, .xred 0 0 0), (.k, .cbld 0 4), (.k, .atld 0 2), (.l, .stbs 0), (.s0, .bundleIssue)].all
      (fun x => !fieldsOk x.1 x.2) = true := by decide
theorem test_illformed_header : ({ emptyBundle with rcnt := 1 } : Bundle).headerOk = false ∧ ({ emptyBundle with pv0 := 3, pf := 2 } : Bundle).headerOk = false ∧
    ({ emptyBundle with wown := 1, v0 := some (.vadd plainV) } : Bundle).headerOk = false := by decide
theorem test_illformed_bundle : ({ emptyBundle with s0 := some .sysExit, l := some (.xred 0 0 0) } : Bundle).slotOk .s0 = false ∧
    ({ emptyBundle with v0 := some (.vadd { plainV with b := 300 }) } : Bundle).slotOk .v0 = false ∧
    ({ emptyBundle with v0 := some (.vadd { plainV with d := 300 }) } : Bundle).slotOk .v0 = false ∧
    ({ emptyBundle with v0 := some (.bind { plainV with d := 0, a := 0, b := 0 }) } : Bundle).slotOk .v0 = false ∧
    ({ emptyBundle with f := some (.rcp 3 0 1 1 0) } : Bundle).slotOk .f = false ∧
    ({ emptyBundle with rx := true, x := some (.tzero 1) } : Bundle).slotOk .x = false := by decide
theorem test_illformed_span :
    ({ emptyBundle with v0 := some (.vadd plainV), v1 := some (.vadd plainV), v2 := some (.vadd plainV) } : Bundle).spanOk = false ∧
    ({ emptyBundle with v0 := some (.vadd { plainV with a := 384, b := 384 }) } : Bundle).spanOk = false ∧
    ({ emptyBundle with v0 := some (.vxfer { plainV with c := 1 }), v1 := some (.vxfer { plainV with c := 1 }) } : Bundle).spanOk = false ∧
    ({ emptyBundle with v0 := some (.vlcmp plainV), v1 := some (.vlcmp plainV) } : Bundle).spanOk = false ∧
    ({ emptyBundle with v0 := some (.bind plainV), v1 := some (.bind plainV) } : Bundle).spanOk = false := by decide
/-- A register past its cluster's allocation, which is the declared count rounded up to 8 (R91). -/
theorem test_granule : ({ emptyBundle with v0 := some (.vadd { plainV with d := 16 }) } : Bundle).granule 9 0 0 0 = some (.v0, 16) ∧
    ({ emptyBundle with v0 := some (.vadd { plainV with d := 15 }) } : Bundle).granule 9 0 0 0 = none := by decide

end Sys2Proof.Tests
namespace Sys2Proof.Tests
open Sys2Proof.Machine Sys2Proof.Claims

/-! ## Single steps: the expected values are worked by hand from the rules named -/

/-- A package with one gang on core 0, every engine live and active, in cycle 0. -/
def pack : State := State.reset.withFetchWord 32 0x050C1005
/-- Its gang. -/
def lone : Gang := loneGang (fetchBundle 32 0x050C1005) 0
/-- The package with that gang changed, and with only engine 0 active. -/
def packG (f : Gang → Gang) : State := { pack.putGang 0 (f lone) with ctx := { act := 1 } }
/-- The gang with registers of the primary, or with engine 0 changed. -/
def withS (l : RegFile 64) (g : Gang) : Gang := { g with prim := { g.prim with s := l } }
def withE (f : Engine → Engine) (g : Gang) : Gang := g.modEng 0 f
/-- What the primary, or engine 0, has on its way after an instruction; the gang and the faults it raised. -/
def after (o : Out) : Gang := match o with
  | .next t => (t.gang 0).getD {}
  | _ => {}
def seqOut (o : Out) : List (Nat × SPay) := (after o).prim.lands.map (fun l => (l.due, l.pay))
def engOut (o : Out) : List (Nat × EPay) := ((after o).eng 0).lands.map (fun l => (l.due, l.pay))
def faults (o : Out) : List (GFault × Mask × Nat) := (after o).raised.map (fun r => (r.code, r.engmask, r.detail))

theorem test_add_wraps : seqOut (exec (.addSr 0 3 1 2) (packG (withS [(1, 0xFFFFFFFFFFFFFFFF), (2, 1)]))) = [(1, .s 3 0)] := by decide +kernel
theorem test_add_to_s0_is_discarded : seqOut (exec (.addSi 0 0 1 5) (packG id)) = [] := by decide +kernel
theorem test_mulh_signed : seqOut (exec (.mulhSr 0 3 1 2 0) (packG (withS [(1, 0xFFFFFFFFFFFFFFFF), (2, 2)]))) =
    [(3, .s 3 0xFFFFFFFFFFFFFFFF)] := by decide +kernel
theorem test_div_by_zero : seqOut (exec (.divSr 0 3 1 2 0) (packG (withS [(1, 7)]))) = [(20, .s 3 0xFFFFFFFFFFFFFFFF)] := by decide +kernel
theorem test_rem_keeps_sign : seqOut (exec (.remSi 0 3 1 4) (packG (withS [(1, BitVec.ofInt 64 (-7))]))) = [(20, .s 3 (BitVec.ofInt 64 (-3)))] := by
  decide +kernel
theorem test_sra_fills : seqOut (exec (.sraSi 0 3 1 63) (packG (withS [(1, 0x8000000000000000)]))) = [(1, .s 3 0xFFFFFFFFFFFFFFFF)] := by decide +kernel
theorem test_cmp_unsigned : seqOut (exec (.cmpSr 0 3 1 2 4) (packG (withS [(1, 1), (2, 0xFFFFFFFFFFFFFFFF)]))) = [(1, .s 3 1)] := by decide +kernel
theorem test_ext_signed : seqOut (exec (.extSr 0 3 1 2 1) (packG (withS [(1, 0xF0), (2, 0x304)]))) = [(1, .s 3 0xFFFFFFFFFFFFFFFF)] := by decide +kernel
theorem test_li_lis : seqOut (exec (.lis 0 1 3) (packG (withS [(1, 1)]))) = [(1, .s 1 0x40003)] := by decide +kernel
/-- e0 reads as the engine's number, so engine 0 sees 0 + 5 (R87). -/
theorem test_add_e_mode : engOut (exec (.addSi 1 3 0 5) (packG id)) = [(1, .e 3 0xFFFFFFFFFFFFFFFF 5)] := by decide +kernel
theorem test_movc_caprows : engOut (exec (.movc 1 3 2) (packG id)) = [(1, .e 3 0xFFFFFFFFFFFFFFFF 64)] := by decide +kernel
theorem test_gpred_range : seqOut (exec (.gpredRange 2 0 5 3) (packG id)) = [(1, .g 2 0xFFFF 0x38)] := by decide +kernel
theorem test_gqry_count : seqOut (exec (.gqryCount 3 0) (packG id)) = [(1, .s 3 1)] := by decide +kernel
theorem test_shp_breaks_a_limit : faults (exec (.shpSr 0 1 1) (packG (withS [(1, 65)]))) = [(.shape, 1, 1)] := by decide +kernel
theorem test_ret_on_empty_stack : faults (exec .ret (packG id)) = [(.stack, 0, 0)] := by decide +kernel
theorem test_branch_past_the_image : faults (exec (.jmp 5) (packG id)) = [(.illegalTarget, 0, 0)] := by decide +kernel
theorem test_exit_ends_the_gang : (after (exec .sysExit (packG id))).prim.ctl.map (·.act) = some .exit := by decide +kernel
theorem test_launch_queue : faults (exec (.sysLaunch 1 2) (packG (withS [(1, 256), (2, 31)]))) = [(.illegalEncoding, 0, 0x500)] := by decide +kernel
/-- 1.0 + 2.0 = 3.0 in FP32, exact: no flag lands; lanes 1 to 31 sum 0 + 0 (R202). -/
theorem test_vadd_fp32 : engOut (exec (.vadd { plainV with w := 1 }) (packG (withE (fun en => { en with v := [(1, 0x3F800000), (2, 0x40000000)] })))) =
    [(4, .v 10 (BitVec.ofNat 1024 (2 ^ 256 - 1)) 0x40400000)] := by decide +kernel
theorem test_vadd_i8_wraps : engOut (exec (.vadd { plainV with w := 1, t := 7, m := 1 })
    (packG (withE (fun en => { en with e := [(1, 1)], v := [(1, 0x7F), (2, 1)] })))) = [(2, .v 10 0xFFFFFFFF 0x80)] := by decide +kernel
theorem test_vcvt_saturates : engOut (exec (.vcvt { plainV with w := 1, t := 7, c := 13, b := 496, m := 1 })
    (packG (withE (fun en => { en with e := [(1, 1)], v := [(1, 300)] })))) = [(3, .v 10 0xFFFFFFFF 0x7F)] := by decide +kernel
theorem test_vdecb : engOut (exec (.vdecb { plainV with w := 1, t := 1, c := 2, b := 496, m := 1 })
    (packG (withE (fun en => { en with e := [(1, 1)], v := [(1, 0x13)], cb := [(2, 0x3F804000BF800000#256)] })))) =
    [(3, .v 10 0xFFFFFFFF 0xBF803F80)] := by decide +kernel
theorem test_queue_underflow : faults (exec (.vmov { plainV with a := 384, b := 0 }) (packG id)) = [(.queueUnderflow, 1, 0)] := by decide +kernel
theorem test_bind_diverges : faults (exec (.bind { plainV with d := 0, a := 0, b := 0, c := 6 }) (packG id)) = [(.bindDiverge, 1, 0x11)] := by decide +kernel
/-- SKIP is bit 5 of a pattern entry; lane 0 takes lane 3 and every other lane keeps its value (R233, R236). -/
theorem test_xshfl : engOut (exec (.xshfl 1 2 0) (packG (withE (fun en => { en with
    v := [(290, 0x00000007000000000000000000000000#1024)]
    x := [(0, BitVec.ofNat 1024 ((2 ^ 256 - 1) / 255 * 32 - 32 + 3))] })))) = [(3, .v 289 0xFFFFFFFF 7)] := by decide +kernel
theorem test_xpld_refuses : faults (exec (.xpld 1 2) (packG (withE (fun en => { en with v := [(289, 0x40)] })))) =
    [(.illegalEncoding, 1, 0x302)] := by decide +kernel
theorem test_tzero : (((after (exec (.tzero 2) (packG id))).eng 0).xops.map (fun x => (x.due, x.rows.length, x.rows.head?))) =
    [(4, 64, some (128, 0))] := by decide +kernel
theorem test_txend_without_a_transaction : ((after (exec (.txend 0) (packG id))).eng 0).q0.map (fun e => (e.acc.kind, e.acc.txid)) = [(.txend, 0)] := by
  decide +kernel
theorem test_ldg_offsets : ((after (exec (.ldg 1 2 1 5 0 1) (packG (withE (fun en => { en with
    e := [(1, 3)], a := [(1, 0x1000000000000100)], st := [(1, 8)], v := [(2, 0xFFFFFFFC00000010)] }))))).eng 0).q0.map
      (fun e => e.acc.pieces.map (fun p => (p.lane, p.addr, p.bytes))) = [[(0, 0x1000000000000110, 4), (1, 0x10000000000000FC, 4)]] := by decide +kernel
theorem test_post_increment : engOut (exec (.ldg 1 2 1 5 0 1) (packG (withE (fun en => { en with a := [(1, 0x1000000000000100)], st := [(1, 8)] })))) =
    [(1, .a 1 true 0x1000000000000108)] := by decide +kernel
theorem test_rank : ((engOut (exec (.rank 3 1 2 0 0) (packG (withE (fun en => { en with rcut := 2, v := [(290, 0x0000000900000005)] }))))).map
    (fun x => (x.1, match x.2 with
      | .v i _ v => (i, v.toNat % 2 ^ 48)
      | _ => (0, 0)))) = [(42, (289, 0xFFFF00000001))] := by decide +kernel
/-- CALL pushes an entry with KIND 2 and counts the call (R142). -/
theorem test_call : ((after (exec (.call 1) (packG (fun g => { g with code := [0, 0] })))).prim.ctl.map
    (fun c => (c.pc, c.resident, c.callDepth, c.stack))) = some (1, 1, 1, [(0, BitVec.ofNat 64 (1 + 2 ^ 32 + 2 ^ 48))]) := by decide +kernel
/-- A gang's signal to itself takes 24 cycles (R158). -/
theorem test_signal_travels : (match exec (.signalSi 0) (packG id) with
    | .next t => t.signals.map (fun p => (p.due, p.who))
    | _ => []) = [(24, (1, 0, 0))] := by decide +kernel
theorem test_hub_age : (match exec (.hubAgeWrite 5) pack with
    | .next t => t.sched.age
    | _ => 0) = 5 := by decide +kernel
/-- A package without power idles, and one whose hub has failed stops (R406). -/
theorem test_step_off_and_stopped : (match step State.reset with
    | .next t => t.cycle
    | _ => 1) = 0 ∧ (match step { State.reset with stage := .stopped } with
    | .fault f => some f
    | _ => none) = some .packageStopped := by decide +kernel
/-- The bundle of `pack` is next: an add into s3 (R81, R130). -/
theorem test_step_issues : (match step pack with
    | .next t => ((t.gang 0).map (fun g => g.prim.lands.map (fun l => l.pay))).getD []
    | _ => []) = [.s 3 5] := by decide +kernel

end Sys2Proof.Tests
namespace Sys2Proof.Tests
open Sys2Proof.Machine Sys2Proof.Claims

/-! ## A state and operands that meet the hypotheses of each statement -/

/-- The gang of a package built by packG stands on its core. -/
theorem here_packG (f : Gang → Gang) : Here (packG f) (f lone) := rfl
/-- A package in whose spare sequencer the step issues. -/
def packSpare (f : Gang → Gang) : State := { packG f with ctx := { spare := true, act := 1 } }
/-- A gang whose primary holds a stack of one entry, at a call depth. -/
def withTop (w : Word) (depth : Nat) (g : Gang) : Gang := { g with prim := { g.prim with stack := [(0, w)], resident := 1, callDepth := depth } }
/-- A gang in a split whose engine 1 the spare drives. -/
def inSplit (g : Gang) : Gang := { g with split := true, splitEngines := 2 }

theorem wit_ScalarResults : Here pack lone ∧ (aluRow (.addSr 0 3 1 2)).isSome = true ∧ (aluRow (.lis 1 15 3)).isSome = true := ⟨rfl, rfl, rfl⟩
theorem wit_ControlRegisterReads : Here pack lone ∧ (∀ k, k < 16 → (lone.eng k).fpflags < 32) ∧ pack.ctx.core < 72 ∧ pack.ctx.act.getLsbD 0 = true :=
  ⟨rfl, by decide, by decide, by decide⟩
theorem wit_ControlRegistersWritten : Here pack lone ∧ crPerEngine 0x002 = true ∧ crPerEngine 0x001 = false := ⟨rfl, rfl, rfl⟩
theorem wit_SingleValueMoves : Here pack lone ∧ lone.live.getLsbD 15 = true := ⟨rfl, by decide⟩
/-- The limits of R138 at both ends, and a word past each. -/
theorem wit_EngineRegisters : Here pack lone ∧ shapeLegal 0x00010101 ∧ shapeLegal 0x104004040 ∧ ¬ shapeLegal 0x00010100 ∧ ¬ shapeLegal 0x00010141 ∧
    ¬ shapeLegal 0x04010101 ∧ ¬ shapeLegal 0x200010101 := by
  refine ⟨rfl, ?_⟩
  unfold shapeLegal
  decide
theorem wit_GangRegisters : Here pack lone ∧ (gpredBit pack lone (.gpredSet 7 15)).isSome = true ∧ (gqryRow pack lone (.gqryBit 3 7 15)).isSome = true :=
  ⟨rfl, rfl, rfl⟩
theorem wit_Branches : Here pack lone ∧ (branchRow pack lone (.jmp 1)).map (·.1) = some 1 ∧ (readS pack (seqOf pack lone) 0).toNat = 0 ∧
    (onward pack lone).pc = 1 ∧ StartsBundle lone 0 := ⟨rfl, rfl, by decide +kernel, rfl, .first (by decide)⟩
/-- The clauses on RET, by the state of the top entry: none, in the spare or not, a call, a split, another. -/
theorem wit_CallAndReturn : (onward pack lone).callDepth = 0 ∧ (onward pack lone).resident = 0 ∧ pack.ctx.spare = false ∧
    (packSpare id).ctx.spare = true ∧ (onward (packSpare id) lone).resident = 0 ∧
    (onward (packG (withTop 0 63)) (withTop 0 63 lone)).callDepth = 63 ∧
    topKind (onward (packG (withTop 0 0)) (withTop 0 0 lone)) = 0 ∧
    topKind (onward (packG (withTop (2#64 <<< 47) 0)) (withTop (2#64 <<< 47) 0 lone)) = 2 ∧
    topKind (onward (packG (withTop (3#64 <<< 47) 0)) (withTop (3#64 <<< 47) 0 lone)) = 3 ∧
    topKind (onward (packG (withTop (4#64 <<< 47) 0)) (withTop (4#64 <<< 47) 0 lone)) = 4 := by decide +kernel
/-- A body of one bundle, and of none. -/
theorem wit_Loops : Here pack lone ∧ 0 < (1#20).toInt ∧ ahead lone 0 (onward pack lone).pc = (seqOf pack lone).pc + (1#20).toNat ∧
    ¬ 0 < (0#20).toInt ∧ (readS pack (seqOf pack lone) 0).toNat % 2 ^ 32 = 0 ∧
    (readS (packG (withS [(1, 2)])) (seqOf (packG (withS [(1, 2)])) (withS [(1, 2)] lone)) 1).toNat % 2 ^ 32 ≠ 0 := by
  refine ⟨rfl, ?_⟩
  decide +kernel
theorem wit_Divergence : Here pack lone ∧ (onward pack lone).resident = 0 ∧
    (let s := packG (withTop (2#64 <<< 16) 0)
     let c := onward s (withTop (2#64 <<< 16) 0 lone)
     c.resident ≠ 0 ∧ topKind c = 0 ∧ topAlt c ≠ 0) ∧
    (let s := packG (withTop 0 0)
     let c := onward s (withTop 0 0 lone)
     topKind c = 0 ∧ topAlt c = 0) ∧
    (pack.ctx.act &&& readG pack lone (seqOf pack lone) 0 ≠ 0) ∧ (pack.ctx.act &&& readG pack lone (seqOf pack lone) 1 = 0) := by
  refine ⟨rfl, ?_⟩
  decide +kernel
/-- A real split needs both paths populated; a serialised one, and both arrivals of a real one. -/
theorem wit_GangSplitMerge :
    (let g := { lone with prim := { lone.prim with g := [(1, 1)] } }
     let s := { pack with cores := (pack.putGang 0 g).cores }
     Here s g ∧ s.ctx.spare = false ∧ g.spareLive = true ∧ g.split = false ∧ s.ctx.act &&& readG s g (seqOf s g) 1 ≠ 0 ∧
       s.ctx.act &&& ~~~ readG s g (seqOf s g) 1 ≠ 0) ∧
    (let c := onward (packG (withTop (3#64 <<< 47) 0)) (withTop (3#64 <<< 47) 0 lone)
     c.resident ≠ 0 ∧ topKind c = 3 ∧ topDepth c = c.callDepth ∧ topAlt c = 0) ∧
    (let g := inSplit (withTop (4#64 <<< 47) 0 lone)
     let c := onward (packG (fun _ => g)) g
     g.split = true ∧ c.resident ≠ 0 ∧ topKind c = 4 ∧ topDepth c = c.callDepth ∧ g.spare.wait = none) ∧
    (let g := { inSplit lone with prim := { lone.prim with wait := some (.merge, 0) } }
     let c := onward (packSpare (fun _ => g)) g
     g.split = true ∧ c.resident = 0 ∧ c.spilled = 0 ∧ c.callDepth = g.splitDepth ∧ g.prim.wait = some (.merge, 0) ∧ g.prim.pc = (seqOf (packSpare (fun _ => g)) g).pc) := by
  refine ⟨⟨rfl, ?_⟩, ?_⟩ <;> decide +kernel
theorem wit_StackAndExit : Here pack lone ∧ sparseWf 0 (seqOf pack lone).stack = true ∧ (onward pack lone).resident < 8 ∧ (onward pack lone).spilled < 8 ∧
    lone.split = false ∧ (seqOf pack lone).resident = 0 ∧ (seqOf pack lone).spilled = 0 ∧
    (let g := { lone with prim := { lone.prim with resident := 8, spilled := 8 } }
     ¬ ((onward (packG (fun _ => g)) g).resident < 8 ∨ 247 < (onward (packG (fun _ => g)) g).spilled) ∧
     ¬ (24 < (onward (packG (fun _ => g)) g).resident ∨ (onward (packG (fun _ => g)) g).spilled < 8)) := by
  refine ⟨rfl, ?_⟩
  decide +kernel
theorem wit_WaitsAndBarriers : Here pack lone ∧ pack.ctx.spare = false ∧ lone.badBatons = [] ∧ lone.events &&& 8#4 = 0 ∧
    ({ lone with events := 8#4 } : Gang).events &&& 8#4 ≠ 0 ∧ lone.arrivals.length = 3 ∧ lone.split = false ∧ lone.info.ndie = 1 ∧
    (∃ f : FaultedBaton, f ∈ [FaultedBaton.mk 31 .page 0 0 0 0] ∧ (BitVec.ofNat 32 (2 ^ 31)).getLsbD f.baton = true) := by
  refine ⟨rfl, ?_⟩
  exact ⟨rfl, rfl, by decide, by decide, rfl, rfl, rfl, _, List.mem_singleton.2 rfl, by decide⟩
theorem wit_ShadowWrites : Here pack lone ∧ (2#6).toNat = 2 ∧ (3#6).toNat ≠ 2 ∧ (2#2) = 2 ∧ (3#2) ≠ 2 := ⟨rfl, by decide⟩
/-- Shadow sets that pass and fail the checks, and queues with room and without. -/
theorem wit_EngineQueues : Here pack lone ∧ Lowest (copyFails lone.cp0.shadow) 2 ∧
    (∀ d, ¬ copyFails [(2, 0x000100010001#64)] d) ∧ lone.cp0.queue.length < 2 ∧ Lowest (walkFails (lone.eng 0).iwShadow) 3 ∧
    (∀ d, ¬ walkFails [(3, 1#64 <<< 32), (4, 1), (5, 0x100)] d) ∧ (lone.eng 0).walks.length < 2 := by
  refine ⟨rfl, ⟨?_, fun e he => ?_⟩, fun d => ?_, by decide +kernel, ⟨?_, fun e he => ?_⟩, fun d => ?_, by decide +kernel⟩
  · exact .inl ⟨rfl, .inr (.inl (by decide +kernel))⟩
  · unfold copyFails; rintro (⟨h, _⟩ | ⟨h, _⟩ | ⟨h, _⟩ | ⟨h, _⟩) <;> omega
  · unfold copyFails; rintro (⟨_, h⟩ | ⟨_, h⟩ | ⟨_, h⟩ | ⟨_, h⟩) <;> revert h <;> (try unfold isIntType) <;> decide +kernel
  · exact .inl ⟨rfl, by decide +kernel⟩
  · unfold walkFails; rintro (⟨h, _⟩ | ⟨h, _⟩ | ⟨h, _⟩) <;> omega
  · unfold walkFails; rintro (⟨_, h⟩ | ⟨_, h⟩ | ⟨_, h⟩) <;> revert h <;> decide +kernel
/-- A signal that is due for the gang on core 0. -/
theorem wit_Signals : Here pack lone ∧ (signalRow pack lone .signalOthers).isSome = true ∧ ({ lone with timerDue := true } : Gang).timerDue = true ∧
    (let p : PendingSignal := { due := 0, who := (1, 0, 0), from_ := 0 }
     let s := { pack with signals := [p] }
     s.signals = p :: [] ∧ p.due ≤ s.cycle ∧ gateOpen s p.from_ p.marks = true ∧ s.gang 0 = some lone ∧
       (lone.info.handle, lone.info.squad, lone.info.pos) = p.who) := ⟨rfl, rfl, rfl, rfl, by decide, by decide +kernel, rfl, rfl⟩
/-- Queues 31, 32, 63 and 64, and an address of each kind. -/
theorem wit_Submissions : Here pack lone ∧ ¬ (32 ≤ 31 ∧ 31 ≤ 63) ∧ (32 ≤ 32 ∧ 32 ≤ 63) ∧ (32 ≤ 63 ∧ 63 ≤ 63) ∧ ¬ (32 ≤ 64 ∧ 64 ≤ 63) ∧
    (let g := withS [(1, 0x100), (2, 32)] lone
     let s := packG (withS [(1, 0x100), (2, 32)])
     (readS s (seqOf s g) 1).toNat / 2 ^ 48 = 0 ∧ (readS s (seqOf s g) 1).toNat % 256 = 0 ∧ (readS s (seqOf s g) 2).toNat = 32) := by
  refine ⟨rfl, ?_⟩
  decide +kernel

end Sys2Proof.Tests
namespace Sys2Proof.Tests
open Sys2Proof.Machine Sys2Proof.Claims

/-- A load-queue entry whose data have arrived, and one with a fault. -/
def arrived (v : Vec) : QEntry :=
  { serial := 0, acc := plainAccess pack .load 1 5 false false [] none, issued := 0, readyAt := 0, result := some (.data v), popped := none }
def faulty (x : MemFault) : QEntry := { arrived 0 with result := some (.fault x) }

/-- Lanes 0 and 31 of 32 at the widest W. -/
theorem wit_VectorOperands : 0 < 1024 / widthT 7 ∧ 127 < 1024 / widthT 7 ∧ queueCode 384 = some (0, true) ∧ queueCode 388 = some (3, true) ∧
    queueCode 387 = some (1, false) ∧
    (let en : Engine := { q0 := [arrived 5] }
     headOf pack en 0 = some (arrived 5) ∧ (arrived 5).result = some (.data 5)) ∧
    (let x : MemFault := { code := .page, vaddr := 0, lanes := 0, detail := 0 }
     headOf pack { q0 := [faulty x] } 0 = some (faulty x) ∧ (faulty x).result = some (.fault x)) ∧
    headOf pack (lone.eng 0) 0 = none ∧ (∃ l, l < wBits 3 / 32 ∧ enabled pack 0 (lone.eng 0) 0 l) :=
  ⟨by decide, by decide, rfl, rfl, rfl, ⟨by decide +kernel, rfl⟩, ⟨by decide +kernel, rfl⟩, rfl, 31, by decide, .inl rfl⟩
theorem wit_VectorIntegers : Here pack lone ∧ (vIntRow pack (.vadd { plainV with t := 5 })).isSome = true ∧ intT 5 ∧ (vIntRow pack (.vxor plainV)).isSome = true ∧
    typeless (.vxor plainV) ∧ Poppable pack lone plainV [1, 2] := by
  refine ⟨rfl, rfl, by unfold intT; decide, rfl, trivial, fun _ _ _ c q p h hq => ?_⟩
  rcases List.mem_cons.1 h with rfl | h
  · simp [queueCode] at hq
  · rw [List.mem_singleton.1 h] at hq; simp [queueCode] at hq
theorem wit_VectorFloats : Here pack lone ∧ (vFloatRow pack (.vfma plainV)).isSome = true ∧ ¬ intT 0 ∧ ¬ intT 4 := by
  refine ⟨rfl, rfl, ?_⟩
  unfold intT
  decide
/-- A register named through e[C] inside the allocation, and one past it. -/
theorem wit_VectorSelections : Here pack lone ∧ (0 < 8 ∧ 8 ≤ 15) ∧
    inAlloc lone.info.regsA lone.info.regsB lone.info.regsC lone.info.regsS 95 = true ∧
    inAlloc lone.info.regsA lone.info.regsB lone.info.regsC lone.info.regsS 320 = false ∧ enabled pack 0 (lone.eng 0) 0 0 :=
  ⟨rfl, by decide, by decide, by decide, .inl rfl⟩
theorem wit_VectorConversions : Here pack lone ∧ (1#3).toNat ≤ 1 ∧ ¬ intT 1 ∧
    497 - 496 < max (widthT 0) (widthT 1) / min (widthT 0) (widthT 1) ∧ 503 - 496 < widthT 0 / 4 ∧ Poppable pack lone plainV [320] := by
  refine ⟨rfl, by decide, by unfold intT; decide, by decide, by decide, fun _ _ _ c q p h hq => ?_⟩
  rw [List.mem_singleton.1 h] at hq; simp [queueCode] at hq
theorem wit_VectorDraws : Here pack lone ∧ (plainV.t = 0 ∨ plainV.t = 5) ∧ Poppable pack lone plainV [1, 2] := ⟨rfl, .inl rfl, wit_VectorIntegers.2.2.2.2.2⟩
/-- Groups of one engine and of two; an engine bound alone passes the checks, and one bound to none fails them. -/
theorem wit_LimbInstructions : Here pack lone ∧ (0#4).toNat ≤ 9 ∧ (9#4).toNat ≤ 9 ∧
    (chainRow (.vladd { plainV with t := 5 })).isSome = true ∧
    (∀ k, k < 16 → (lone.eng k).bind.code ≤ 9 ∧ (lone.eng k).bind.engs = (if (lone.eng k).bind.code ≤ 5 then 1 else 2 ^ ((lone.eng k).bind.code - 5)) ∧
      (lone.eng k).bind.base = k / (lone.eng k).bind.engs * (lone.eng k).bind.engs) ∧
    limbFails pack lone plainV 0 = some 2 ∧ limbFails (packG (withE (fun en => { en with bind := ⟨0, 1, 5⟩ }))) (withE (fun en => { en with bind := ⟨0, 1, 5⟩ }) lone)
      plainV 0 = none := ⟨rfl, by decide, by decide, rfl, by decide +kernel, by decide +kernel, by decide +kernel⟩
theorem wit_SpecialFunctions : Here pack lone ∧ (sfRow (.rcp 3 0 1 2 0)).isSome = true ∧ (sfRow (.erf 3 2 1 2 0)).isSome = true ∧ fval .fp32 0x7FC00000 = .nan false ∧
    fval .fp32 0xBF800000 = .fin true 0x800000 (-23) := ⟨rfl, rfl, rfl, by decide +kernel, by decide +kernel⟩
theorem wit_RankingNetwork : Here pack lone ∧ (∀ k, k < 16 → pack.ctx.act.getLsbD k = true → (lone.eng k).rankFree ≤ pack.cycle) ∧ (1#2) ≠ 0 ∧ (2#2) ≠ 3 :=
  ⟨rfl, by decide +kernel, by decide, by decide⟩
/-- Sixty-three entries leave room for one more, and sixty-four for none. -/
theorem wit_Loads : Here pack lone ∧ (loadRow pack lone (.ld 1 0 5 0 0)).map (·.1) = some 0 ∧ (∀ k, ¬ Crowded pack lone 0 1 k) ∧
    (let g := withE (fun en => { en with q0 := List.replicate 64 (arrived 0) }) lone
     Crowded (packG (fun _ => g)) g 0 1 0) ∧
    (let g := withE (fun en => { en with q0 := List.replicate 63 (arrived 0) }) lone
     ¬ Crowded (packG (fun _ => g)) g 0 1 0) := by
  refine ⟨rfl, rfl, fun k h => ?_, ?_, ?_⟩
  · exact (by decide +kernel : ∀ k, k < 16 → ¬ 64 < filled (lone.eng k) 0 + 1) k h.1 h.2.2
  all_goals (unfold Crowded; decide +kernel)
theorem wit_Stores : Here pack lone ∧ (storeRow pack lone (.sts 1 2 0 5 0)).isSome = true ∧ (∀ k, ¬ Crowded pack lone 2 1 k) ∧ (lone.eng 0).tx.opened = false := by
  refine ⟨rfl, rfl, fun k h => ?_, rfl⟩
  exact (by decide +kernel : ∀ k, k < 16 → ¬ 64 < filled (lone.eng k) 2 + 1) k h.1 h.2.2
theorem wit_ImmediateOperations : Here pack lone ∧ pack.ctx.core < 72 ∧ (immRow pack lone (.atom 1 2 0 0 0 2)).map (·.q) = some 2 ∧
    (immRow pack lone (.scopLd 1 0 0)).map (·.q) = some 0 ∧ (∀ k, ¬ Crowded pack lone 0 2 k) := by
  refine ⟨rfl, by decide, rfl, rfl, fun k h => ?_⟩
  exact (by decide +kernel : ∀ k, k < 16 → ¬ 64 < filled (lone.eng k) 0 + 2) k h.1 h.2.2
theorem wit_OrderAndPrefetch : Here pack lone ∧ pack.dieCaches.length = 8 := ⟨rfl, rfl⟩
/-- No transaction open; the lock free or held by the gang; and an open optimistic one. -/
theorem wit_Transactions : Here pack lone ∧ (∀ k, k < 16 → pack.ctx.act.getLsbD k = true → (lone.eng k).tx.opened = false) ∧ pack.ctx.act.toNat ≠ 0 ∧
    pack.lock.holder ≠ some pack.ctx.core ∧ pack.ctx.core ∉ pack.lock.requests ∧
    ({ pack with lock := { pack.lock with holder := some 0 } } : State).lock.holder = some pack.ctx.core ∧
    (let en : Engine := { tx := { opened := true } }
     en.tx.opened = true ∧ en.tx.cur.serial = false) := ⟨rfl, by decide +kernel, by decide, by decide, by decide, rfl, rfl, rfl⟩
/-- A pattern by which no two lanes meet, one by which all meet in lane 0, and idle tiles. -/
theorem wit_CrossbarInstructions : Here pack lone ∧
    (∀ k, k < 16 → pack.ctx.act.getLsbD k = true → idle pack (lone.eng k) 7 ∧ idle pack (lone.eng k) 0) ∧
    Lowest (fun k => k < 16 ∧ pack.ctx.act.getLsbD k = true) 0 ∧
    (skipOf (readX pack 0 (lone.eng 0) 0) 0 = false ∧ numOf (readX pack 0 (lone.eng 0) 0) 0 = 0 ∧ numOf (readX pack 0 (lone.eng 0) 0) 1 = 0) ∧
    (∀ l, l < 32 → skipOf (BitVec.ofNat 1024 ((2 ^ 256 - 1) / 255 * 32)) l = true) := by
  refine ⟨rfl, ?_, ⟨by decide, fun _ h => absurd h (Nat.not_lt_zero _)⟩, by decide +kernel, by decide +kernel⟩
  unfold idle
  decide +kernel
theorem wit_TableLoads : Here pack lone ∧ PatternOk 0 ∧ ¬ PatternOk 0x40 := by
  refine ⟨rfl, ?_, ?_⟩ <;> (unfold PatternOk; decide +kernel)

/-- An engine for the array: one step of a 1 x 1 x 1 shape, B at ceiling offset 0 with tag 4, A's address in the own scratchpad. -/
def arrayEngine (en : Engine) : Engine := { en with h := [(0, 0x00010101)], a := [(0, 0x4000000000000000), (1, 0x1000000000000000)] }
def arrayGang : Gang := withE arrayEngine lone
def arrayPack : State := packG (fun _ => arrayGang)

theorem wit_ArrayOperations : Here arrayPack arrayGang ∧ reps arrayPack = 1 ∧ reps { arrayPack with ctx := { arrayPack.ctx with unit := 1, value := 0 } } = 0 ∧
    ∃ x, arrRow (.mma 0 0 0 0 7 7 0 0 0) = some x ∧ (x.tb = 6 → x.op = 1) ∧
      ∀ k, k < 16 → arrayPack.ctx.act.getLsbD k = true → x.Sound arrayPack arrayGang 1 k := by
  refine ⟨rfl, rfl, by decide, _, rfl, fun _ => rfl, fun k hk ha => ?_⟩
  have h0 : k = 0 := (by decide +kernel : ∀ k, k < 16 → arrayPack.ctx.act.getLsbD k = true → k = 0) k hk ha
  subst h0
  unfold ArrRow.Sound
  decide +kernel
/-- One row of four bytes at offset 0, and no fence before it. -/
theorem wit_TilePort : Here arrayPack arrayGang ∧ PortOk arrayGang (readA arrayPack 0 (arrayGang.eng 0) 1) 0 1 4 ∧
    mayPerform arrayPack arrayPack.ctx.core arrayGang 0 (arrayGang.eng 0).serial 7 .load = true ∧ (arrayGang.eng 0).sq.length < 64 := by
  refine ⟨rfl, ?_, by decide +kernel, by decide +kernel⟩
  unfold PortOk
  decide +kernel
/-- A due operation with one row of a tile and one of a latch behind one that is not due, in a gang whose checkpoint was taken while it ran; and an
engine with none. -/
theorem wit_ArrayCompletion :
    let x : XOp := { issued := 0, due := 3, serial := 1, opcode := 5, rows := [(0, 1), (512, 2)], load := none }
    let y : XOp := { x with due := 9, serial := 0 }
    let c : Ckpt := { at_ := 2, seq := lone.prim, engines := [(0, { lone.eng 0 with xops := [y, x] })], split := false, splitTag := 0, splitDepth := 0, splitEngines := 0 }
    let g := withE (fun en => { en with xops := [y, x] }) { lone with ckptP := some c }
    let s := { (packG (fun _ => g)) with cycle := 3 }
    Here s g ∧ s.ctx.engine < g.engines.length ∧ (g.eng s.ctx.engine).xops = [y] ++ x :: [] ∧ x.load = none ∧ x.due ≤ s.cycle ∧
      ¬ (y.load = none ∧ y.due ≤ s.cycle) ∧ (y.serial ≠ x.serial ∨ y.due ≠ x.due) ∧ x.issued < c.at_ ∧
      (x.rows.map (·.1)).Nodup ∧ sparseWf 0 (g.eng s.ctx.engine).c = true ∧ sparseWf 0 (g.eng s.ctx.engine).l = true ∧
      ∀ z, z ∈ (lone.eng 0).xops → ¬ (z.load = none ∧ z.due ≤ s.cycle) :=
  ⟨rfl, by decide +kernel, rfl, rfl, by decide, by decide, by decide, by decide, by decide, rfl, rfl, by decide +kernel⟩

end Sys2Proof.Tests
namespace Sys2Proof.Tests
open Sys2Proof.Machine Sys2Proof.Claims

/-! ## Memory, units and the machine's own events -/

/-- The gang with small scratchpads, and a package around a gang in which the step's subject is given. -/
def padded (g : Gang) : Gang := { g with info := { g.info with spSize := 0x10000 } }
def packC (c : Ctx) (g : Gang) : State := { pack.putGang 0 g with ctx := c }
/-- A leaf of 64 KiB at 0, mapped to the frame at 0x100000. -/
def leafAt : TcEntry := { asid := 1, level := 4, va := 0, frame := 0x100000, rd := true, wr := true, sparse := false }
/-- The core's cache holds the leaf. -/
def cached (s : State) : State := s.modCore 0 (fun c => { c with tc := [leafAt] })
/-- An access of one piece, and a queue entry and a place of it. -/
def accessOf (kind : AccKind) (p : Piece) : Access :=
  { kind, opcode := 2, sizeCode := 0, write := false, scope := 0, block := false, pieces := [p], data := 0, cmp := 0 }
def entryOf (acc : Access) : QEntry := { serial := 0, acc, issued := 0, readyAt := 0, result := none, popped := none }
def ownPiece (n : Nat) : Piece := { lane := 0, addr := 0x1000000000000040, bytes := n, data := 5 }
/-- The package with an entry at the head of q0 of engine 0, of which the step speaks. -/
def packEntry (e : QEntry) : State × Gang :=
  let g := withE (fun en => { en with q0 := [e] }) (padded lone)
  (packC { act := 1 } g, g)

theorem own_piece (n : Nat) (h : n = 4 ∨ n = 16) : OwnPiece (padded lone) (ownPiece n) := by
  rcases h with rfl | rfl <;> (unfold OwnPiece; decide +kernel)
/-- Every engine's own piece leads to its own scratchpad, and there is nothing to keep a reader from it. -/
theorem own_scratch (s : State) (g : Gang) (k n : Nat) (hs : s.gang s.ctx.core = some g) (hk : k < g.engines.length)
    (hg : g.info.spSize = 0x10000) (h : n = 4 ∨ n = 16) :
    ToScratch s g k (ownPiece n) s.ctx.core k 0x40 := by
  rcases h with rfl | rfl <;>
    exact ⟨by decide, by decide, by rw [hg]; decide, show _ % _ = _ by decide, ⟨g, hs, hk, fun h => absurd (by decide) h⟩,
      .inl ⟨by decide, by decide, rfl, rfl⟩⟩
theorem own_sound (s : State) (g : Gang) (k off n : Nat) (hs : s.gang s.ctx.core = some g) (hd : s.deadSram s.ctx.core k = false)
    (hp : (g.eng k).poison = []) : Sound s s.ctx.core k off n := by
  refine ⟨hd, fun h hh j _ => ?_⟩
  rw [hs] at hh
  cases hh
  rw [hp]
  rfl
/-- A piece of memory behind the leaf. -/
def memPiece (n : Nat) : Piece := { ownPiece n with addr := 0x40 }
theorem leaf_translates (s : State) (g : Gang) (rd wr : Bool) (h : (s.core 0).tc = [leafAt]) (hc : s.ctx.core = 0) (hg : g.info.asid = 1) :
    Translates s s.ctx.core g 0x40 rd wr 0x100040 := by
  refine ⟨by rw [hc]; decide, leafAt, ?_, fun _ => rfl, fun _ => rfl, by decide +kernel⟩
  rw [hc, h, hg]
  decide +kernel
theorem mem_leads (s : State) (g : Gang) (rd wr : Bool) (n : Nat) (h : (s.core 0).tc = [leafAt]) (hc : s.ctx.core = 0) (hg : g.info.asid = 1)
    (hn : n = 4 ∨ n = 8) : ToMemory s g (memPiece n) rd wr 0x100040 := by
  refine ⟨by rcases hn with rfl | rfl <;> decide, by rcases hn with rfl | rfl <;> decide,
    by rcases hn with rfl | rfl <;> exact (show _ % _ = _ by decide), leaf_translates s g rd wr h hc hg⟩
theorem caches_wf (s : State) (h : s.dieCaches = List.replicate 8 []) : CachesWf s := by
  refine ⟨by rw [h]; rfl, fun d => ?_⟩
  rw [h]
  match d with
  | 0 | 1 | 2 | 3 | 4 | 5 | 6 | 7 => rfl
  | _ + 8 => rfl
/-- One entry for each clause: with data that have arrived, a load, a 32-bit addition, a lap word, a ring, a SCOP at its tick. -/
theorem wit_AccessesPerformed :
    (let x := packEntry { entryOf (accessOf .load (ownPiece 4)) with held := some 7 }
     Here x.1 x.2 ∧ Entry x.1 x.2 { entryOf (accessOf .load (ownPiece 4)) with held := some 7 } ∧
       entryDue x.1 0 0 x.2 { entryOf (accessOf .load (ownPiece 4)) with held := some 7 } = true) ∧
    (∀ kind, kind = .load ∨ kind = .atom 0 false →
      let e := entryOf (accessOf kind (ownPiece 4))
      let x := packEntry e
      Here x.1 x.2 ∧ Entry x.1 x.2 e ∧ entryDue x.1 0 0 x.2 e = true ∧ Memory.wf (x.2.eng 0).scratch = true ∧ Memory.wf x.1.mem = true) ∧
    (let q : SQEntry := { serial := 0, acc := accessOf (.lapadd 3) (ownPiece 16), marker := some none, completeAt := 0 }
     let g := withE (fun en => { en with sq := [q] }) (padded lone)
     let s := packC { unit := 2, act := 1 } g
     Here s g ∧ (placesOf g 0).find? (fun e => e.serial == s.ctx.id) = some q ∧ placeDue s 0 0 g q = true ∧
       ToScratch s g 0 (ownPiece 16) 0 0 0x40 ∧ Sound s 0 0 0x40 16 ∧ Memory.wf (s.scratch 0 0) = true) ∧
    (let e := entryOf (accessOf .rtakeCount { ownPiece 4 with addr := 3 })
     let x := packEntry e
     let r : Ring := { elastic := false, recsz := 32, asid := 1, base := 0, slots := 16, extlim := 0, extva := 0, head := 2, tail := 5
                       count := 3, extpages := 0 }
     let s := { x.1 with rings := [(3, r)] }
     Entry s x.2 e ∧ entryDue s 0 0 x.2 e = true ∧ kfind s.rings 3 = some r ∧ r.asid = x.2.info.asid) ∧
    (let e := entryOf (accessOf (.scop 1) (memPiece 8))
     let x := packEntry e
     let s := cached x.1
     Here s x.2 ∧ Entry s x.2 e ∧ CachesWf s ∧ ToMemory s x.2 (memPiece 8) true true 0x100040 ∧ SoundMemory s x.2 0x100040 8 ∧
       s.cycle % 144 = 2 * s.ctx.core ∧ e.readyAt ≤ s.cycle ∧ mayScop s 0 x.2 0 e.serial e.acc.from_ = true ∧ e.acc.free s 0 x.2 0 [] = true) := by
  refine ⟨⟨rfl, ⟨by decide, by decide, rfl, rfl⟩, by decide +kernel⟩, ?_,
    ⟨rfl, rfl, by decide +kernel, own_scratch _ _ 0 16 rfl (by decide +kernel) rfl (.inr rfl), own_sound _ _ 0 _ _ rfl (by decide +kernel) rfl, rfl⟩,
    ⟨⟨by decide, by decide, rfl, rfl⟩, by decide +kernel, rfl, rfl⟩,
    ⟨rfl, ⟨by decide, by decide, rfl, rfl⟩, caches_wf _ rfl, mem_leads _ _ _ _ 8 rfl rfl rfl (.inr rfl),
      ⟨by decide +kernel, by decide +kernel, fun r h => (by cases h)⟩, by decide +kernel, by decide, by decide +kernel, by decide +kernel⟩⟩
  rintro kind (rfl | rfl) <;> exact ⟨rfl, ⟨by decide, by decide, rfl, rfl⟩, by decide +kernel, rfl, rfl⟩
/-- A batch of one store into the own scratchpad; lookups that a cache answers, and that a walk answers. -/
theorem wit_BatchesAndWalks :
    (let q : SQEntry := { serial := 0, acc := accessOf .store (ownPiece 4), marker := none, completeAt := 0 }
     let b : Batch := { entries := [(0, [q])], sealedAt := 0, fault := none }
     let g := { padded lone with prim := { lone.prim with batch := some b } }
     let s := packC { act := 1 } g
     Here s g ∧ (g.seq s.ctx.spare).batch = some b ∧ batchDue s 0 g b = true) ∧
    tcFind ((cached pack).core 0).tc 1 0x1234 = some leafAt ∧
    (let s := { pack with contexts := [(1, { root := 0 })], mem := [(0, 1), (1, 0x10), (0x1000, 1), (0x1001, 0x20), (0x2000, 1), (0x2001, 0x30),
                                                                    (0x3000, 15), (0x3002, 0x10)] }
     (s.walk 1 0x1234).toOption = some leafAt ∧ (s.core 0).tc = [] ∧ (s.dieTc.getD 0 []).length < 8192) := by
  exact ⟨⟨rfl, rfl, by decide +kernel⟩, by decide +kernel, by decide +kernel, by decide +kernel, by decide +kernel⟩
/-- Two caches still to acknowledge, a frame to return, an event to deliver, and a dirty line to evict. -/
theorem wit_CachesAndFrames :
    (let v : Invalidation := { core := 0, engine := 0, serial := 0, asid := 1, base := 0, size := 65536, arrives := 0, waiting := [3, 224], lastAck := 0
                               release := none }
     let s := { pack with invs := [v] }
     s.invs = [] ++ v :: [] ∧ v.waiting = [] ++ 3 :: [224] ∧ mayAck s v 3 = true) ∧
    (let f : FrameBack := { asid := 1, frame := 0x10000, big := false }
     let s := { pack with framesBack := [f], contexts := [(1, { root := 0 })] }
     s.framesBack = f :: [] ∧ f.frame % 128 = 0 ∧ kfind s.contexts f.asid = some { root := 0 } ∧ s.poisoned f.frame 65536 = false) ∧
    (let e : RingEvent := { due := 0, watcher := (1, 0, 0) }
     let s := { pack with ringEvents := [e] }
     s.gang 0 = some lone ∧ Lowest (fun c => c < 72 ∧ ∃ h, s.gang c = some h ∧ (h.info.handle, h.info.squad, h.info.pos) = e.watcher) 0) ∧
    (let s := { pack with dieCaches := [(5, { valid := 1, dirty := 1, data := 7 })] :: List.replicate 7 [] }
     s.dieCaches.length = 8 ∧ Memory.wf s.mem = true ∧ ∀ d, d < 8 → sparseWf ({} : CacheLine) (s.dieCaches.getD d []) = true) := by
  refine ⟨⟨rfl, rfl, by decide +kernel⟩, ⟨rfl, rfl, rfl, by decide +kernel⟩, ⟨rfl, ⟨⟨by decide, lone, rfl, by decide +kernel⟩, fun e h => by omega⟩⟩,
    ⟨rfl, rfl, by decide +kernel⟩⟩
/-- A transaction of lane 0 with one sector written and none read, whose TXEND heads q0; its answer; and a request for the lock. -/
theorem wit_CommitsAndLock :
    (let t : TxLog := { id := 1, members := 1, writes := [{ lane := 0, va := 0x40, data := 7, mask := 1 }] }
     let e := entryOf { accessOf .txend (ownPiece 0) with pieces := [], txid := 1 }
     let g := withE (fun en => { en with q0 := [e], tx := { closing := [t], nextId := 2 } }) lone
     let s := cached (packC { act := 1 } g)
     Here s g ∧ ((g.eng 0).queue 0).find? (fun e => e.serial == s.ctx.id && e.acc.kind == .txend && !e.performed) = some e ∧
       mayCommit s 0 g 0 e = true ∧ (g.eng 0).tx.closing.find? (fun t => t.id == e.acc.txid) = some t ∧ (∀ j, t.members.getLsbD j = true ↔ j = 0) ∧
       Translates s 0 g 0x40 true true 0x100040 ∧ t.doomed = 0 ∧ (∀ x, ¬ SectorLocked s x) ∧ s.lock.holder = none) ∧
    (let e := { entryOf { accessOf .txend (ownPiece 0) with pieces := [], txid := 1 } with held := some 0 }
     let g := withE (fun en => { en with q0 := [e] }) lone
     ((g.eng 0).queue 0).find? (fun e => e.serial == 0 && e.acc.kind == .txend) = some e ∧ e.readyAt ≤ (packC {} g).cycle) ∧
    (let s : State := { pack with lock := { requests := [3] } }
     s.lock.holder = none ∧ s.lock.requests = 3 :: []) ∧
    (let s : State := { pack with lock := { holder := some 5 } }
     s.lock.holder = some 5 ∧ s.gang 5 = none) := by
  refine ⟨⟨rfl, by decide +kernel, by decide +kernel, by decide +kernel, fun j => ?_,
    leaf_translates _ _ true true rfl rfl rfl, rfl, fun x h => (by obtain ⟨c, _, _, h, _⟩ := h; cases h), rfl⟩, ⟨by decide +kernel, by decide⟩,
    ⟨rfl, rfl⟩, rfl, by decide +kernel⟩
  cases j with
  | zero => exact ⟨fun _ => rfl, fun _ => by decide⟩
  | succ n => refine ⟨fun h => ?_, fun h => absurd h (Nat.succ_ne_zero n)⟩
              have h1 : n + 1 < 32 := BitVec.lt_of_getLsbD h
              exact absurd h ((by decide +kernel : ∀ m, m < 32 → m ≠ 0 → ¬ ((1 : BitVec 32).getLsbD m = true)) _ h1 (Nat.succ_ne_zero n))
/-- An operation for a unit, its shadow set a copy of the registers given. -/
def opOf (opcode : Nat) (regs : RegFile 64) : UnitOp := { regs, opcode, baton := 3, consumes := [], issued := 0, engine := 0 }
/-- The gang with a unit's queue, in cycle 100. -/
def packUnit (u : Nat) (q : List UnitOp) : State × Gang :=
  let g := withUnit (padded lone) u { queue := q }
  ({ (packC { unit := u, act := 1 } g) with cycle := 100 }, g)
theorem wit_OperationStarts :
    (∀ u, u = 0 ∨ u = 3 →
      let o := opOf 0x10 [(2, 1), (3, 1), (4, 3)]
      let x := packUnit u [o]
      Here x.1 x.2 ∧ x.2.st = .running ∧ x.2.preemptReq = false ∧ (unitOf x.2 u).queue = o :: [] ∧ o.started = none ∧ o.fault = none ∧
        Starts x.1 x.2 o.issued o.marks o.consumes) ∧
    (let o := opOf 0x10 [(3, 1 + 2 ^ 40), (4, 3)]
     (paramsOf o).1 = 3 ∧ bits o.regs 3 39 39 = 0 ∧ (paramsOf o).2.2.2.2.2 ≠ (List.range 0).countP (bits o.regs 3 31 0).testBit) ∧
    (let o := { opOf 0x10 [] with consumes := [7] }
     let x := packUnit 0 [o]
     let f : FaultedBaton := { baton := 7, code := .page, vaddr := 0, detail := 0 }
     ({ x.2 with badBatons := [f] } : Gang).badBatons = [] ++ f :: [] ∧ f.baton ∈ o.consumes) ∧
    (let o : IwOp := { id := 0, baton := 3, consumes := [], issued := 0, engines := 1 }
     let w : WalkOp := { id := 0, regs := [] }
     let g := { withE (fun en => { en with walks := [w] }) lone with iwOps := [o] }
     let s := { (packC { unit := 2 } g) with cycle := 100 }
     Here s g ∧ g.iwOps = [] ++ o :: [] ∧ Starts s g o.issued o.marks o.consumes ∧
       ∀ k, k < 16 → o.engines.getLsbD k = true → ∃ w rest, (g.eng k).walks = w :: rest ∧ w.id = o.id) := by
  refine ⟨?_, by decide +kernel, ⟨rfl, by decide⟩, rfl, rfl, ⟨by decide, by simp, by decide +kernel, by intro f h; cases h⟩, fun k hk he => ?_⟩
  · rintro u (rfl | rfl) <;> exact ⟨rfl, rfl, rfl, rfl, rfl, rfl, by decide, by simp [opOf], by decide +kernel, by intro f h; cases h⟩
  · have h0 := (by decide +kernel : ∀ k, k < 16 → (1 : Mask).getLsbD k = true → k = 0) k hk he
    subst h0
    exact ⟨_, [], rfl, rfl⟩
/-- A copy of one row of four FP32 elements from engine 1's scratchpad to engine 0's, in the cycle of its chunk. -/
def copyRegs (src : Word) : RegFile 64 := [(0, src), (1, 0x2000000000000000), (2, 0x0000000100010004)]
theorem wit_CopyEngines :
    (let o := { opOf 0x10 (copyRegs 0x2000000001000040) with started := some 0 }
     let x := packUnit 0 [o]
     let s := { x.1 with cycle := 2 ^ 20 }
     (unitOf x.2 0).queue = o :: [] ∧ bits o.regs 5 2 0 = bits o.regs 5 5 3 ∧ bits o.regs 5 10 10 = 0 ∧
       copyLen o 4 = 4 ∧ Here s x.2 ∧ EngineSpot x.2 (copyAddr o (sget 0 o.regs 0) 3 4 0) 1 0x40 16 4 ∧ EngineSpot x.2 (copyAddr o (sget 0 o.regs 1) 4 4 0) 0 0 16 4 ∧
       (∀ k, k < 16 → Memory.wf (x.2.eng k).scratch = true) ∧ x.2.engines.length = 16) ∧
    (let o := { opOf 0x10 (copyRegs 0x5000000000000000) with started := some 0 }
     addrBits (copyAddr o (sget 0 o.regs 0) 3 4 0) 63 60 = 5 ∧ 0 < copyLen o 4) ∧
    (let o := { opOf 0x10 (copyRegs 0x5000000000000000) with started := some 0, chunk := 65536, lastLand := 7 }
     let x := packUnit 0 [o]
     copyRows o ≤ o.chunk / 65536 ∧ o.lastLand + 1 ≤ x.1.cycle) := by
  refine ⟨⟨rfl, by decide +kernel, by decide +kernel, by decide +kernel, rfl, ?_⟩, ?_⟩
  · unfold EngineSpot; decide +kernel
  · decide +kernel
/-- The last tile of a walk: three codes, read from the own scratchpad. -/
def walkRegs : RegFile 64 := [(0, 0x1000000000000000), (1, 0x1000000000000100), (3, 0x100000000), (4, 1)]
theorem wit_Walkers :
    (let scratch : Bytes := [(8, 3), (0x102, 5), (0x104, 9)]
     let w : WalkOp := { id := 0, regs := walkRegs, started := some 0 }
     let g := withE (fun en => { en with walks := [w], scratch }) (padded lone)
     let byte (a : Nat) : Byte := sget 0 scratch a
     w.tile + 1 = bits w.regs 3 63 32 ∧ bits w.regs 4 15 0 = 1 ∧ leOf byte 8 2 = 3 ∧ leOf byte 0 4 = 0 ∧ leOf byte 10 1 = 0 ∧ leOf byte 11 5 = 0 ∧
       (leOf byte 0x100 2, leOf byte 0x102 2, leOf byte 0x104 2) = (0, 5, 9) ∧ addrBits (sget 0 w.regs 0) 63 60 = 1 ∧
       addrBits (sget 0 w.regs 1) 63 60 = 1 ∧ Here (packC {} g) g ∧ Memory.wf scratch = true) ∧
    (let o : IwOp := { id := 0, baton := 3, consumes := [], issued := 0, engines := 1, started := some 0, lastDone := 40 }
     let g := { lone with iwOps := [o] }
     let s := { (packC {} g) with cycle := 100 }
     Here s g ∧ g.iwOps = [] ++ o :: [] ∧ o.lastDone + 1 ≤ s.cycle ∧ ∀ k, k < 16 → (g.eng k).walks = []) :=
  ⟨⟨rfl, rfl, by decide +kernel, by decide +kernel, by decide +kernel, by decide +kernel, by decide +kernel, by decide +kernel, by decide +kernel, rfl, rfl⟩,
    rfl, rfl, by decide, by decide +kernel⟩
/-- A broadcast of the squad's only gang, its contribution there and its result due. -/
theorem wit_Collectives :
    let key : CollKey := { handle := 1, squad := 0, mask := 1, pen := false, peer := 0, number := 0 }
    let o := { opOf 0x13 [(1, 0x2000000000000000), (2, 4), (3, 1), (4, 3), (5, 0x2000000001000000)] with started := some 0 }
    let m : CollMember := { core := 0, pos := 0, rank := 0, started := 0, timeout := 0, params := paramsOf o, data := some 7 }
    let i : CollInst := { key, members := [m] }
    let s (i : CollInst) : State := { pack with coll := [i] }
    Instance (s i) i [] [] ∧ i.members.length = (List.range 32).countP i.key.mask.getLsbD ∧ (∀ m, m ∈ i.members → m.data ≠ none) ∧
      i.fate = .waiting ∧ m ∈ i.members ∧ m.started + m.timeout ≤ (s i).cycle ∧ ({ i with fate := .done 0 } : CollInst).fate ≠ .waiting ∧
      (paramsOf o).1 = 3 ∧ sizeOfType (paramsOf o).2.2.1 = 4 ∧ collBytes (paramsOf o) 1 = 16 ∧ (paramsOf o).2.2.2.2.2 < 1 ∧
      EngineSpot (padded lone) (sget 0 o.regs 1) 0 0 16 4 ∧ EngineSpot (padded lone) (sget 0 o.regs 5) 1 0 16 16 := by
  refine ⟨⟨rfl, by intro j h; cases h⟩, by decide +kernel, by simp, rfl, List.mem_singleton.2 rfl, by decide, by decide, by decide +kernel, by decide +kernel,
    by decide +kernel, by decide +kernel, ?_⟩
  unfold EngineSpot
  decide +kernel

/-! ## Steps, gangs, tasks and squads -/

/-- The bundle of `pack` is next; what its add leaves commits. -/
theorem wit_StepRunsDecoded :
    let b := looseBundle (fetchBundle 32 0x050C1005)
    let u := pack.atIssue 0 false lone b []
    pack.gang 0 = some lone ∧ pack.ctx = { core := 0, spare := false } ∧ issueReady pack 0 false = true ∧ lone.code[0]? = some 0 ∧
      (0 : CodeWord) ≠ escapeWord ∧ lone.dict[0]? = some (fetchBundle 32 0x050C1005) ∧
      Lone (fetchBundle 32 0x050C1005) .s0 (.addSi 0 3 1 5) ∧ lone.prim.loop = none ∧
      waitOf { pack with ctx := issueCtx pack 0 false lone b } lone false b = none ∧
      faults (exec (.addSi 0 3 1 5) { u with ctx := { u.ctx with slot := .s0 } }) = [] ∧ pack.inputs = [] ∧ pack.stage = .up := by
  refine ⟨rfl, rfl, by decide +kernel, by decide +kernel, by decide, by decide +kernel, ⟨by decide +kernel, by decide, fun y h => ?_⟩, rfl,
    by decide +kernel, by decide +kernel, rfl, rfl⟩
  cases y <;> first | exact absurd rfl h | decide +kernel
/-- A bundle of a RET on an empty stack raises one fault. -/
theorem wit_StepRunsDecoded_faults :
    let w := encodeBundle { emptyBundle with s0 := some .ret }
    let g := { lone with dict := [w] }
    let s := packC {} g
    let b := looseBundle w
    let u := s.atIssue 0 false g b []
    Lone w .s0 .ret ∧ issueReady s 0 false = true ∧ waitOf { s with ctx := issueCtx s 0 false g b } g false b = none ∧
      (faults (exec .ret { u with ctx := { u.ctx with slot := .s0 } })).length = 1 := by
  refine ⟨⟨by decide +kernel, by decide, fun y h => ?_⟩, by decide +kernel, by decide +kernel, by decide +kernel⟩
  cases y <;> first | exact absurd rfl h | decide +kernel
/-- A gang that is faulting with nothing in flight; one in a queue wait past its bound, with a checkpoint; and a long wait. -/
theorem wit_TrapsAndHalts :
    (let r : FaultRec := { code := .page, rank := 1, slot := 6, queue := 0, engmask := 1, detail := 0, vaddr := 5, lanes := 1 }
     let g := { lone with st := .faulting, halt := some r }
     Here (packC {} g) g ∧ g.prim.lands = [] ∧ g.spare.lands = [] ∧ (∀ en, en ∈ g.engines → Still en) ∧ g.info.saveBase = 0) ∧
    (let q : Seq := { lone.prim with wait := some (.queue, 0), bound := 50 }
     let c : Ckpt := { at_ := 0, seq := lone.prim, engines := [(0, lone.eng 0)], split := false, splitTag := 0, splitDepth := 0, splitEngines := 0 }
     let g := { lone with prim := q, ckptP := some c }
     let s := { (packC {} g) with cycle := 100 }
     Here s g ∧ trapDue s 0 false = true ∧ c.split = g.split ∧ c.seq.lands = [] ∧ (c.engines.map (·.1)).Nodup ∧
       (∀ x, x ∈ c.engines → x.2.lands = [] ∧ x.1 < g.engines.length) ∧ q.traps + 1 < 4) ∧
    (let q : Seq := { lone.prim with wait := some (.queue, 0), bound := 50, traps := 3 }
     4 ≤ q.traps + 1) ∧
    (let q : Seq := { lone.prim with wait := some (.queue, 0), bound := 50, immediate := true }
     let g := { lone with prim := q }
     let s := { (packC {} g) with cycle := 800 }
     Here s g ∧ longWaitDue s 0 false = true ∧ q.wait = some (.queue, 0)) := by
  refine ⟨⟨rfl, rfl, rfl, ?_, rfl⟩, ⟨rfl, by decide +kernel, rfl, rfl, by decide, ?_, by decide⟩, by decide, rfl, by decide +kernel, rfl⟩
  · unfold Still; decide +kernel
  · intro x h; rw [List.mem_singleton.1 h]; exact ⟨rfl, by decide +kernel⟩
/-- Both arrivals of a split: the primary's bundle is a GMERGE, and the spare waits at it. -/
theorem wit_TrapsAndHalts_merge :
    let d := encodeBundle { emptyBundle with s0 := some .gmerge }
    let c : SeqCtl := { pc := 0, taken := false, active := 1, stack := [], resident := 1, spilled := 0, callDepth := 0, loop := none, act := .merge }
    let g := { lone with dict := [d], split := true, splitEngines := 2, prim := { lone.prim with ctl := some c, stack := [(0, 3)], resident := 1 }
                         spare := { wait := some (.merge, 0) } }
    Lone d .s0 .gmerge ∧ (looseBundle d).rp = false ∧ g.code[g.spare.pc]? = some 0 ∧ (0 : CodeWord) ≠ escapeWord ∧ g.dict[0]? = some d ∧
      g.prim.resident ≠ 0 ∧ ∀ j, j < 16 → ¬ Parted g (BitVec.ofNat 16 (sget 0 g.prim.stack 0).toNat) j := by
  refine ⟨⟨by decide +kernel, by decide, fun y h => ?_⟩, by decide +kernel, rfl, by decide, rfl, by decide, ?_⟩
  · cases y <;> first | exact absurd rfl h | decide +kernel
  · rintro j - ⟨k, hk, -, h, -⟩
    exact absurd h.1 (Decidable.not_not.2 ((by decide +kernel : ∀ k, k < 16 → (lone.eng k).bind.code = 0) k hk))
/-- A descriptor of one gang, and a task of it. -/
def descOf : Descriptor := parseDescriptor 0x100 (packBytes [(4, 0), (2, 1), (2, 0), (8, 0x400), (4, 1), (2, 1), (2, 1), (8, 0x440), (2, 1), (2, 1), (2, 1),
  (1, 48), (1, 0), (4, 0), (4, 0), (4, 0), (4, 0), (8, 0), (8, 0), (8, 0), (4, 0), (4, 0), (8, 0), (8, 0x200), (136, 0), (8, 0)])
def taskOf : Task := { handle := 1, desc := descOf, queue := 0, eff := 0, accepted := 0 }
/-- The package with a task and no gang, in cycle 2000. -/
def packT (t : Task) : State := { pack with cores := List.replicate 72 {}, cycle := 2000, sched := { tasks := [t] } }
theorem wit_StartsAndExits :
    (let q : Squad := { num := 0, state := .placed 1500, cores := [3] }
     let t := { taskOf with state := .running, squads := [q] }
     let s := packT t
     nextStart s = some (t, q) ∧ (∀ e, e ∈ t.desc.edges → e.testBit 32 = false) ∧ q.saves = [] ∧ q.cores.Nodup ∧
       ∀ c, c ∈ q.cores → c < s.cores.length ∧ (s.core c).fenced = false) ∧
    (let f : FaultedBaton := { baton := 2, code := .page, vaddr := 0, detail := 0 }
     let g := { lone with st := .exiting, badBatons := [f] }
     Here (packC {} g) g ∧ g.badBatons = f :: []) ∧
    (let g := { lone with st := .exiting }
     Here (packC {} g) g ∧ g.badBatons = [] ∧ g.prim.batch = none ∧ (∀ en, en ∈ g.engines → Still en) ∧ g.cp0.queue = [] ∧ g.cl.queue = [] ∧ g.iwOps = []) ∧
    (let g := { lone with st := .halted, preemptReq := true }
     g.saved = false ∧ g.info.saveBase = 0) ∧
    (let w := encodeBundle { emptyBundle with rp := true }
     let g := { lone with dict := [w], preemptReq := true }
     let s := { (packC {} g) with cycle := 500 }
     Here s g ∧ stopStep s 0 = .seq false ∧ g.prim.arrived = false ∧ ∀ en, en ∈ g.engines → en.sq = []) := by
  refine ⟨⟨by decide +kernel, by decide +kernel, rfl, by decide, by decide +kernel⟩, ⟨rfl, rfl⟩, ⟨rfl, rfl, rfl, ?_, rfl, rfl, rfl⟩, ⟨rfl, rfl⟩,
    rfl, by decide +kernel, rfl, by decide +kernel⟩
  unfold Still
  decide +kernel
/-- The hub's cache holds the leaf. -/
def hubbed (s : State) : State := { s with hubTc := [leafAt] }
theorem hub_maps (va n : Nat) (h : va + n ≤ 65536) (hv : va < 65536) (s : State) (hs : s.hubTc = [leafAt]) (hu : s.dieCaches = List.replicate 8 [])
    (hr : s.releasing 1 va = false) (hl : s.hubLater = []) : HubMaps s 1 va n (0x100000 + va % 65536) := by
  have hn : ∀ l, Uncached s l := by
    intro l d
    rw [hu]
    match d with
    | 0 | 1 | 2 | 3 | 4 | 5 | 6 | 7 => rfl
    | _ + 8 => rfl
  refine ⟨leafAt, ?_, rfl, rfl, rfl, hr, fun w h => (by rw [hl] at h; cases h), by omega, hn _, hn _⟩
  have h0 : va / 2 ^ pageBits 4 = 0 := Nat.div_eq_of_lt (by simpa [pageBits] using hv)
  simp [hs, tcFind, leafAt, h0]
/-- The bytes of the descriptor in memory, behind the leaf. -/
def descMem : Bytes := [(0x100104, 1), (0x100109, 4), (0x100110, 1), (0x100114, 1), (0x100116, 1), (0x100118, 0x40), (0x100119, 4), (0x100120, 1), (0x100122, 1),
  (0x100124, 1), (0x100126, 48), (0x100161, 2)]
def subOf : Submission := { queue := 0, addr := 0x100, asid := 1, core := 0, spare := false }
theorem wit_Tasks :
    (let c : Coming := { due := 5, sub := subOf }
     let s := { pack with cycle := 5, sched := { coming := [c] } }
     s.sched.coming = [] ++ c :: [] ∧ comingDue s c = true ∧ (s.sched.queues.getD 0 []).length < 64) ∧
    (let s := { (hubbed pack) with cycle := 400, contexts := [(1, { root := 0 })], mem := descMem, sched := { queues := [{ sub := subOf, entered := 0 }] :: List.replicate 63 [] } }
     nextQueue s = some 0 ∧ (readable s subOf).1 = s ∧ (readable s subOf).2 = some (descOf, 0) ∧ descOf.ok 0 = true ∧ descOf.ok 1 = false ∧
       descOf.nregion = 0 ∧ descOf.flags.testBit 1 = false ∧ (∀ e, e ∈ descOf.edges → e.testBit 32 = false) ∧ Memory.wf s.mem = true ∧
       HubMaps s 1 0x200 16 0x100200) ∧
    (let s := { (hubbed pack) with cycle := 400 }
     (readable { s with hubTc := [] } subOf).2 = none) ∧
    (let s := packT taskOf
     s.sched.tasks = taskOf :: [] ∧ taskOf.state = .queued ∧ taskOf.desc.gx * taskOf.desc.gy * taskOf.desc.gz ≠ 0) ∧
    (let c : ComingCancel := { due := 0, handle := 1, asid := 1, core := 0 }
     let s := { (packT taskOf) with sched := { tasks := [taskOf], cancels := [c] } }
     cancelDue s c = true ∧ c.asid = taskOf.desc.asid ∧ s.sched.cancels = [] ++ c :: [] ∧ ∀ k, k < 72 → s.gang k = none) := by
  exact ⟨⟨rfl, by decide +kernel, by decide +kernel⟩,
    ⟨by decide +kernel, by decide +kernel, by decide +kernel, by decide +kernel, by decide +kernel, by decide +kernel, by decide +kernel, by decide +kernel, rfl,
      hub_maps 0x200 16 (by decide) (by decide) _ rfl rfl rfl rfl⟩,
    by decide +kernel, ⟨rfl, rfl, by decide +kernel⟩, by decide +kernel, by decide +kernel, rfl, by decide +kernel⟩
/-- Tasks and squads in each of the states that an event of the scheduler meets. -/
theorem wit_Squads :
    (let t := { taskOf with state := .running, doneSquads := 1 }
     let s := packT t
     t.desc.gx * t.desc.gy * t.desc.gz ≤ t.doneSquads ∧ t.finishDue = none ∧ (∀ d, d < 8 → s.dirtyLines d = []) ∧
       ({ t with finishDue := some 9 } : Task).finishDue = some 9 ∧ { s with wbNext := 10 }.writtenBack 9 = true) ∧
    (let t := { taskOf with state := .ready, ageFrom := some 0 }
     let s := packT t
     t.nextSquad < t.desc.gx * t.desc.gy * t.desc.gz ∧ t.raised = false ∧ 0 + s.sched.age % 2 ^ 32 < s.cycle) ∧
    (let t := { taskOf with state := .ready }
     let s := packT t
     squadDue s = some (t, some [0]) ∧ t.loaded = false ∧ squadDue (packT { t with loaded := true, state := .running }) =
       some ({ t with loaded := true, state := .running }, some [0])) ∧
    (let t := { taskOf with state := .ready, desc := { descOf with ngang := 32 } }
     squadDue (packT t) = some (t, none)) ∧
    (let q : Squad := { num := 0, state := .preempted, saves := [lone] }
     let t := { taskOf with state := .running, squads := [q], nextSquad := 1 }
     strandedTask (packT t) = none ∧ resumeDue (packT t) = some (t, q, [0])) := by
  exact ⟨⟨by decide +kernel, rfl, by decide +kernel, rfl, by decide +kernel⟩, ⟨by decide +kernel, rfl, by decide +kernel⟩,
    ⟨by decide +kernel, rfl, by decide +kernel⟩, by decide +kernel, by decide +kernel, by decide +kernel⟩
/-- A squad of priority 0 on every core, for which one of priority 1 waits. -/
theorem wit_Squads_victim :
    let q : Squad := { num := 0, cores := List.range 72 }
    let t := { taskOf with state := .running, squads := [q], nextSquad := 1, desc := { descOf with saveVa := 0x10000 } }
    let w := { taskOf with handle := 2, state := .ready, eff := 1 }
    let s : State := { pack with cores := List.replicate 72 { gang := some lone }, sched := { tasks := [t, w] } }
    nextVictim s = some (1, q) := by decide +kernel
/-- The images of the descriptor's task: one code word, and one bundle that is a restart point. -/
theorem wit_Squads_images :
    let s := { (hubbed (packT taskOf)) with mem := [(0x10046F, 0x80)] }
    (loadImages s taskOf).1 = s ∧ (loadImages s taskOf).2.toOption =
      some { taskOf with code := [0], dict := [BitVec.ofNat 384 (2 ^ 383)], ceilImage := [], stencil := [], loaded := true } := by decide +kernel
/-- A gang that halted with SPARSE at a page that the walk finds, and a frame to commit. -/
theorem wit_Squads_commit :
    let r : FaultRec := { code := .sparse, rank := 1, slot := 6, queue := 0, engmask := 1, detail := 0, vaddr := 0x1234, lanes := 1 }
    let g := { lone with st := .halted, halt := some r, info := { lone.info with autoCommit := true } }
    let s := { (packC {} g) with cycle := 2000, contexts := [(1, { root := 0, pool64 := [0x20000] })]
                                 mem := [(0, 1), (1, 0x10), (0x1000, 1), (0x1001, 0x20), (0x2000, 1), (0x2001, 0x30), (0x3000, 0x1E)] }
    agentDue s = some (0, g) ∧ (s.leaf 1 0x1234).toOption = some (4, 0x3000, 0x1E) ∧ (0x1E : Nat).testBit 4 = true ∧ (0x1E : Nat).testBit 0 = false ∧
      kfind s.contexts 1 = some { root := 0, pool64 := [0x20000] } := by decide +kernel

/-! ## The hub -/

/-- A report of Finish, in which everything works. -/
def goodReport : FinishReport := { lastStep := 5, badCores := [], badSpares := [], lostRows := [], badCdies := [], badMdies := [], badChannels := [], badPorts := [] }
theorem wit_StagesAndErrors : pack.cores.length = 72 ∧ State.reset.stage = .off ∧ State.reset.hub.imageNext = false ∧
    ({ pack with stage := .primer } : State).stage = .primer ∧ ¬ ((∀ d, d < 8 → d ∈ goodReport.badCdies) ∨ ∀ d, d < 4 → d ∈ goodReport.badMdies) ∧
    (∀ d, d < 4 → d ∈ ({ goodReport with badMdies := [0, 1, 2, 3] } : FinishReport).badMdies) ∧ pack.stage = .up ∧
    (∀ t, t ∈ pack.sched.tasks → t.state = .done ∨ t.state = .cancelled ∨ t.state = .failed) ∧ pack.hub.log = [] ∧
    (let r : LogRec := { level := 0, cause := 6, unit := 2, count := 1, cycle := 0, addr := 0 }
     [r] = [] ++ r :: [] ∧ r.level = 0) ∧ sparseWf 0 pack.poison = true ∧ pack.gang 0 = some lone := by
  refine ⟨by decide +kernel, rfl, rfl, rfl, by decide +kernel, by decide +kernel, rfl, ?_, rfl, ⟨rfl, rfl⟩, rfl, rfl⟩
  intro t h; cases h
theorem wit_Fences : pack.cores.length = 72 ∧ (∃ f, f < 16 ∧ f ≠ 3 ∧ (pack.core 0).capOf f ≠ 0) ∧ sparseWf 0 pack.poison = true ∧
    keysRise pack.hub.conns = true ∧ pack.gang 0 = some lone := ⟨by decide +kernel, ⟨0, by decide, by decide, by decide +kernel⟩, rfl, rfl, rfl⟩
def remoteOf : Remote := { mac := 1, port := 2, encap := 0, ip := 0, udpPort := 0 }
/-- The record of a ring of 16 slots: VALID, the address space, the base and SLOTS. -/
def ringBytes : List Byte := packBytes [(4, 1), (2, 1), (2, 0), (8, 0x1000), (4, 16), (44, 0)]
theorem wit_ContextMessages : pack.stage = .up ∧ ({ pack with stage := .tripped } : State).stage = .tripped ∧ Installs (.removeContext 1) ∧
    kfind pack.contexts 1 = none ∧
    (let s := { pack with contexts := [(1, { root := 0x1000, pool64 := [0x20000] })] }
     kfind s.contexts 1 = some { root := 0x1000, pool64 := [0x20000] } ∧ keysRise s.contexts = true ∧ FrameOk s false 0x10000 ∧ ¬ FrameOk s false 0x20000 ∧
       ¬ FrameOk s true 0x10000 ∧ RecordOk s ringBytes ∧ kfind s.rings 3 = none ∧ RemoteOk remoteOf) := by
  refine ⟨rfl, rfl, .inr (.inl ⟨1, rfl⟩), rfl, rfl, by decide +kernel, ?_, ?_, ?_, ?_, rfl, ?_⟩
  · unfold FrameOk; decide +kernel
  · unfold FrameOk; decide +kernel
  · unfold FrameOk; decide +kernel
  · refine ⟨by decide +kernel, by decide +kernel, by decide +kernel, by decide +kernel, by decide +kernel, ⟨{ root := 0x1000, pool64 := [0x20000] }, by decide +kernel⟩, by decide +kernel, by decide +kernel,
      by decide +kernel, ⟨4, by decide +kernel⟩, .inr (by decide +kernel), by decide +kernel⟩
  · unfold RemoteOk; decide +kernel
/-- Gangs that are resident, saved and gone, a task to cancel, and an image that is complete or not. -/
theorem wit_AgentMessages : pack.stage = .up ∧
    (let g := { lone with st := .halted }
     let s := packC {} g
     watcherCore s (g.info.handle, g.info.squad, g.info.pos) = some 0 ∧ s.gang 0 = some g ∧ g.saved = false ∧ (s.core 0).fenced = false ∧
       watcherCore s (99, 0, 0) = none) ∧
    (let g := { lone with st := .halted, info := { lone.info with saveBase := 0x1000 } }
     let s := hubbed (packC {} g)
     s.gang 0 = some g ∧ HubMaps s 1 (g.info.saveBase + 128) 64 0x101080 ∧ s.poisoned 0x101080 64 = false) ∧
    (let s := packT taskOf
     s.sched.tasks.find? (fun x => x.handle == 1) = some taskOf ∧ ∀ k, k < 72 → s.gang k = none) ∧
    (let h : Hub := { imageLen := some 4096, image := [(0, 1)] }
     h.imageLen = some 4096 ∧ 0 + [(7 : Byte)].length ≤ 4096 ∧ 4096 < 4096 + [(7 : Byte)].length) ∧
    (List.replicate 32 (0 : Byte)).length = 32 := by
  refine ⟨rfl, by decide +kernel, ⟨rfl, hub_maps 0x1080 64 (by decide) (by decide) _ rfl rfl rfl rfl, by decide +kernel⟩, by decide +kernel, by decide +kernel, rfl⟩
def frameOf (op : Nat) : Frame := { encap := .ethernet 0x88B5, source := 1, port := 0, ver := 1, op, conn := 70, seq := 0, ackSeq := 0, sack := 0
                                    asid := 1, arg := 0, len := 0, addr := 0x40, payload := [] }
theorem wit_FrameDelivery :
    let c := { newConn remoteOf with unacked := [{ frame := frameOf 0x81, sent := 0, times := 1 }], ackOwed := some 4 }
    let s : State := { pack with cycle := 28000, hub := { portsUp := [true, false, false, false], conns := [(70, c)] } }
    keysRise s.hub.conns = true ∧ s.hub.portsUp.getD 0 false = true ∧ s.hub.portsUp.getD 1 false = false ∧ Spelled (Frame.wire (frameOf 1)) (frameOf 1) ∧ Formed (frameOf 1) ∧
      ¬ Formed { frameOf 1 with ver := 2 } ∧ Belongs s (frameOf 1) 70 c ∧ Wanted { c with unacked := [] } 0 ∧ s.hub.conns = (70, c) :: [] ∧
      c.ackOwed = some 4 ∧ 4 ≤ s.cycle ∧ 0 + 28000 ≤ s.cycle ∧ (1 : Nat) < 16 := by
  refine ⟨by decide +kernel, rfl, rfl, by unfold Spelled; decide +kernel,
    ⟨.inl rfl, by decide +kernel⟩, fun h => absurd h.2.1 (by decide),
    ⟨by decide +kernel, .inl ⟨by decide, by decide, rfl⟩⟩, ⟨0, by decide, rfl, ?_, fun i h => absurd h (Nat.not_lt_zero i)⟩, rfl, rfl, by decide, by decide, by decide⟩
  rintro ⟨f, h, -⟩
  cases h
/-- A connection whose next operation is one of each OP. -/
theorem wit_LinkOperations : ∀ op, 1 ≤ op → op ≤ 5 →
    let h := frameOf op
    let c := { newConn remoteOf with held := [h] }
    let s : State := { (hubbed pack) with ctx := { id := 70 }, contexts := [(1, { root := 0 })], hub := { conns := [(70, c)] } }
    Memory.wf s.mem = true ∧ kfind s.hub.conns s.ctx.id = some c ∧ c.held.find? (fun f => f.seq == c.next) = some h ∧ s.stage = .up ∧ h.asid ≠ 0 ∧
      (∃ x, kfind s.contexts h.asid = some x) ∧ HubMaps s h.asid h.addr.toNat 8 0x100040 ∧ HubMaps s h.asid h.addr.toNat 256 0x100040 ∧
      s.poisoned 0x100040 8 = false ∧ HubWord s 0x28 0 := by
  intro op _ _
  exact ⟨rfl, rfl, rfl, rfl, Nat.one_ne_zero, ⟨_, rfl⟩, hub_maps 0x40 8 (by decide) (by decide) _ rfl rfl rfl rfl, hub_maps 0x40 256 (by decide) (by decide) _ rfl rfl rfl rfl,
    rfl, .inr (.inr (.inl ⟨rfl, rfl⟩))⟩
/-- The message of type 1 that removes a context, as bytes. -/
theorem wit_LinkOperations_spells : Spells 0 (packBytes [(4, 1), (1, 1), (1, 0), (2, 7), (8, 0), (8, 0)]) (.removeContext 7) := by
  unfold Spells
  decide +kernel
/-- Instructions well-formed in their slots, and a bundle. -/
theorem wit_EncodeDecode : fieldsOk .s0 (.addSi 0 3 1 5) = true ∧ fieldsOk .v0 (.vadd plainV) = true ∧
    fieldsOk .f (.exp2 3 1 5 10 3) = true ∧ fieldsOk .m1 (.ld 0 0 2 1 0) = true ∧ fieldsOk .x (.tadd 5 2 6) = true ∧
    fieldsOk .l (.gvsh 3 4 2) = true ∧ fieldsOk .k (.scld 6 3 1) = true ∧ emptyBundle.wf = true ∧
    decodeBundle (encodeBundle emptyBundle) = some emptyBundle := by decide +kernel
/-- The package after reset, and the one that powers up from it. -/
theorem wit_StepKeepsMemory : State.reset.MemOk ∧ ∃ t, step State.reset = .next t := ⟨rfl, _, rfl⟩

end Sys2Proof.Tests
namespace Sys2Proof.Tests
open Sys2Proof.Machine Sys2Proof.Claims

/-! ## Further hypotheses, statement by statement -/

/-- A pattern that turns the lanes about. -/
def turned : Vec := packElems 8 ((List.range 32).map (fun l => (l, 31 - l)))
/-- Idle tiles, a pattern that permutes, and the package whose units a fence stops. -/
theorem wit_FormsComplete : Here pack lone ∧ .rcp 3 0 1 2 0 ∈ specialForms 3 0 1 2 0 ∧
    (∀ k, k < 16 → pack.ctx.act.getLsbD k = true → idle pack (lone.eng k) 7 ∧ idle pack (lone.eng k) 0) ∧
    readX pack 0 { (lone.eng 0) with x := [(0, turned)] } 0 = turned ∧
    (∀ l l', l < 32 → l' < 32 → l ≠ l' → skipOf turned l = false → skipOf turned l' = false →
      numOf turned l ≠ numOf turned l') ∧
    pack.cores.length = 72 ∧ sparseWf 0 pack.hub.fences = true ∧ keysRise pack.hub.conns = true ∧
    ∀ x, x ∈ pack.hub.conns → x.1 = 64 ∨ x.2.remote.port ≠ 3 := by
  have h : ∀ l, l < 32 → numOf turned l = 31 - l := by decide +kernel
  refine ⟨rfl, List.mem_cons_self, ?_, rfl, fun l l' hl hl' hn _ _ => by rw [h l hl, h l' hl']; omega, by decide +kernel, rfl, rfl, by decide +kernel⟩
  unfold idle
  decide +kernel
/-- An engine queue with an entry whose data have arrived, as a limb instruction pops it. -/
theorem wit_LimbInstructions_faultless :
    let g := withE (fun en => { en with q0 := [arrived 5] }) lone
    Faultless (packG (fun _ => g)) g [384, 1] := by
  intro g k hk ha c q p hc hq
  have h0 : k = 0 := (by decide +kernel : ∀ k, k < 16 → (packG (fun _ => g)).ctx.act.getLsbD k = true → k = 0) k hk ha
  subst h0
  rcases List.mem_cons.1 hc with rfl | hc
  · cases hq
    exact ⟨arrived 5, by decide +kernel, fun x h => (by cases h)⟩
  · rw [List.mem_singleton.1 hc] at hq
    cases hq
/-- A stack entry of reserved KIND 5. -/
theorem wit_GangSplitMerge_reserved :
    let c := onward (packG (withTop (5#64 <<< 47) 0)) (withTop (5#64 <<< 47) 0 lone)
    c.resident ≠ 0 ∧ 5 ≤ topKind c := by decide +kernel
/-- A squad of two gangs on two dies, of which one has not arrived at the package level. -/
theorem wit_WaitsAndBarriers_package :
    let g := { lone with info := { lone.info with ngang := 2, ndie := 2 } }
    let s := packG (fun _ => g)
    Here s g ∧ g.split = false ∧ g.info.ndie ≠ 1 ∧ ¬ PackArrived s g := by
  refine ⟨rfl, rfl, by decide, fun h => ?_⟩
  obtain ⟨h, ⟨c, hc, hg, -⟩, hp, -⟩ := h 1 (by decide)
  have := (by decide +kernel : ∀ c, c < 72 → ∀ h, (packG (fun _ => { lone with info := { lone.info with ngang := 2, ndie := 2 } })).gang c = some h → h.info.pos ≠ 1)
  exact this c (by omega) h hg hp
theorem wit_OrderAndPrefetch_room : pack.ctx.core < 72 ∧ (pack.dieCaches.getD (pack.ctx.core / 9) []).length + 16 ≤ 393216 := by decide +kernel
/-- TXENDs without a transaction and of a serial one. -/
theorem wit_CommitsAndLock_others :
    let e := entryOf { accessOf .txend (ownPiece 0) with pieces := [], txid := 1 }
    (let g := withE (fun en => { en with q0 := [e] }) lone
     let s := packC { act := 1 } g
     Here s g ∧ mayCommit s 0 g 0 e = true ∧ (g.eng 0).tx.closing.find? (fun t => t.id == e.acc.txid) = none) ∧
    (let t : TxLog := { id := 1, members := 1, serial := true }
     let g := withE (fun en => { en with q0 := [e], tx := { closing := [t] } }) lone
     let s := { (packC { act := 1 } g) with lock := { holder := some 0 } }
     Here s g ∧ mayCommit s 0 g 0 e = true ∧ (g.eng 0).tx.closing.find? (fun t => t.id == e.acc.txid) = some t) ∧
    pack.commits = [] ∧ lone.lockKept = false := ⟨⟨rfl, by decide +kernel, by decide +kernel⟩, ⟨rfl, by decide +kernel, by decide +kernel⟩, rfl, rfl⟩
/-- A commit whose next lane is its only member, with one sector read and one written, 32 cycles before its end; and one at its end. -/
theorem wit_CommitsAndLock_lanes :
    let w : TxWrite := { lane := 0, va := 0x40, data := 7, mask := 1 }
    let r : TxRead := { lane := 0, va := 0x80, pa := some 0x100080, value := some 0 }
    let c : Commit := { core := 0, engine := 0, q := 0, serial := 0, log := { id := 1, members := 1, writes := [w], reads := [r] }
                        sectors := [0x100040, 0x100080], taken := 2, writes := [(w, 0x100040)], ends := 32 }
    let s : State := { pack with commits := [c] }
    Memory.wf s.mem = true ∧ c.taken = c.sectors.length ∧ c.causes.length < 32 ∧ s.cycle < c.ends ∧ c.ends ≤ s.cycle + 32 - c.causes.length ∧
      c.log.members.getLsbD 0 = true ∧ c.log.doomed.getLsbD 0 = false ∧ leOf s.homeByte 0x100080 32 = 0 ∧ s.poisoned 0x100080 32 = false ∧
      s.poisoned 0x100040 32 = false ∧ (c.log.members.getLsbD 1 = false) ∧ ({ c with ends := 0 } : Commit).ends ≤ s.cycle ∧
      s.gang c.core = some lone := by
  exact ⟨rfl, rfl, by decide +kernel, by decide, by decide, rfl, rfl, by decide +kernel, rfl, rfl, rfl, by decide, rfl⟩
/-- A port's operation that reads no page under release; an ENGGO.IW that waits for a baton before one that need not. -/
theorem wit_OperationStarts_ports :
    PortReads (packUnit 3 [opOf 0x13 []]).1 (opOf 0x13 []) ∧
    (let p : IwOp := { id := 1, baton := 4, consumes := [9], issued := 0, engines := 2 }
     p.id ≠ 0 ∧ p.started = none ∧ lone.batons.getLsbD 9 = false ∧ 9 ∈ p.consumes) := by
  exact ⟨fun _ _ v h => (by cases h), by decide, rfl, by decide +kernel, by decide⟩
/-- The copy of one row between two engines reads no byte of its destination. -/
theorem wit_CopyEngines_apart :
    let o := { opOf 0x10 (copyRegs 0x2000000001000040) with started := some 0 }
    let x := packUnit 0 [o]
    o.kept = [] ∧ x.1.deadSram 0 1 = false ∧ ∀ j, j < 16 → o.reads x.1 0 0 x.2 (1, 0, 0, 0 + j) = false := ⟨rfl, by decide +kernel, by decide +kernel⟩
/-- Members that differ, members of which one has no contribution, and a group over two packages. -/
theorem wit_Collectives_fails :
    let key : CollKey := { handle := 1, squad := 0, mask := 3, pen := false, peer := 0, number := 0 }
    let m (pos rank : Nat) (p : Nat) (d : Option Nat) : CollMember :=
      { core := pos, pos, rank, started := 0, timeout := 0, params := (p, 0, 0, 4, 0, 0), data := d }
    let i (p : Nat) (d : Option Nat) : CollInst := { key, members := [m 0 0 3 (some 7), m 1 1 p d] }
    (i 3 none).fate = .waiting ∧ 0 < (i 3 none).npkg ∧ (∀ n, n ∈ (i 3 none).members → n.params = (3, 0, 0, 4, 0, 0)) ∧
      (m 1 1 3 none).data = none ∧ (m 0 0 3 none).params ≠ (m 1 1 2 none).params ∧ ({ key with pen := true } : CollKey).pen = true := by
  exact ⟨rfl, by decide, by decide, rfl, by decide, rfl⟩
/-- A gang that halted with nothing under way is released first, then saved; squads have pages and images to come back to. -/
theorem wit_StartsAndExits_release :
    let g := { lone with st := .halted, preemptReq := true }
    let s := packC {} g
    g.prim.batch = none ∧ g.cp0.queue = [] ∧ g.cp1.queue = [] ∧ g.cl.queue = [] ∧ (∀ en, en ∈ g.engines → en.walks = []) ∧ s.transit = [] ∧
      s.invs = [] ∧ s.commits = [] ∧ s.lock = {} ∧ stopStep s 0 = .release ∧
      stopStep { (packC {} { g with saveDue := some 0 }) with wbNext := 1 } 0 = .save ∧
      ∀ en, en ∈ g.engines → en.tx.opened = false ∧ en.tx.cur.reads = [] ∧ en.tx.cur.writes = [] := by
  exact ⟨rfl, rfl, rfl, rfl, by decide +kernel, rfl, rfl, rfl, by decide +kernel, by decide +kernel, by decide +kernel, by decide +kernel⟩
theorem wit_Squads_reloads :
    let s := { (hubbed (packT taskOf)) with mem := [(0x10046F, 0x80)] }
    let d : List Byte := List.replicate 47 0 ++ [0x80]
    readImages s taskOf.desc = (s, .ok ([0, 0], d, [], [])) ∧ Reloads s taskOf { taskOf with
      code := [0], dict := [BitVec.ofNat 384 (2 ^ 383)], ceilImage := [], stencil := [], loaded := true } := by
  have h : readImages { (hubbed (packT taskOf)) with mem := [(0x10046F, 0x80)] } taskOf.desc =
      ({ (hubbed (packT taskOf)) with mem := [(0x10046F, 0x80)] }, .ok ([0, 0], List.replicate 47 0 ++ [0x80], [], [])) := by
    refine Prod.ext (by decide +kernel) ?_
    have h : (readImages { (hubbed (packT taskOf)) with mem := [(0x10046F, 0x80)] } taskOf.desc).2.toOption =
        some ([0, 0], List.replicate 47 0 ++ [0x80], [], []) := by decide +kernel
    revert h
    generalize (readImages _ _).2 = r
    intro h
    cases r with
    | error e => cases h
    | ok x => cases h; rfl
  exact ⟨h, _, _, _, _, h, by decide +kernel⟩
/-- An array operation in flight in engine 1, that a correction delays. -/
theorem wit_StagesAndErrors_delay :
    let x : XOp := { issued := 0, due := 9, serial := 0, opcode := 1, rows := [], load := none }
    let g := withE (fun en => { en with xops := [x] }) lone
    let s := packC {} g
    s.gang 0 = some g ∧ (g.eng 0).xops.any arrayOp = true ∧ (g.eng 1).xops.any arrayOp = false ∧ ∀ r, r ∈ s.hub.log → ¬ (r.level = 0 ∧ r.unit = 2) := by
  exact ⟨rfl, by decide +kernel, by decide +kernel, fun r h => (by cases h)⟩
/-- The record that removes a ring, one with a reserved byte, and the ring that goes. -/
theorem wit_ContextMessages_removal :
    let b := packBytes [(4, 0), (2, 0), (2, 0), (56, 0)]
    let c := packBytes [(4, 0), (2, 0), (2, 1), (56, 0)]
    b.length = 64 ∧ fieldAtOf b 0 4 % 2 = 0 ∧ fieldAtOf b 0 4 < 12 ∧ fieldAtOf b 6 2 = 0 ∧ c.length = 64 ∧ fieldAtOf c 0 4 % 2 = 0 ∧
      fieldAtOf c 6 2 ≠ 0 ∧ (ringFrom ringBytes).pages = [] := by decide +kernel
/-- A gang that halted for a page fault and one for an uncorrectable word of an X slot; and an image that awaits the next reset. -/
theorem wit_AgentMessages_halts :
    (let r : FaultRec := { code := .page, rank := 1, slot := 6, queue := 0, engmask := 1, detail := 0, vaddr := 5, lanes := 1 }
     let g := { lone with st := .halted, halt := some r }
     let s := packC {} g
     watcherCore s (g.info.handle, g.info.squad, g.info.pos) = some 0 ∧ s.gang 0 = some g ∧ g.saved = false ∧ g.halt = some r ∧
       ¬ (r.code = .poison ∧ r.slot = 8) ∧ g.info.saveBase = 0 ∧ (s.core 0).fenced = false ∧ g.live &&& (s.core 0).fencedEngines = 0 ∧
       (({ s.core 0 with fenced := true } : Core).fenced = true)) ∧
    ({ imageNext := true } : Hub).imageNext = true := by
  exact ⟨⟨by decide +kernel, rfl, rfl, rfl, by decide, rfl, by decide +kernel, by decide +kernel, rfl⟩, rfl⟩
/-- A wire too short for the header. -/
theorem wit_FrameDelivery_short : ({ port := 0, encap := .ethernet 0x88B5, mac := 1, bytes := [1] } : Wire).bytes.length < 32 := by decide

end Sys2Proof.Tests
namespace Sys2Proof.Tests
open Sys2Proof.Machine Sys2Proof.Claims

/-! ## Poisoned words and commits on a lost M-die -/

/-- Engine 0 of the gangs above holds no poison, and its marks are in canonical form. -/
theorem wit_Clean : CleanSram (lone.eng 0) ∧ Clean (lone.eng 0) 0x40 16 ∧ (∀ k, k < 16 → sparseWf 0 (lone.eng k).poison = true) :=
  ⟨fun _ => rfl, fun _ _ => rfl, by decide +kernel⟩
/-- A load of four bytes of a sector of the own scratchpad that is poisoned, and of its neighbour that is not. -/
theorem wit_AccessesPerformed_poisoned :
    let e := entryOf (accessOf .load (ownPiece 4))
    let g := withE (fun en => { en with q0 := [e], poison := [(2, 1)] }) (padded lone)
    let s := packC { act := 1 } g
    Here s g ∧ Entry s g e ∧ entryDue s 0 0 g e = true ∧ e.held = none ∧ OwnPiece g (ownPiece 4) ∧ offsetOf (ownPiece 4) / 32 = 2 ∧
      sget 0 (g.eng 0).poison ((offsetOf (ownPiece 4) + 0) / 32) = 1 ∧ Clean (g.eng 0) 0x60 4 := by
  refine ⟨rfl, ⟨by decide, by decide, rfl, rfl⟩, by decide +kernel, rfl, own_piece 4 (.inl rfl), by decide +kernel, by decide +kernel, ?_⟩
  unfold Clean
  decide +kernel
/-- An operation that has read a poisoned word of the ceiling store. -/
theorem wit_ArrayCompletion_poisoned :
    let x : XOp := { issued := 0, due := 0, serial := 0, opcode := 1, rows := [(0, 1)], load := none, bad := some 0x4000000000000040 }
    let g := withE (fun en => { en with xops := [x] }) lone
    let s := packG (fun _ => g)
    Here s g ∧ (g.eng s.ctx.engine).xops = x :: [] ∧ x.bad = some 0x4000000000000040 ∧ g.st = .running ∧ g.ckptS = none ∧
      (x.rows.map (·.1)).Nodup := ⟨rfl, rfl, rfl, rfl, rfl, by decide⟩
/-- A commit with two lanes, of which lane 0 writes M-die 0 and lane 1 reads M-die 1; neither is decided. -/
theorem wit_Fences_commit :
    let w : TxWrite := { lane := 0, va := 0x40, data := 7, mask := 1 }
    let r (pa : Nat) : TxRead := { lane := 1, va := 0x80, pa := some pa, value := some 0 }
    let c (pa : Nat) : Commit := { core := 0, engine := 0, q := 0, serial := 0, log := { id := 1, members := 3, writes := [w], reads := [r pa] }
                                   sectors := [0x100040, pa], writes := [(w, 0x100040)], ends := 272 }
    ∃ pa, sliceOf 0x100040 / 16 ≠ sliceOf pa / 16 ∧ (c pa).causes.length ≤ 1 ∧ (c pa).log.members.getLsbD 1 = true ∧
      (c pa).log.doomed.getLsbD 1 = false ∧ r pa ∈ (c pa).log.reads ∧ kfind (c pa).log.causes 1 = none ∧
      LosesLane (c pa) (sliceOf pa / 16) 1 ((c pa).loseMdie (sliceOf pa / 16)) ∧
      LosesLane (c pa) (sliceOf pa / 16) 0 ((c pa).loseMdie (sliceOf pa / 16)) := by
  refine ⟨0x100080 + 2 ^ 12, by decide +kernel, by decide, rfl, rfl, by simp, rfl, ⟨fun _ => by decide +kernel, fun h => ?_⟩, ⟨fun h => ?_, fun _ => by decide +kernel⟩⟩
  · exact absurd ⟨by decide, rfl, rfl, .inl ⟨_, _, List.mem_cons_self, rfl, rfl, rfl⟩⟩ h
  · exfalso
    obtain ⟨-, -, -, h | ⟨w, hw, -, ht⟩⟩ := h
    · obtain ⟨r, pa, hr, hl, -⟩ := h
      rw [List.mem_singleton.1 hr] at hl
      exact absurd hl (by decide)
    · rw [List.mem_singleton.1 hw] at ht
      exact absurd ht (by decide +kernel)

end Sys2Proof.Tests
namespace Sys2Proof.Tests
open Sys2Proof.Machine Sys2Proof.Claims

/-! ## Accesses wherever they lead, and what arrives -/

/-- A load of four lanes: engine 1's scratchpad, memory as a plain part and as a serial one's, and a doomed lane. -/
def farPieces : List Piece :=
  [{ ownPiece 4 with addr := 0x2000000001000040 }, { memPiece 4 with lane := 1 }, { memPiece 4 with lane := 2, tx := .serial },
   { memPiece 4 with lane := 3, tx := .dead }]
theorem wit_AccessesPerformed_anywhere :
    let e := { entryOf (accessOf .load (ownPiece 4)) with acc := { accessOf .load (ownPiece 4) with pieces := farPieces } }
    let g := withE (fun en => { en with q0 := [e] }) (padded lone)
    let s := cached (packC { act := 1 } g)
    Here s g ∧ CachesWf s ∧ Entry s g e ∧ e.pins = [] ∧ entryDue s 0 0 g e = true ∧ e.held = none ∧
      (s.dieCaches.getD (dieOf s.ctx.core) []).length + e.acc.pieces.length ≤ 393216 ∧
      ToScratch s g 0 { ownPiece 4 with addr := 0x2000000001000040 } 0 1 0x40 ∧ Sound s 0 1 0x40 4 ∧
      ToMemory s g { memPiece 4 with lane := 1 } true false 0x100040 ∧ ToMemory s g { memPiece 4 with lane := 2, tx := .serial } true false 0x100040 ∧
      SoundMemory s g 0x100040 4 ∧ 0x100040 / 128 = (0x100040 + 4 - 1) / 128 := by
  refine ⟨rfl, caches_wf _ rfl, ⟨by decide, by decide, rfl, rfl⟩, rfl, by decide +kernel, rfl, by decide +kernel,
    ⟨by decide, by decide, by decide, show _ % _ = _ by decide, ⟨_, rfl, by decide +kernel, fun _ => by decide +kernel⟩, .inr (.inl ⟨by decide, by decide, by decide, rfl, by decide⟩)⟩,
    ⟨by decide +kernel, fun h hh j _ => ?_⟩, ⟨by decide, by decide, show _ % _ = _ by decide, leaf_translates _ _ true false rfl rfl rfl⟩,
    ⟨by decide, by decide, show _ % _ = _ by decide, leaf_translates _ _ true false rfl rfl rfl⟩,
    ⟨by decide +kernel, by decide +kernel, fun r h => (by cases h)⟩, by decide⟩
  cases hh
  rfl
/-- A 32-bit addition to engine 1's scratchpad, and to memory below package scope and at it. -/
theorem wit_AccessesPerformed_atomics : ∀ scope, scope = 0 ∨ scope = 2 →
    let acc (p : Piece) : Access := { accessOf (.atom 0 false) p with scope }
    let p : Piece := { ownPiece 4 with addr := 0x2000000001000040 }
    let st (p : Piece) : State × Gang :=
      let g := withE (fun en => { en with q0 := [entryOf (acc p)] }) (padded lone)
      (cached (packC { act := 1 } g), g)
    (∀ q, q = p ∨ q = memPiece 4 → Here (st q).1 (st q).2 ∧ CachesWf (st q).1 ∧ Memory.wf (st q).1.mem = true ∧ Entry (st q).1 (st q).2 (entryOf (acc q)) ∧
      entryDue (st q).1 0 0 (st q).2 (entryOf (acc q)) = true ∧ (entryOf (acc q)).acc.kind = .atom 0 ((32 : Nat) == 64) ∧ q.bytes = 32 / 8 ∧ q.block = none) ∧
    ToScratch (st p).1 (st p).2 0 p 0 1 0x40 ∧ Memory.wf ((st p).1.scratch 0 1) = true ∧
    ToMemory (st (memPiece 4)).1 (st (memPiece 4)).2 (memPiece 4) true true 0x100040 ∧ SoundMemory (st (memPiece 4)).1 (st (memPiece 4)).2 0x100040 4 := by
  rintro scope (rfl | rfl) <;>
    refine ⟨?_, ⟨by decide, by decide, by decide, show _ % _ = _ by decide, ⟨_, rfl, by decide +kernel, fun _ => by decide +kernel⟩, .inr (.inl ⟨by decide, by decide, by decide, rfl, by decide⟩)⟩, rfl,
      mem_leads _ _ _ _ 4 rfl rfl rfl (.inl rfl), by decide +kernel, by decide +kernel, fun r h => (by cases h)⟩ <;>
    (rintro q (rfl | rfl) <;> exact ⟨rfl, caches_wf _ rfl, rfl, ⟨by decide, by decide, rfl, rfl⟩, by decide +kernel, rfl, rfl, rfl⟩)
/-- A released store on its way to a scratchpad, a die cache and the home slices, and a dirty line on its way home. -/
theorem wit_BatchesAndWalks_arrivals :
    (∀ place, place = Target.scratch 0 1 ∨ place = .die 0 ∨ place = .home →
      let x : Transit := { due := 1, core := 0, engine := 0, serial := 0, target := place, writes := [(0x40, [5, 0, 0, 0])] }
      let s : State := { pack with transit := [x] }
      Quiet s ∧ CachesWf s ∧ x.gate = false ∧ x.due ≤ s.cycle + 1 ∧ { s with cycle := s.cycle + 1 }.canLand x = true ∧
        (∀ w, w ∈ x.writes → w.2 ≠ []) ∧ s.deadDie 0 = false ∧ s.deadSram 0 1 = false ∧
        (s.dieCaches.getD 0 []).length + (x.writes.map (fun w => w.2.length)).sum ≤ 393216) ∧
    (let w : WriteBack := { due := 1, die := 0, line := 5, event := 0 }
     let s : State := { pack with writeBacks := [w], wbNext := 1, dieCaches := [(5, { valid := 1, dirty := 1, data := 7 })] :: List.replicate 7 [] }
     s.commits = [] ∧ s.transit = [] ∧ s.invs = [] ∧ s.hubLater = [] ∧ w.due ≤ s.cycle + 1 ∧ s.dieCaches.length = 8 ∧
       (∀ d, d < 8 → sparseWf ({} : CacheLine) (s.dieCaches.getD d []) = true) ∧ w.event < s.wbNext) := by
  refine ⟨?_, rfl, rfl, rfl, rfl, by decide, rfl, by decide +kernel, by decide⟩
  rintro place (rfl | rfl | rfl) <;>
    exact ⟨⟨rfl, rfl, rfl, rfl⟩, caches_wf _ rfl, rfl, by decide, by decide +kernel, by decide, by decide +kernel, by decide +kernel, by decide +kernel⟩
/-- A batch of one store to engine 1's scratchpad and one to memory. -/
theorem wit_BatchesAndWalks_leave :
    let p : Piece := { ownPiece 4 with addr := 0x2000000001000040 }
    let e (n : Nat) (p : Piece) : SQEntry := { serial := n, acc := accessOf .store p, marker := none, completeAt := 0 }
    let b : Batch := { entries := [(0, [e 0 p, e 1 (memPiece 4)])], sealedAt := 0, fault := none }
    let g := { padded lone with prim := { lone.prim with batch := some b } }
    let s := cached (packC { act := 1 } g)
    Here s g ∧ (g.seq s.ctx.spare).batch = some b ∧ batchDue s 0 g b = true ∧ (g.eng 0).fences = [] ∧ ToScratch s g 0 p 0 1 0x40 ∧
      ToMemory s g (memPiece 4) false true 0x100040 ∧ (e 0 p).acc.pre = none := by
  exact ⟨rfl, rfl, by decide +kernel, rfl,
    ⟨by decide, by decide, by decide, show _ % _ = _ by decide, ⟨_, rfl, by decide +kernel, fun _ => by decide +kernel⟩, .inr (.inl ⟨by decide, by decide, by decide, rfl, by decide⟩)⟩,
    mem_leads _ _ _ _ 4 rfl rfl rfl (.inl rfl), rfl⟩
/-- A leaf in the die's cache and not in the core's. -/
theorem wit_BatchesAndWalks_die : (pack.core 0).tc = [] ∧ ([leafAt].find? (fun e => e.asid == 1 && 0x1234 / 2 ^ pageBits e.level == e.va / 2 ^ pageBits e.level)) =
    some leafAt := by decide +kernel
/-- A dirty line with a sector that a commit has locked; a commit that waits for it, and one that goes on. -/
theorem wit_CommitsAndLock_waits :
    let c : Commit := { core := 0, engine := 0, q := 0, serial := 0, log := { id := 1 }, sectors := [0x100020, 0x100040], taken := 2, writes := [] }
    let d : Commit := { c with serial := 1, sectors := [0x100000, 0x100040, 0x100060], taken := 1 }
    let s : State := { pack with commits := [c, d] }
    SectorLocked s 0x100040 ∧ d ∈ s.commits ∧ d.sectors[d.taken]? = some 0x100040 ∧
      (let line : CacheLine := { valid := 1, dirty := 1, data := 7 }
       line.dirty ≠ 0 ∧ 0x100040 < 128 * 0x2000 + 128 ∧ 128 * 0x2000 < 0x100040 + 32) ∧
      (let s : State := { pack with commits := [d] }
       d.taken < d.sectors.length ∧ s.gang d.core = some lone ∧ ∀ m x, d.taken ≤ m → d.sectors[m]? = some x → ¬ SectorLocked s x) := by
  refine ⟨⟨_, 1, 0x100040, List.mem_cons_self, by decide, rfl, by decide, by decide⟩, by simp, rfl, by decide, by decide, rfl, ?_⟩
  rintro m x hm hx ⟨c, n, y, hc, hn, hy, h1, h2⟩
  rw [List.mem_singleton.1 hc] at hn hy
  have hn0 : n = 0 := Nat.lt_one_iff.1 hn
  subst hn0
  cases hy
  match m, hm with
  | 1, _ => cases hx; omega
  | 2, _ => cases hx; omega
  | n + 3, _ => cases hx

/-! ## Bundles that commit -/

/-- The gang at a bundle of one instruction in S0, and the package about to try it. -/
def held (i : Instr) (rp : Bool) (f : Gang → Gang) : State × Gang × BundleBits :=
  let w := encodeBundle { emptyBundle with s0 := some i, rp }
  let g := f { lone with dict := [w] }
  ({ (packC {} g) with ctx := { core := 0, spare := false } }, g, w)
/-- A restart point of one addition is ready. -/
theorem wit_FormsComplete_bundle :
    let x := held (.addSi 0 3 1 5) true id
    Holding x.1 0 false x.2.1 x.2.2 .s0 (.addSi 0 3 1 5) ∧ Ready x.1 x.2.1.prim ∧ x.2.1.prim.batch = none ∧ x.2.1.spare.batch = none ∧
      x.2.2.getLsbD 383 = true := by
  refine ⟨⟨rfl, rfl, rfl, rfl, fun h => (by cases h), rfl, rfl, rfl, ⟨by decide +kernel, by decide, fun y h => ?_⟩, 0, rfl, by decide, rfl⟩,
    ⟨by decide +kernel, by decide +kernel, .inl rfl⟩, rfl, rfl, by decide +kernel⟩
  cases y <;> first | exact absurd rfl h | decide +kernel
/-- A WAIT whose event has come, a BWAIT whose baton has, and a BAR at gang level. -/
theorem wit_FormsComplete_wakes :
    (let x := held (.wait 3 0 0 8) false (fun g => { g with events := 8, prim := { g.prim with wait := some (.event, 0) } })
     Holding x.1 0 false x.2.1 x.2.2 .s0 (.wait 3 0 0 8) ∧ x.2.1.prim.wait = some (.event, 0) ∧ x.2.1.events &&& 8#4 ≠ 0) ∧
    (let x := held (.bwait 3 1 0 1) false (fun g => { g with batons := 2, prim := { g.prim with s := [(1, 6)], wait := some (.baton, 0) } })
     Holding x.1 0 false x.2.1 x.2.2 .s0 (.bwait 3 1 0 1) ∧ x.2.1.prim.wait = some (.baton, 0) ∧ x.2.1.badBatons = [] ∧
       x.2.1.batons &&& ((readS x.1 x.2.1.prim 1).setWidth 32) ≠ 0) ∧
    (let x := held (.bar 0) false (fun g => { g with prim := { g.prim with wait := some (.barrier, 0), arrived := true } })
     Holding x.1 0 false x.2.1 x.2.2 .s0 (.bar 0) ∧ x.2.1.prim.wait = some (.barrier, 0) ∧ x.2.1.prim.arrived = true ∧ x.2.1.split = false ∧
       x.2.1.arrivals.length = 3) := by
  refine ⟨⟨⟨rfl, rfl, rfl, rfl, fun h => (by cases h), rfl, rfl, rfl, ⟨by decide +kernel, by decide, fun y h => ?_⟩, 0, rfl, by decide, rfl⟩, rfl, by decide⟩,
    ⟨⟨rfl, rfl, rfl, rfl, fun h => (by cases h), rfl, rfl, rfl, ⟨by decide +kernel, by decide, fun y h => ?_⟩, 0, rfl, by decide, rfl⟩, rfl, rfl, by decide +kernel⟩,
    ⟨⟨rfl, rfl, rfl, rfl, fun h => (by cases h), rfl, rfl, rfl, ⟨by decide +kernel, by decide, fun y h => ?_⟩, 0, rfl, by decide, rfl⟩, rfl, rfl, rfl, rfl⟩⟩ <;>
  (cases y <;> first | exact absurd rfl h | decide +kernel)
/-- A GSPLIT with both paths populated to the next bundle, an EXIT and a BRK. -/
theorem wit_GangSplitMerge_commit :
    let x := held (.gsplit 1 1) false (fun g => { g with code := [0, 0], prim := { g.prim with g := [(1, 1)] } })
    let m := x.2.1.prim.active &&& readG x.1 x.2.1 x.2.1.prim 1
    Holding x.1 0 false x.2.1 x.2.2 .s0 (.gsplit 1 1) ∧ Ready x.1 x.2.1.prim ∧ x.2.1.spareLive = true ∧ x.2.1.split = false ∧
      x.2.1.prim.resident < 32 ∧ m ≠ 0 ∧ x.2.1.prim.active &&& ~~~ readG x.1 x.2.1 x.2.1.prim 1 ≠ 0 ∧ (∀ j, j < 16 → ¬ Parted x.2.1 m j) ∧
      StartsBundle x.2.1 1 := by
  refine ⟨⟨rfl, rfl, rfl, rfl, fun h => (by cases h), rfl, rfl, rfl, ⟨by decide +kernel, by decide, fun y h => ?_⟩, 0, rfl, by decide, rfl⟩,
    ⟨by decide +kernel, by decide +kernel, .inl rfl⟩, rfl, rfl, by decide, by decide +kernel, by decide +kernel, ?_, .next 0 (.first (by decide)) (by decide)⟩
  · cases y <;> first | exact absurd rfl h | decide +kernel
  · rintro j - ⟨k, hk, -, h, -⟩
    exact absurd h.1 (Decidable.not_not.2 ((by decide +kernel : ∀ k, k < 16 → (lone.eng k).bind.code = 0) k hk))
theorem wit_StackAndExit_commit : ∀ i, i = Instr.sysExit ∨ i = .sysBrk →
    let x := held i false id
    Holding x.1 0 false x.2.1 x.2.2 .s0 i ∧ Ready x.1 x.2.1.prim ∧ x.2.1.prim.batch = none ∧ x.2.1.spare.batch = none ∧ x.2.1.split = false ∧
      x.2.1.prim.resident = 0 ∧ x.2.1.prim.spilled = 0 ∧ x.2.2.getLsbD 383 = false := by
  rintro i (rfl | rfl) <;>
    refine ⟨⟨rfl, rfl, rfl, rfl, fun h => (by cases h), rfl, rfl, rfl, ⟨by decide +kernel, by decide, fun y h => ?_⟩, 0, rfl, by decide, rfl⟩,
      ⟨by decide +kernel, by decide +kernel, .inl rfl⟩, rfl, rfl, rfl, rfl, rfl, by decide +kernel⟩ <;>
    (cases y <;> first | exact absurd rfl h | decide +kernel)
/-- Results that are due in the next cycle: one alone for each file, one more a cycle later. -/
theorem wit_ControlRegistersWritten_landings :
    let l : List ELand := [⟨0, 1, .e 3 1 5⟩, ⟨0, 1, .v 2 1 7⟩, ⟨0, 2, .e 3 1 6⟩, ⟨0, 1, .cr 0x200 70⟩, ⟨0, 1, .tile 2 (List.replicate 64 9)⟩]
    let g := withE (fun en => { en with lands := l }) { lone with prim := { lone.prim with lands := [⟨0, 1, .s 3 5⟩, ⟨0, 1, .cr 0x011 6⟩] } }
    let s := packC {} g
    Quiet s ∧ s.transit = [] ∧ s.gang 0 = some g ∧ FilesWf (g.eng 0) ∧ (∀ x i rows, x ∈ (g.eng 0).lands → x.pay = .tile i rows → rows.length = 64) ∧
      (∀ y, y ∈ l.drop 1 → y.due ≤ s.cycle + 1 → ¬ OneCell (.e 3 1 5) y.pay) ∧ sparseWf 0 g.prim.s = true ∧
      (after (.next s.tick)).batons = 6 ∧ cell ((after (.next s.tick)).eng 0) (.cr 0x200 0) = [64] := by
  refine ⟨⟨rfl, rfl, rfl, rfl⟩, rfl, rfl, ⟨rfl, rfl, rfl, rfl, rfl, rfl, rfl, rfl, rfl, rfl, rfl⟩, ?_, ?_, rfl, by decide +kernel, by decide +kernel⟩
  · intro x i rows hx h
    have := (by decide +kernel : ∀ x, x ∈ ([⟨0, 1, .e 3 1 5⟩, ⟨0, 1, .v 2 1 7⟩, ⟨0, 2, .e 3 1 6⟩, ⟨0, 1, .cr 0x200 70⟩, ⟨0, 1, .tile 2 (List.replicate 64 9)⟩] : List ELand) →
      (match x.pay with
        | .tile _ r => decide (r.length = 64)
        | _ => true) = true) x hx
    rw [h] at this
    exact of_decide_eq_true this
  · intro y hy hd
    rintro (h | ⟨i, m, n, v, w, h, -⟩ | ⟨i, m, n, v, w, h, -⟩)
    · have := (by decide +kernel : ∀ y, y ∈ ([⟨0, 1, .v 2 1 7⟩, ⟨0, 2, .e 3 1 6⟩, ⟨0, 1, .cr 0x200 70⟩, ⟨0, 1, .tile 2 (List.replicate 64 9)⟩] : List ELand) → y.due ≤ 1 →
        (EPay.e 3 1 5).clash y.pay = false) y hy hd
      rw [this] at h
      cases h
    · cases h
    · cases h

/-! ## Barriers, saves, poison and messages -/

/-- A squad of two gangs on two dies that have both arrived at the package level, 140 cycles and more ago. -/
theorem wit_WaitsAndBarriers_open :
    let g (n : Nat) : Gang := { lone with info := { lone.info with ngang := 2, ndie := 2, pos := n }, arrivals := [0, 1, n + 1], arriveAt := 5 }
    let s : State := { pack with cores := (pack.cores.set 0 { gang := some (g 0) }).set 9 { gang := some (g 1) } }
    Here s (g 0) ∧ PackOpen s (g 0) := by
  refine ⟨rfl, fun j hj => ?_, .inl ⟨_, ⟨9, by decide, rfl, rfl, rfl⟩, by decide⟩⟩
  match j, hj with
  | 0, _ => exact ⟨_, ⟨0, by decide, rfl, rfl, rfl⟩, rfl, by decide⟩
  | 1, _ => exact ⟨_, ⟨9, by decide, rfl, rfl, rfl⟩, rfl, by decide⟩
/-- A gang that has stopped at a restart point with nothing under way, its lines written back, is saved with STATE 3. -/
theorem wit_StartsAndExits_save :
    let g := { lone with preemptReq := true, saveDue := some 0, prim := { lone.prim with stopped := true } }
    let s := { (packC {} g) with wbNext := 1 }
    Here s g ∧ g.st = .running ∧ stopStep s 0 = .save ∧ g.info.saveBase = 0 := by
  exact ⟨rfl, rfl, by decide +kernel, rfl⟩
/-- A gang that halted for a page fault takes POISON in its place; one that halted for a poisoned word of its X slot does not. -/
theorem wit_StagesAndErrors_poison :
    let r : FaultRec := { code := .page, rank := 1, slot := 6, queue := 0, engmask := 1, detail := 0, vaddr := 5, lanes := 1 }
    let g := { lone with st := .halted, halt := some r }
    let h := { lone with st := .halted, halt := some { r with code := .poison, slot := 8 } }
    (poisoned g false 14 1 0).st = .faulting ∧ (poisoned h false 14 1 0).st = .halted := by
  refine ⟨?_, ?_⟩
  · unfold poisoned
    rw [if_pos ⟨.inr rfl, fun h => (by obtain ⟨r, h, hc, -⟩ := h; cases h; cases hc)⟩]
    rfl
  · unfold poisoned
    rw [if_neg (fun h => h.2 ⟨_, rfl, rfl, rfl⟩)]
    rfl
/-- A gang whose squad has completed, with a save area that the hub maps; and the words of the signer's draw, which may be taken or not. -/
theorem wit_AgentMessages_gone :
    let i : GangInfo := { asid := 1, handle := 1, saveBase := 0x1000 }
    let s := hubbed (packT { taskOf with gone := [i] })
    watcherCore s (1, 0, 0) = none ∧ savedGang s (1, 0, 0) = none ∧ goneGang s (1, 0, 0) = some i ∧ HubMaps s 1 (i.saveBase + 16) 64 0x101010 ∧
      s.poisoned 0x101010 64 = false ∧ (signing s (List.replicate 32 0) = true ∨ signing s (List.replicate 32 0) = false) := by
  refine ⟨by decide +kernel, by decide +kernel, by decide +kernel, hub_maps 0x1010 64 (by decide) (by decide) _ rfl rfl rfl rfl, by decide +kernel, ?_⟩
  cases signing _ _
  · exact .inr rfl
  · exact .inl rfl
/-- The messages that read the certificate and begin an image, as bytes; one of mailbox 2; and one of type 1 before Finish. -/
theorem wit_LinkOperations_send : Spells 1 (packBytes [(4, 1)]) .getCertificate ∧ Spells 0 (packBytes [(4, 8), (4, 9000)]) (.firmwareBegin 9000) ∧
    1 < ({ frameOf 3 with arg := 2 } : Frame).arg.toNat ∧
    (let h := { frameOf 3 with payload := packBytes [(4, 1)] }
     h.arg = 0 ∧ 4 ≤ h.payload.length ∧ fieldAtOf h.payload 0 4 = 1 ∧ ({ pack with stage := .primer } : State).stage ≠ .up) := by
  refine ⟨?_, ?_, by decide, by decide +kernel⟩
  · unfold Spells; decide +kernel
  · unfold Spells; decide +kernel
/-- F[1] of a BWAIT is .keep and F[0] is .any (R155): bwait.any clears what it sees. -/
theorem test_decode_bwait : decodeS 0b100101_0_0_000011_000001_000000_000001#32 = some (.bwait 3 1 0 1) := by decide +kernel
theorem test_bwait_any_clears : (after (exec (.bwait 3 1 0 1) (packG (fun g => { withS [(1, 6)] g with batons := 3 })))).batons = 1 := by decide +kernel

end Sys2Proof.Tests
end

/-! PROOFS. What a step of the sequencer reads and writes: sets of engines, values on their way, and the reads of control registers. -/
namespace Sys2Proof.Proofs
open Sys2Proof.Machine Sys2Proof.Claims

/-! ## Sets of engines -/

theorem upFrom_eq_range' (lo n : Nat) : upFrom lo n = List.range' lo n := by
  induction n generalizing lo with
  | zero => rfl
  | succ n ih => rw [upFrom, ih, List.range'_succ]

theorem maskList_eq_filter_range (m : Mask) : maskList m = (List.range 16).filter (fun k => m.getLsbD k) := by
  rw [List.range_eq_range', ← upFrom_eq_range']
  rfl

@[simp] theorem mem_maskList {m : Mask} {k : Nat} : k ∈ maskList m ↔ k < 16 ∧ m.getLsbD k = true := by
  simp [maskList_eq_filter_range]

/-- An engine of the set below which there is no other heads the set's list. -/
theorem maskList_headD_of_lowest {m : Mask} {k : Nat} (hk : k < 16) (hm : m.getLsbD k = true)
    (hlow : ∀ j, j < k → m.getLsbD j = false) : (maskList m).headD 0 = k := by
  have hfind : (List.range 16).find? (fun j => m.getLsbD j) = some k := by
    rw [List.find?_range_eq_some]
    exact ⟨hm, List.mem_range.2 hk, fun j hj => by simp [hlow j hj]⟩
  rw [maskList_eq_filter_range, List.headD_eq_head?_getD, List.head?_filter, hfind]
  rfl

/-! ## Values on their way -/

/-- A result written to an s-register is the landing that the statements describe. -/
theorem writeS_eq_sLand (g : Gang) (s : State) (lat d : Nat) (v : Word) :
    g.writeS s lat d v = sLand g s.ctx.spare s.cycle lat d v := rfl

/-- A whole result written to an e-register is the landing that the statements describe. -/
theorem writeE_eq_eLand (en : Engine) (now lat d : Nat) (v : Word) : en.writeE now lat d v = eLand en now lat d v := rfl

/-! ## The values of control registers (R4, R20, R21, R121, R132) -/

/-- Fields written as a sum make up their word as long as the sum fits it. -/
theorem fieldsVal_toNat {l : List (Nat × Nat)} (h : l.foldl (fun acc f => acc + f.2 * 2 ^ f.1) 0 < 2 ^ 64) :
    (fieldsVal l).toNat = l.foldl (fun acc f => acc + f.2 * 2 ^ f.1) 0 :=
  BitVec.toNat_ofNat _ _ |>.trans (Nat.mod_eq_of_lt h)

/-- A bit is set in the union of a list of flags when it is set in one of them. -/
theorem testBit_foldl_or (f : Nat → Nat) (l : List Nat) (acc n : Nat) :
    (l.foldl (fun a k => a ||| f k) acc).testBit n = true ↔ acc.testBit n = true ∨ ∃ k ∈ l, (f k).testBit n = true := by
  induction l generalizing acc with
  | nil => simp
  | cons k t ih => simp [ih, or_assoc]

theorem flagsOver_testBit (g : Gang) (act : Mask) (n : Nat) :
    (flagsOver g act).testBit n = true ↔ ∃ k, k < 16 ∧ act.getLsbD k = true ∧ (g.eng k).fpflags.testBit n = true := by
  rw [flagsOver, testBit_foldl_or]
  simp [and_assoc]

/-- A uniform read of CR_CAPROWS gives the gang capability (R21). -/
theorem crUniform_capRows (s : State) (g : Gang) : crUniform s g 0x002 = BitVec.ofNat 64 g.gangCap := rfl

/-- An engine's own CR_CAPROWS (R21). -/
theorem crOf_capRows (s : State) (g : Gang) (en : Engine) : crOf s g en 0x002 = BitVec.ofNat 64 en.capRows := rfl

theorem crUniform_fpflags (s : State) (g : Gang) : crUniform s g 0x00A = BitVec.ofNat 64 (flagsOver g s.act) := rfl

/-- Each bit of CR_FPFLAGS in the union of the active engines' flags (R121). -/
theorem crUniform_fpflags_bit (s : State) (g : Gang) {n : Nat} (hn : n < 64) : (crUniform s g 0x00A).getLsbD n = true ↔
    ∃ k, k < 16 ∧ s.act.getLsbD k = true ∧ (g.eng k).fpflags.testBit n = true := by
  rw [crUniform_fpflags, BitVec.getLsbD_ofNat, ← flagsOver_testBit]
  simp [hn]

/-- But for CR_CAPROWS and CR_FPFLAGS, a uniform read gives the lowest active engine's copy (R135). -/
theorem crUniform_of_lowest {s : State} {g : Gang} {k addr : Nat} (hk : k < 16) (hact : s.act.getLsbD k = true)
    (hlow : ∀ j, j < k → s.act.getLsbD j = false) (hcap : addr ≠ 0x002) (hflags : addr ≠ 0x00A) :
    crUniform s g addr = crOf s g (g.eng k) addr := by
  rw [crUniform, if_neg hcap, if_neg hflags, maskList_headD_of_lowest hk hact hlow]

/-- A register of which the engines hold no copy reads the same for a uniform MOVC and for any engine. -/
theorem crUniform_of_shared (s : State) (g : Gang) {addr : Nat} (h : crPerEngine addr = false) :
    crUniform s g addr = crShared s g addr := by
  have hne : ∀ a, crPerEngine a = true → addr ≠ a := fun a ha e => by simp [← e, h] at ha
  rw [crUniform, if_neg (hne _ rfl), if_neg (hne _ rfl), crOf, if_neg (hne _ rfl), h]
  rfl

/-- CR_COREID (R20): the core number and, above it, the C-die, of nine cores each. -/
theorem crUniform_coreId_toNat {s : State} (g : Gang) (h : s.ctx.core < 72) :
    (crUniform s g 0x001).toNat = s.ctx.core + 2 ^ 8 * (s.ctx.core / 9) := by
  have hfields : crUniform s g 0x001 = fieldsVal [(8, s.ctx.core / 9), (0, s.ctx.core)] := crUniform_of_shared s g rfl
  have hsum : [(8, s.ctx.core / 9), (0, s.ctx.core)].foldl (fun acc f => acc + f.2 * 2 ^ f.1) 0 =
      s.ctx.core + 2 ^ 8 * (s.ctx.core / 9) := by
    simp only [List.foldl_cons, List.foldl_nil]
    omega
  rw [hfields, fieldsVal_toNat (by omega), hsum]

theorem crUniform_liveMask (s : State) (g : Gang) : crUniform s g 0x004 = g.live.setWidth 64 := crUniform_of_shared s g rfl

theorem crUniform_events (s : State) (g : Gang) : crUniform s g 0x00C = g.events.setWidth 64 := crUniform_of_shared s g rfl

theorem crUniform_batons (s : State) (g : Gang) : crUniform s g 0x011 = g.batons.setWidth 64 := crUniform_of_shared s g rfl

theorem crUniform_watchdog (s : State) (g : Gang) : crUniform s g 0x100 = BitVec.ofNat 64 g.watchdog := crUniform_of_shared s g rfl

theorem crUniform_cycle (s : State) (g : Gang) : crUniform s g 0x700 = BitVec.ofNat 64 s.cycle := crUniform_of_shared s g rfl

/-! ## MOVC (R135) -/

/-- Under E = 0 the uniform value lands in the issuing sequencer 1 cycle on. -/
theorem movc_uniform {s : State} {g : Gang} (d : BitVec 6) (c : BitVec 12) (h : Here s g) :
    Becomes (.movc 0 d c) s (sLand g s.ctx.spare s.cycle 1 d.toNat (crUniform s g c.toNat)) := by
  rw [Becomes, exec_movc, execMovc, slotGang_of_gang _ h, if_pos rfl, writeS_eq_sLand]

/-- Under E = 1 each active engine's own value lands in it 1 cycle on. -/
theorem movc_engines {s : State} {g : Gang} (d : BitVec 6) (c : BitVec 12) (h : Here s g) :
    Becomes (.movc 1 d c) s (g.mapAct s.act (fun _ en => eLand en s.cycle 1 d.toNat (crOf s g en c.toNat))) := by
  rw [Becomes, exec_movc, execMovc, slotGang_of_gang _ h, if_neg (by decide)]
  simp only [writeE_eq_eLand]

/-- Settles O2: MOVC's two frames, then the value of each register from what R20, R21, R36, R121 and R132 say of it. -/
theorem controlRegisterReads : Obligations.ControlRegisterReads := by
  intro s g d c hg
  refine ⟨movc_uniform d c hg, movc_engines d c hg, crUniform_capRows s g, crOf_capRows s g, ?flags, ?lowest,
    crUniform_coreId_toNat g, ?live, ?events, ?batons, crUniform_watchdog s g, crUniform_cycle s g⟩
  case flags => exact fun n hn _ => crUniform_fpflags_bit s g (by omega)
  case lowest => exact fun k hk hact hlow hcap hflags => crUniform_of_lowest hk hact hlow hcap hflags
  case live => rw [crUniform_liveMask, BitVec.toNat_setWidth_of_le (by decide)]
  case events => rw [crUniform_events, BitVec.toNat_setWidth_of_le (by decide)]
  case batons => rw [crUniform_batons, BitVec.toNat_setWidth_of_le (by decide)]

end Sys2Proof.Proofs
